-- ==== Sys2Proof/Word.lean ====
section
/-!
DEFINITION. The words of the Udsara CW640: bytes of a frame, the modular quantities of 00_scope.md 1.7 (which
wrap at their width) and the 32-bit saturating counters of the same section.
-/

namespace Sys2Proof

/-- One byte of a frame (12_frame_and_record_layouts.md). -/
abbrev Byte := BitVec 8

/-- Sample indexes, encoder counts, epochs, dose set-points: 16 bits (00_scope.md 1.7). -/
abbrev Word16 := BitVec 16

/-- Can numbers and Line Position: 32 bits, modular (00_scope.md 1.7). -/
abbrev Word32 := BitVec 32

/-- A tag: 0 to 4,094, or the null tag 4,095 (04_the_can_tracking_queue.md Table 4-1). -/
abbrev Tag := BitVec 12

/-- A counter: 32 bits and saturating (00_scope.md 1.7, "Counters"). -/
abbrev Counter := BitVec 32

end Sys2Proof
end

