-- ==== Sys2Proof/Syntax.lean ====
section
/-!
DEFINITION. The commands of the CW640: one constructor per row of spec/opcode_table.json. The rows that an outside event
brings carry its data. The rows that take what the device itself holds (the command that has begun, a copy handed to a
block, a Window Result, a timer) carry none: their operands are in State.
-/

namespace Sys2Proof

/-- The two MII ports (00_scope.md 1.2). -/
inductive Port where
  | a
  | b
  deriving DecidableEq, Repr

/-- The steps of spec/opcode_table.json. -/
inductive Instr where
  /-- POWER_ON, R4. `straps` bits 5..0 are ADDR5..ADDR0, bit 6 is ADDRP. -/
  | powerOn (straps : BitVec 7)
  /-- FRAME_RECEIVED, R1. `whole` says that the end of the frame was seen, `frame` is its bytes from the destination address through the FCS. -/
  | frameReceived (port : Port) (whole : Bool) (frame : List Byte)
  /-- HOLD_EXPIRY, R17. -/
  | holdExpiry
  /-- EGRESS_START, R13. -/
  | egressStart (port : Port)
  /-- TRANSMIT_COMPLETE, R13. -/
  | transmitComplete (port : Port)
  /-- LINK_DOWN, R15. `arriving` says that a frame was being received on the port (R1). -/
  | linkDown (port : Port) (arriving : Bool)
  /-- LINK_UP, R15. -/
  | linkUp (port : Port)
  /-- INTAKE_DEPARTURE, R182. -/
  | intakeDeparture
  /-- IDENTIFY, R184. -/
  | identify
  /-- GET_STATUS, R184. -/
  | getStatus
  /-- LOAD_BEGIN, R187. -/
  | loadBegin
  /-- LOAD_SEGMENT, R188. -/
  | loadSegment
  /-- LOAD_ABORT, R189. -/
  | loadAbort
  /-- LOAD_INACTIVITY_EXPIRY, R189. -/
  | loadInactivityExpiry
  /-- READ_TABLE, R185. -/
  | readTable
  /-- SELECT_PRODUCT, R163. -/
  | selectProduct
  /-- SET_LOT, R166. -/
  | setLot
  /-- TRIM_CONTROL, R131. -/
  | trimControl
  /-- RELEASE_VALVE, R132. -/
  | releaseValve
  /-- READ_VALVES, R147. -/
  | readValves
  /-- READ_QUEUE, R185. -/
  | readQueue
  /-- READ_SCHEDULE, R123. -/
  | readSchedule
  /-- READ_COUNTERS, R185. -/
  | readCounters
  /-- CLEAR_COUNTERS, R186. -/
  | clearCounters
  /-- CLEAR_ALARMS, R186. -/
  | clearAlarms
  /-- ZERO_NOW, R52. -/
  | zeroNow
  /-- RING_READ, R173. -/
  | ringRead
  /-- RING_FREEZE, R172. -/
  | ringFreeze
  /-- RING_THAW, R173. -/
  | ringThaw
  /-- CAPTURE_CONTROL, R178. -/
  | captureControl
  /-- CAPTURE_DISCARD, R178. -/
  | captureDiscard
  /-- RESET_FULL, R193. -/
  | resetFull
  /-- RESET_TRACKING, R81. -/
  | resetTracking
  /-- RESET_STATISTICS, R193. -/
  | resetStatistics
  /-- RESET_LOAD, R193. -/
  | resetLoad
  /-- RESET_CAPTURE, R179. -/
  | resetCapture
  /-- ENCODER_FRAME, R22. -/
  | encoderFrame
  /-- MAX_AGE_REMOVAL, R75. -/
  | maxAgeRemoval
  /-- REJECT_FIRE, R114. -/
  | rejectFire
  /-- CONFIRM_TIMEOUT, R118. -/
  | confirmTimeout
  /-- ENCODER_SILENCE_EXPIRY, R25. -/
  | encoderSilenceExpiry
  /-- SAMPLE_FRAME, R34. -/
  | sampleFrame
  /-- ZERO_READING_START, R36. -/
  | zeroReadingStart
  /-- ZERO_READING_COMPLETE, R37. -/
  | zeroReadingComplete
  /-- SETTLE_COMPLETE, R43. -/
  | settleComplete
  /-- WINDOW_CLOSE, R44. -/
  | windowClose
  /-- DIGITISER_SILENCE_EXPIRY, R47. -/
  | digitiserSilenceExpiry
  /-- WINDOW_RESULT, R76. -/
  | windowResult
  /-- CAPTURE_ARM, R174. The valve whose countdown is meant. -/
  | captureArm (valve : Byte)
  /-- DISCHARGE_FRAME, R63. -/
  | dischargeFrame
  /-- VALVE_FAULT, R139. The valve whose unsettled run is meant. -/
  | valveFault (valve : Byte)
  /-- SEAM_FRAME, R69. -/
  | seamFrame
  /-- READ_FRAME, R87. -/
  | readFrame
  /-- TRACKING_SYNCED, R98. -/
  | trackingSynced
  /-- TRACKING_LOST, R98. -/
  | trackingLost
  /-- CONFIRM_FRAME, R116. -/
  | confirmFrame
  /-- UPLOAD_START, R177. -/
  | uploadStart
  /-- CAPTURE_SEGMENT, R177. -/
  | captureSegment
  /-- STATUS_INTERVAL_EXPIRY, R192. -/
  | statusIntervalExpiry
  deriving DecidableEq, Repr

end Sys2Proof
end

