-- ==== Sys2Proof/Decode.lean ====
section
/-!
DEFINITION. Words of the opcode table. No row of spec/opcode_table.json gives bits (98_reader.md: no row has "fixed" or
"fields"), so no word spells a command and every word is refused. The management command codes of Table 11-3 are not
words of the table: they are bytes of a received frame and are read in Machine/Operands.lean.
-/

namespace Sys2Proof

/-- The command that a word spells by the table's bits: none, for the table gives no row any. -/
def decodeTableWord (_nbits _w : Nat) : Option Instr := none

end Sys2Proof
end

