-- ==== Sys2Proof/Config.lean ====
section
/-!
DEFINITION. What the CW640's silicon fixes: the capacities of its stores, its identification codes and the codes of
its messages. The spec leaves no value free, so there is no opaque constant here.
-/

namespace Sys2Proof.Config

/-- Valves of the filler (R184, R126). -/
abbrev valves : Nat := 96
/-- Records in the Tracking Queue (R59, R184). -/
def queueCapacity : Nat := 128
/-- Entries of the Reject Schedule (R110, R184). -/
def scheduleCapacity : Nat := 32
/-- Entries of the Recent-Can Ring and outcomes of the burst history (R170, R171, R184). -/
def ringCapacity : Nat := 32
/-- Product slots (R158, R184). -/
def productSlots : Nat := 16
/-- Slots of the Capture Store (R175, R184). -/
def captureSlots : Nat := 4
/-- Samples of the window buffer (R48). -/
def bufferCapacity : Nat := 384
/-- Samples of one zero reading (R37). -/
def zeroReadingSamples : Nat := 32
/-- Samples of one capture segment (R177). -/
def segmentSamples : Nat := 64
/-- Frames of the intake FIFO (R182). -/
def intakeCapacity : Nat := 8
/-- Occupancy at which an arrival holds its station (R18). -/
def holdOccupancy : Nat := 6
/-- Occupancy at which a departure releases the held stations (R19). -/
def releaseOccupancy : Nat := 2
/-- Entries of the held-station set (R18). -/
def heldCapacity : Nat := 8
/-- Largest gap of a sequence that counts as lost frames (R63, R69, R87, R116). -/
def largestGap : Nat := 16
/-- Unsettled discharges that make a valve FAULT (R139). -/
def unsettledLimit : Nat := 32
/-- The Hold expiry time in ms (R17). -/
def holdTime : Nat := 500
/-- The load inactivity time in ms (R187). -/
def loadTime : Nat := 2000
/-- The Ethernet type of a line frame (R3). -/
def lineType : Nat := 0xB6E2
/-- Vendor code (R184). -/
def vendorCode : Nat := 0x4B57
/-- Part code (R184). -/
def partCode : Nat := 0x0640
/-- Silicon revision (R184). -/
def siliconRevision : Nat := 2
/-- The management channel (R7). -/
def mgmtChannel : Nat := 240
/-- The flow channel (R7). -/
def flowChannel : Nat := 241
/-- The destination that addresses all stations (Table 1-7). -/
def broadcast : Nat := 254
/-- The value of a station field that means none (Table 11-4). -/
def noStation : Nat := 255

end Sys2Proof.Config
end

