-- ==== Sys2Proof/Machine/State.lean ====
section
/-!
DEFINITION. The state of the CW640 as plain data: one structure per block of 00_scope.md Table 1-2, every piece of state
its chapter names, the commands that wait, and the state after power-on.
-/

namespace Sys2Proof.Machine

/-- Why the machine stops with a fault. It has no constructor: the spec gives the device no event that stops it
(every error is a counter, a condition flag, a reply status or the ALARM pin). -/
inductive Fault where
  deriving DecidableEq, Repr

/-- Why a command has no meaning. -/
inductive Refusal where
  /-- Raised only by an arm of `exec` whose command has no meaning yet. Safe: the run stops there. -/
  | notModelled (mnemonic : String)
  deriving DecidableEq, Repr

/-! ## Frame Path (01_line_frames_and_forwarding.md) -/

/-- The bytes of an Ethernet frame from the destination address through the FCS (Table 12-2). -/
abbrev Frame := List Byte

/-- The role of an entry of the Channel Table (Table 1-8, codes of Table 12-1). -/
inductive Role where
  | none
  | samples
  | encoder
  | discharge
  | seam
  | read
  | dose
  | confirm
  deriving DecidableEq, Repr

/-- The egress classes of one port (Table 1-11). -/
inductive EgressClass where
  | reject
  | forward
  | printTag
  | reply
  | status
  | capture
  deriving DecidableEq, Repr

/-- One entry of the Channel Table, its five bytes as loaded (R5: NONE entries are returned as they were loaded). -/
structure ChannelEntry where
  port : Byte := 0
  source : Byte := 0
  channel : Byte := 0
  role : Byte := 0
  consume : Byte := 0
  deriving DecidableEq, Repr

/-- The six counters of a port (R16). -/
structure PortCounters where
  received : Counter := 0
  forwarded : Counter := 0
  badFcs : Counter := 0
  badLength : Counter := 0
  dropped : Counter := 0
  inserted : Counter := 0
  deriving DecidableEq, Repr

/-- One port: its link, its six queues (oldest frame first), its transmitter and its counters. -/
structure PortState where
  linkUp : Bool := false
  reject : List Frame := []
  forward : List Frame := []
  printTag : List Frame := []
  reply : List Frame := []
  status : List Frame := []
  capture : List Frame := []
  transmitting : Option (EgressClass × Frame) := none
  counters : PortCounters := {}
  deriving DecidableEq, Repr

/-- What a block receives of a frame: the arrival port, the line header fields and the payload (R8). -/
structure Copy where
  port : Port
  dest : Byte
  source : Byte
  channel : Byte
  sequence : Byte
  flags : Byte
  payload : List Byte
  deriving DecidableEq, Repr

/-- The state of the Frame Path. -/
structure FramePath where
  station : Byte := 0
  parityFault : Bool := false
  channels : Vector ChannelEntry 32 := Vector.replicate 32 {}
  portA : PortState := {}
  portB : PortState := {}
  malformed : Vector Counter 7 := Vector.replicate 7 0
  seqMgmt : Byte := 0
  seqFlow : Byte := 0
  holdStanding : Bool := false
  holdTimer : Option Nat := none
  held : List (Byte × Port) := []
  handed : List (Role × Copy) := []
  deriving DecidableEq, Repr

/-! ## Position Unit (02_line_position_and_pitch.md) -/

/-- The counters of R29. -/
structure PositionCounters where
  reverse : Counter := 0
  ticks : Counter := 0
  faults : Counter := 0
  deriving DecidableEq, Repr

/-- The state of the Position Unit (Table 2-1, R21). -/
structure Position where
  linePos : Word32 := 0
  lastCount : Option Word16 := none
  pitch : Nat := 1000
  phase : Nat := 0
  pendingGrid : Option (Nat × Nat) := none
  residue : Nat := 0
  fault : Bool := false
  timer : Option Nat := some 50
  counters : PositionCounters := {}
  deriving DecidableEq, Repr

/-! ## Weighing Front End (03_the_weighing_front_end.md) -/

/-- The window states of Table 3-3. -/
inductive WindowMode where
  | clear
  | zeroReading
  | settle
  | window
  | occupied
  | silent
  deriving DecidableEq, Repr

/-- The open window: what R41 and R42 latch and what R43, R44 and R46 keep running. -/
structure OpenWindow where
  entryIndex : Word16
  entryPos : Word32
  zero : Int
  span : Nat
  settle : Nat
  length : Nat
  minSamples : Nat
  band : Nat
  settleCount : Nat := 0
  count : Nat := 0
  sum : Int := 0
  range : Option (Int × Int) := none
  gap : Bool := false
  deriving DecidableEq, Repr

/-- A Window Result (R51). `samples` are the samples of the window buffer that the result refers to (R48). -/
structure WindowResult where
  entryIndex : Word16
  entryPos : Word32
  count : Nat
  gross : Option Int
  short : Bool
  gap : Bool
  unstable : Bool
  silent : Bool
  uncalibrated : Bool
  zeroFault : Bool
  rawRange : Nat
  samples : List Int
  deriving DecidableEq, Repr

/-- The counters of R54. -/
structure FrontEndCounters where
  stale : Counter := 0
  missing : Counter := 0
  windowsClosed : Counter := 0
  zeroReadings : Counter := 0
  zeroRejections : Counter := 0
  silences : Counter := 0
  deriving DecidableEq, Repr

/-- The state of the Weighing Front End (Table 3-1, R55). `counted` is the model's own: a sample has raised the belt-clear
count and it has not been compared yet, for the comparison of R36 is made at such a sample and at no other time (R57,
log 38). -/
structure FrontEnd where
  calZero : Int := 0
  calSpan : Nat := 0
  workingZero : Int := 0
  mode : WindowMode := .clear
  beltClear : Nat := 0
  counted : Bool := false
  accSum : Int := 0
  accCount : Nat := 0
  expected : Option Word16 := none
  window : Option OpenWindow := none
  buffer : List Int := []
  manualZero : Bool := false
  zeroFault : Bool := false
  weigherSilent : Bool := false
  zeroDone : Bool := false
  timer : Option Nat := some 20
  counters : FrontEndCounters := {}
  results : List WindowResult := []
  deriving DecidableEq, Repr

/-! ## Tracking Queue (04_the_can_tracking_queue.md) -/

/-- The stages of a Can Record (R60). -/
inductive Stage where
  | filled
  | coded
  | passed
  deriving DecidableEq, Repr

/-- The read results of a Can Record (Table 4-1). -/
inductive ReadResult where
  | read
  | mismatch
  | unread
  deriving DecidableEq, Repr

/-- A Can Record (Table 4-1, R58). -/
structure CanRecord where
  number : Word32
  product : Fin 16
  valve : Option (Fin Config.valves)
  setPoint : Option Word16
  settled : Bool
  epoch : Word16
  dischargePos : Word32
  age : Nat := 0
  stage : Stage := .filled
  head : Option Byte := none
  tag : Option Tag := none
  readResult : Option ReadResult := none
  lotOk : Bool := false
  result : Option WindowResult := none
  placeholder : Bool := false
  valveRange : Bool := false
  headRange : Bool := false
  deriving DecidableEq, Repr

/-- The eight tracking counters (R80). -/
structure TrackingCounters where
  created : Counter := 0
  placeholders : Counter := 0
  unadmitted : Counter := 0
  orphanSeams : Counter := 0
  orphanWeighs : Counter := 0
  missing : Counter := 0
  flushed : Counter := 0
  flushEvents : Counter := 0
  deriving DecidableEq, Repr

/-- The state of the Tracking Queue (R62). `ticked` is the model's own: the boundary of a pitch tick that has raised the ages
and whose removal has not been made yet, for R75 removes at a tick and at no other time (log 38). -/
structure Tracking where
  queue : List CanRecord := []
  ticked : Option Word32 := none
  canCounter : Word32 := 0
  tagCounter : Tag := 0
  dischargeExp : Option Byte := none
  seamExp : Option Byte := none
  counters : TrackingCounters := {}
  deriving DecidableEq, Repr

/-! ## Reader Matcher (05_code_reading_and_resynchronisation.md) -/

/-- The Tracking State (section 5.6). -/
inductive TrackingState where
  | notSynced
  | synced
  | lost
  deriving DecidableEq, Repr

/-- The ten counters of R101. -/
structure ReaderCounters where
  readFrames : Counter := 0
  lostReads : Counter := 0
  restarts : Counter := 0
  invalid : Counter := 0
  orphan : Counter := 0
  unread : Counter := 0
  exact : Counter := 0
  slips : Counter := 0
  duplicate : Counter := 0
  mismatches : Counter := 0
  deriving DecidableEq, Repr

/-- The two runs of the Reader Matcher (R97). -/
inductive Run where
  | clean
  | unread
  deriving DecidableEq, Repr

/-- The state of the Reader Matcher (Table 5-1, R84). `risen` is the model's own: the run that has risen and has not been
compared with its limit yet, for the comparisons of R98 are made after an increase and at no other time (log 35). -/
structure Reader where
  expectation : Option Byte := none
  tracking : TrackingState := .notSynced
  cleanRun : Nat := 0
  unreadRun : Nat := 0
  risen : Option Run := none
  lotBoundary : Vector Word32 16 := Vector.replicate 16 0
  counters : ReaderCounters := {}
  deriving DecidableEq, Repr

/-! ## Judgement and Reject Unit (06_judgement_and_rejection.md) -/

/-- The classes in the order of Table 6-2. -/
inductive CanClass where
  | orphan
  | noWeight
  | zeroFault
  | unstable
  | mismatch
  | unread
  | rejLow
  | rejHigh
  | unverified
  | low
  | high
  | ok
  deriving DecidableEq, Repr

/-- An entry of the Reject Schedule (Table 6-3); `fired` is the state FIRED, else PENDING. -/
structure RejectEntry where
  number : Option Word32
  cls : CanClass
  firePos : Word32
  fired : Bool
  deadline : Option Word32
  late : Bool
  deriving DecidableEq, Repr

/-- The eight reject counters (R122). -/
structure RejectCounters where
  fired : Counter := 0
  late : Counter := 0
  confirms : Counter := 0
  lostConfirms : Counter := 0
  restarts : Counter := 0
  unexpected : Counter := 0
  lost : Counter := 0
  unconfirmed : Counter := 0
  deriving DecidableEq, Repr

/-- The Reject Policy at power-on: every class but LOW, HIGH and OK is rejected (R107). -/
def defaultPolicy : Vector Bool 12 :=
  #v[true, true, true, true, true, true, true, true, true, false, false, false]

/-- The state of the Judgement and Reject Unit (Table 6-1). -/
structure Judge where
  policy : Vector Bool 12 := defaultPolicy
  classes : Vector Counter 12 := Vector.replicate 12 0
  rejectTotal : Counter := 0
  schedule : List RejectEntry := []
  confirmExp : Option Byte := none
  lineStop : Bool := false
  unexpected : Bool := false
  counters : RejectCounters := {}
  deriving DecidableEq, Repr

/-! ## Trim Engine (07_valve_statistics_and_dose_trim.md) -/

/-- The modes of a Valve Table entry (Table 7-2). -/
inductive ValveMode where
  | auto
  | fixed
  | excluded
  deriving DecidableEq, Repr

/-- An entry of the Valve Table (Table 7-2). -/
structure ValveEntry where
  mode : ValveMode := .auto
  fixedTrim : Int := 0
  captureInterval : Nat := 0
  deriving DecidableEq, Repr

/-- The Trim Mode (R130). -/
inductive TrimMode where
  | off
  | hold
  | auto
  deriving DecidableEq, Repr

/-- The states of a valve (Table 7-4). -/
inductive ValveState where
  | excluded
  | fixed
  | settling
  | collecting
  | fault
  deriving DecidableEq, Repr

/-- A Valve Statistics record (Table 7-3, R135; capture countdown and armed flag by R168). -/
structure ValveRecord where
  state : ValveState := .settling
  trim : Int := 0
  n : Nat := 0
  eAvg : Int := 0
  limit : Bool := false
  unsettledRun : Nat := 0
  weighed : Counter := 0
  rejected : Counter := 0
  trimChanges : Counter := 0
  lastChange : Option Word32 := none
  countdown : Nat := 0
  armed : Bool := false
  deriving DecidableEq, Repr

/-- The state of the Trim Engine (Table 7-1). -/
structure Trim where
  table : Vector ValveEntry Config.valves := Vector.replicate Config.valves {}
  mode : TrimMode := .off
  trimHold : Bool := false
  attention : Bool := false
  valves : Vector ValveRecord Config.valves := Vector.replicate Config.valves {}
  deriving DecidableEq, Repr

/-! ## Rewriter (08_dose_frame_rewriting.md) -/

/-- The three counters of R157. -/
structure RewriterCounters where
  framesRewritten : Counter := 0
  changes : Counter := 0
  clamps : Counter := 0
  deriving DecidableEq, Repr

/-- The state of the Rewriter (Table 8-1, R149); `expected` is E. -/
structure Rewriter where
  expected : Vector (Option Word16) Config.valves := Vector.replicate Config.valves none
  epoch : Vector Word16 Config.valves := Vector.replicate Config.valves 0
  counters : RewriterCounters := {}
  deriving DecidableEq, Repr

/-! ## Product Unit (09_products_and_changeover.md) -/

/-- A product record (Table 9-2). -/
structure Product where
  name : List Byte
  target : Nat
  tare : Nat
  rejectLow : Int
  warnLow : Int
  warnHigh : Int
  rejectHigh : Int
  doseMin : Nat
  doseMax : Nat
  trimMin : Int
  trimMax : Int
  deadband : Nat
  nMin : Nat
  k : Nat
  g : Nat
  gq : Nat
  maxStep : Nat
  settle : Nat
  length : Nat
  minSamples : Nat
  band : Nat
  currentLot : List Byte
  previousLot : Option (List Byte)
  deriving DecidableEq, Repr

/-- The state of the Product Unit (Table 9-1, R158). -/
structure Products where
  table : Vector (Option Product) 16 := Vector.replicate 16 none
  active : Option (Fin 16) := none
  deriving DecidableEq, Repr

/-! ## Ring and Capture (10_recent_can_ring_and_window_capture.md) -/

/-- The fates of a record that left the queue (R61). -/
inductive Fate where
  | judged
  | missing
  | flushed
  deriving DecidableEq, Repr

/-- A ring entry (Table 10-2). -/
structure RingEntry where
  number : Option Word32
  product : Option (Fin 16)
  valve : Option (Fin Config.valves)
  head : Option Byte
  tag : Option Tag
  readResult : Option ReadResult
  gross : Option Int
  net : Option Int
  cls : Option CanClass
  fate : Fate
  short : Bool
  gap : Bool
  late : Bool
  settled : Bool
  scheduled : Bool
  linePos : Word32
  deriving DecidableEq, Repr

/-- The freeze state of the ring (Table 10-1). -/
inductive FreezeState where
  | notFrozen
  | alarm
  | command
  deriving DecidableEq, Repr

/-- The freeze cause (Table 10-1). -/
inductive FreezeCause where
  | burst
  | lost
  | unconfirmed
  | command
  deriving DecidableEq, Repr

/-- A stored capture (Table 10-3): the fields of the record, of the judgement and of the Window Result. -/
structure Capture where
  captureNumber : Word16
  record : CanRecord
  cls : CanClass
  net : Option Int
  late : Bool
  scheduled : Bool
  result : WindowResult
  deriving DecidableEq, Repr

/-- A slot of the Capture Store. -/
inductive Slot where
  | empty
  | stored (c : Capture)
  | uploading (c : Capture)
  deriving DecidableEq, Repr

/-- The upload engine (Table 10-1). -/
inductive Engine where
  | idle
  | uploading (slot : Fin 4) (next : Nat) (count : Nat)
  deriving DecidableEq, Repr

/-- The five counters of R180. -/
structure CaptureCounters where
  stored : Counter := 0
  overwritten : Counter := 0
  missed : Counter := 0
  completed : Counter := 0
  abandoned : Counter := 0
  deriving DecidableEq, Repr

/-- The state of Ring and Capture (R168). -/
structure RingCapture where
  ring : List RingEntry := []
  freeze : FreezeState := .notFrozen
  cause : Option FreezeCause := none
  burst : List Bool := []
  slots : Vector Slot 4 := Vector.replicate 4 .empty
  order : List (Fin 4) := []
  captureNumber : Word16 := 0
  engine : Engine := .idle
  captureReady : Bool := false
  counters : CaptureCounters := {}
  deriving DecidableEq, Repr

/-! ## Management Agent (11_management_channel.md) -/

/-- The loadable tables (Table 11-5). -/
inductive TableId where
  | channel
  | lineSetup
  | calibration
  | product
  | valve
  | policy
  deriving DecidableEq, Repr

/-- The descriptor of the load in progress (Table 11-1). -/
structure LoadDesc where
  table : TableId
  first : Nat
  count : Nat
  segments : Nat
  expected : Nat
  deriving DecidableEq, Repr

/-- The Line Setup record with its defaults (Table 11-4). Stations are bytes, 255 is none. -/
structure LineSetup where
  coder : Byte := 255
  rejector : Byte := 255
  controller : Byte := 255
  collector : Byte := 255
  coderPort : Port := .b
  rejectorPort : Port := .b
  controllerPort : Port := .a
  collectorPort : Port := .a
  statusInterval : Nat := 100
  pitch : Nat := 1000
  phase : Nat := 0
  encoderSilence : Nat := 50
  digitiserSilence : Nat := 20
  beltClearSamples : Nat := 200
  zeroTrackLimit : Nat := 2000
  zeroCaptureLimit : Nat := 200000
  valveCount : Nat := 96
  headCount : Nat := 12
  maxAge : Nat := 200
  lookahead : Nat := 3
  unreadLimit : Nat := 4
  syncReads : Nat := 8
  codeLength : Nat := 12
  lotStart : Nat := 0
  lotLength : Nat := 8
  tagStart : Nat := 9
  lotGrace : Nat := 64
  rejectOffset : Nat := 10000
  rejectPulse : Nat := 200
  confirmWindow : Nat := 2000
  burstK : Nat := 0
  burstW : Nat := 8
  freezeOnLost : Bool := true
  freezeOnUnconfirmed : Bool := true
  holdTrimOnFreeze : Bool := true
  captureWrap : Bool := false
  captureThreshold : Nat := 1
  upload : Bool := false
  deriving DecidableEq, Repr

/-- The four management counters (R186). -/
structure MgmtCounters where
  overruns : Counter := 0
  malformed : Counter := 0
  sequenceErrors : Counter := 0
  timeouts : Counter := 0
  deriving DecidableEq, Repr

/-- The state of the Management Agent (Table 11-1, R181). -/
structure Mgmt where
  fifo : List Copy := []
  executing : Option Copy := none
  load : Option LoadDesc := none
  staging : List (List Byte) := []
  loadTimer : Option Nat := none
  setup : LineSetup := {}
  statusTimer : Option Nat := some 100
  overrun : Bool := false
  counters : MgmtCounters := {}
  deriving DecidableEq, Repr

/-! ## The whole device -/

/-- The state of the CW640: its eleven blocks and the commands that wait, first in first out. -/
structure State where
  fp : FramePath := {}
  pos : Position := {}
  fe : FrontEnd := {}
  tq : Tracking := {}
  rm : Reader := {}
  jr : Judge := {}
  te : Trim := {}
  rw : Rewriter := {}
  pu : Products := {}
  rc : RingCapture := {}
  ma : Mgmt := {}
  pending : List Instr := []
  deriving DecidableEq, Repr

/-- The machine right after power-on, no command waiting. Every block holds its power-on values (R5, R11, R14 to R18,
R21, R55, R62, R84, R107, R135, R149, R158, R168, R181). The straps are inputs of POWER_ON: until one is taken the
station number is 0 and the address-parity fault clear (DESIGN CHOICE, unsafe, log 1). -/
def State.reset : State := {}

end Sys2Proof.Machine
end

