-- ==== Sys2Proof/Machine/Bytes.lean ====
section
/-!
DEFINITION. Numbers and bytes: the encoding of R194 (most significant byte first, two's complement at the stated
width), the rounding and the modular comparisons of 00_scope.md 1.7, saturating counters, and the frame check sequence.
-/

namespace Sys2Proof.Machine

/-- A number as `n` bytes, most significant first (R194). -/
def beBytes : Nat → Nat → List Byte
  | 0, _ => []
  | n + 1, x => BitVec.ofNat 8 (x / 256 ^ n) :: beBytes n x

/-- A signed number as `n` bytes in two's complement (R194). -/
def beSigned (n : Nat) (x : Int) : List Byte :=
  beBytes n (x % (256 ^ n : Int)).toNat

/-- The number that bytes give, most significant first (R194). -/
def readBytes (bytes : List Byte) : Nat :=
  bytes.foldl (fun acc b => acc * 256 + b.toNat) 0

/-- The `n` bytes that start at offset `i`. -/
def bytesAt (bytes : List Byte) (i n : Nat) : List Byte :=
  (bytes.drop i).take n

/-- The unsigned field of `n` bytes at offset `i`. -/
def fieldAt (bytes : List Byte) (i n : Nat) : Nat :=
  readBytes (bytesAt bytes i n)

/-- The signed field of `n` bytes at offset `i` (R194). -/
def signedAt (bytes : List Byte) (i n : Nat) : Int :=
  let u := fieldAt bytes i n
  if 2 * u < 256 ^ n then u else (u : Int) - 256 ^ n

/-- One byte at offset `i`; 0 beyond the end. -/
def byteAt (bytes : List Byte) (i : Nat) : Byte :=
  bytes.getD i 0

/-- The bytes with those from offset `i` replaced by `new`, the length kept. -/
def overwriteAt (bytes : List Byte) (i : Nat) (new : List Byte) : List Byte :=
  (bytes.take i ++ new ++ bytes.drop (i + new.length)).take bytes.length

/-- Yes or no as a byte (Table 12-1). -/
def flagByte (b : Bool) : Byte :=
  if b then 1 else 0

/-- Flags as a number, the first one in bit 0. -/
def bitsOf : List Bool → Nat
  | [] => 0
  | b :: rest => b.toNat + 2 * bitsOf rest

/-- A counter advanced by `n`, held at 4,294,967,295 (00_scope.md 1.7, "Counters"). -/
def tally (c : Counter) (n : Nat) : Counter :=
  if c.toNat + n < 2 ^ 32 then BitVec.ofNat 32 (c.toNat + n) else BitVec.ofNat 32 (2 ^ 32 - 1)

/-- A quotient rounded to nearest, ties away from zero (00_scope.md 1.7, "Rounding"); the divisor is positive. -/
def roundDiv (a : Int) (b : Nat) : Int :=
  if 0 ≤ a then (2 * a + b) / (2 * b) else -((2 * (-a) + b) / (2 * b))

/-- A weight held within the signed 32-bit range (R49, R104). -/
def clampWeight (w : Int) : Int :=
  max (-2147483648) (min w 2147483647)

/-- "a is at or after b" for 32-bit modular quantities (00_scope.md 1.7). -/
def atOrAfter (a b : Word32) : Bool :=
  (a - b).toNat < 2 ^ 31

/-- "a is before b" for 32-bit modular quantities: b is after a, so b - a read as a signed number is positive (00_scope.md
1.7). At a distance of exactly 2^31 neither is before the other. -/
def isBefore (a b : Word32) : Bool :=
  atOrAfter b a && a != b

/-- The sequence gap of a frame against an expectation (00_scope.md 1.7). -/
def seqGap (received expected : Byte) : Nat :=
  (received - expected).toNat

/-! ## The frame check sequence: the CRC-32 of IEEE 802.3 (PRESUMED, unsafe, log 3) -/

/-- One bit of the reflected CRC. -/
def crcBit (c : Nat) : Nat :=
  if c % 2 = 1 then (c / 2) ^^^ 0xEDB88320 else c / 2

/-- One byte of the reflected CRC. -/
def crcByte (c : Nat) (b : Byte) : Nat :=
  Nat.repeat crcBit 8 (c ^^^ b.toNat)

/-- The CRC-32 of a list of bytes. -/
def crc32 (bytes : List Byte) : Nat :=
  (bytes.foldl crcByte 0xFFFFFFFF) ^^^ 0xFFFFFFFF

/-- The four FCS bytes in their order on the link: the least significant byte of the CRC first (log 3). -/
def fcsOf (bytes : List Byte) : List Byte :=
  (beBytes 4 (crc32 bytes)).reverse

/-- Whether the last four bytes of a frame are the FCS of those before them (R1). -/
def fcsOk (frame : Frame) : Bool :=
  4 ≤ frame.length && frame.drop (frame.length - 4) == fcsOf (frame.take (frame.length - 4))

/-- A frame with its FCS recomputed over the bytes before it (R152). -/
def withFcs (frame : Frame) : Frame :=
  frame.take (frame.length - 4) ++ fcsOf (frame.take (frame.length - 4))

/-! ## Lists -/

/-- The list with `f` applied to its first element that satisfies `p`. -/
def updateFirst {α : Type} (p : α → Bool) (f : α → α) : List α → List α
  | [] => []
  | a :: rest => if p a then f a :: rest else a :: updateFirst p f rest

/-- The list without its first element that satisfies `p`. -/
def removeFirst {α : Type} (p : α → Bool) : List α → List α
  | [] => []
  | a :: rest => if p a then rest else a :: removeFirst p rest

/-- A list with one element joined at its newest end, the oldest dropped first when it holds `cap` already. -/
def pushBounded {α : Type} (cap : Nat) (l : List α) (a : α) : List α :=
  (if l.length < cap then l else l.drop 1) ++ [a]

end Sys2Proof.Machine
end

