-- ==== Sys2Proof/Machine/Codes.lean ====
section
/-!
DEFINITION. The codes of Table 12-1 (R194), of Table 11-2 and of Table 11-3, and the sizes of Tables 11-5 and 12-6.
-/

namespace Sys2Proof.Machine

/-- A port field: 0 A, 1 B. -/
def portCode : Port → Byte
  | .a => 0
  | .b => 1

/-- The port a field names; other codes name none. -/
def portOfCode (b : Byte) : Option Port :=
  match b.toNat with
  | 0 => some .a
  | 1 => some .b
  | _ => none

/-- The role a byte of the Channel Table names; an unlisted code matches nothing. -/
def roleOfCode (b : Byte) : Role :=
  match b.toNat with
  | 1 => .samples
  | 2 => .encoder
  | 3 => .discharge
  | 4 => .seam
  | 5 => .read
  | 6 => .dose
  | 7 => .confirm
  | _ => .none

/-- The index of a class, 0 to 11 in the order of Table 6-2 (R107). -/
def classIndex : CanClass → Fin 12
  | .orphan => 0
  | .noWeight => 1
  | .zeroFault => 2
  | .unstable => 3
  | .mismatch => 4
  | .unread => 5
  | .rejLow => 6
  | .rejHigh => 7
  | .unverified => 8
  | .low => 9
  | .high => 10
  | .ok => 11

/-- The stage codes. -/
def stageCode : Stage → Byte
  | .filled => 0
  | .coded => 1
  | .passed => 2

/-- The read result codes. -/
def readResultCode : ReadResult → Byte
  | .read => 0
  | .mismatch => 1
  | .unread => 2

/-- The fate codes. -/
def fateCode : Fate → Byte
  | .judged => 0
  | .missing => 1
  | .flushed => 2

/-- The Tracking State codes. -/
def trackingCode : TrackingState → Nat
  | .notSynced => 0
  | .synced => 1
  | .lost => 2

/-- The Trim Mode codes. -/
def trimModeCode : TrimMode → Byte
  | .off => 0
  | .hold => 1
  | .auto => 2

/-- The valve mode codes. -/
def valveModeCode : ValveMode → Byte
  | .auto => 0
  | .fixed => 1
  | .excluded => 2

/-- The valve mode a loaded byte names. -/
def valveModeOfCode (b : Byte) : Option ValveMode :=
  match b.toNat with
  | 0 => some .auto
  | 1 => some .fixed
  | 2 => some .excluded
  | _ => none

/-- The valve state codes. -/
def valveStateCode : ValveState → Byte
  | .excluded => 0
  | .fixed => 1
  | .settling => 2
  | .collecting => 3
  | .fault => 4

/-- The freeze state codes. -/
def freezeCode : FreezeState → Byte
  | .notFrozen => 0
  | .alarm => 1
  | .command => 2

/-- The freeze cause codes; an absent cause is sent as 0 (R197). -/
def causeCode : Option FreezeCause → Byte
  | none => 0
  | some .burst => 0
  | some .lost => 1
  | some .unconfirmed => 2
  | some .command => 3

/-- The table codes. -/
def tableOfCode (b : Byte) : Option TableId :=
  match b.toNat with
  | 0 => some .channel
  | 1 => some .lineSetup
  | 2 => some .calibration
  | 3 => some .product
  | 4 => some .valve
  | 5 => some .policy
  | _ => none

/-- The number of entries of a table (Table 11-5). -/
def tableSize : TableId → Nat
  | .channel => 32
  | .lineSetup => 1
  | .calibration => 1
  | .product => 16
  | .valve => 96
  | .policy => 12

/-- The bytes of one entry of a table (Table 12-6). -/
def entrySize : TableId → Nat
  | .channel => 5
  | .lineSetup => 52
  | .calibration => 6
  | .product => 84
  | .valve => 6
  | .policy => 1

/-- The reply statuses (Table 11-2). -/
inductive ReplyStatus where
  | ok
  | busy
  | unknownCommand
  | badArgument
  | inUse
  | sequence
  | notLoading
  | length
  deriving DecidableEq, Repr

/-- The reply status codes. -/
def replyCode : ReplyStatus → Byte
  | .ok => 0
  | .busy => 1
  | .unknownCommand => 2
  | .badArgument => 3
  | .inUse => 4
  | .sequence => 5
  | .notLoading => 6
  | .length => 7

/-- The commands of Table 11-3, RESET split by its scope and TRIM_CONTROL by its action as the opcode table splits them. -/
inductive CommandKind where
  | identify
  | getStatus
  | loadBegin
  | loadSegment
  | loadAbort
  | readTable
  | selectProduct
  | setLot
  | trimControl
  | releaseValve
  | readValves
  | readQueue
  | readSchedule
  | readCounters
  | clearCounters
  | clearAlarms
  | zeroNow
  | ringRead
  | ringFreeze
  | ringThaw
  | captureControl
  | captureDiscard
  | resetFull
  | resetTracking
  | resetStatistics
  | resetLoad
  | resetCapture
  deriving DecidableEq, Repr

/-- What the payload of a management frame asks for (R182, R183). -/
inductive CommandClass where
  /-- Shorter than command code and request tag. -/
  | malformed
  /-- A code that Table 11-3 does not list. -/
  | unknown
  /-- RESET without its scope byte. -/
  | resetShort
  /-- RESET with a scope that Table 12-1 does not list. -/
  | resetBad
  /-- A command that a row of the opcode table executes. -/
  | known (k : CommandKind)
  deriving DecidableEq, Repr

/-- The RESET row that a scope byte names (R193, Table 12-1). -/
def resetKind (args : List Byte) : CommandClass :=
  match args with
  | [] => .resetShort
  | scope :: _ =>
    match scope.toNat with
    | 0 => .known .resetFull
    | 1 => .known .resetTracking
    | 2 => .known .resetStatistics
    | 3 => .known .resetLoad
    | 4 => .known .resetCapture
    | _ => .resetBad

/-- The TRIM_CONTROL row that an action byte names: action 3 is RELEASE_VALVE (Table 12-4). -/
def trimKind (args : List Byte) : CommandKind :=
  if args.head? = some 3 then .releaseValve else .trimControl

/-- The row that executes a command payload (Table 11-3). -/
def commandClass (payload : List Byte) : CommandClass :=
  match payload with
  | code :: _tag :: args =>
    match code.toNat with
    | 0x01 => .known .identify
    | 0x02 => .known .getStatus
    | 0x10 => .known .loadBegin
    | 0x11 => .known .loadSegment
    | 0x12 => .known .loadAbort
    | 0x13 => .known .readTable
    | 0x20 => .known .selectProduct
    | 0x21 => .known .setLot
    | 0x22 => .known (trimKind args)
    | 0x30 => .known .readValves
    | 0x31 => .known .readQueue
    | 0x32 => .known .readSchedule
    | 0x33 => .known .readCounters
    | 0x34 => .known .clearCounters
    | 0x35 => .known .clearAlarms
    | 0x36 => .known .zeroNow
    | 0x40 => .known .ringRead
    | 0x41 => .known .ringFreeze
    | 0x42 => .known .ringThaw
    | 0x43 => .known .captureControl
    | 0x44 => .known .captureDiscard
    | 0x50 => resetKind args
    | _ => .unknown
  | _ => .malformed

end Sys2Proof.Machine
end

