-- ==== Sys2Proof/Machine/Entries.lean ====
section
/-!
DEFINITION. The loaded entries of Table 12-6: the value that the bytes of an entry give, its validity by the ranges of its
owner (R6, R32, R108, R127, R159, R190), and the bytes that READ_TABLE returns (R185). Reserved bytes are neither
validated nor kept (R194).
-/

namespace Sys2Proof.Machine

/-- A yes or no that a loaded byte gives; other codes are out of range (Table 12-1). -/
def boolOfCode (b : Byte) : Option Bool :=
  match b.toNat with
  | 0 => some false
  | 1 => some true
  | _ => none

/-! ## CHANNEL -/

/-- A CHANNEL entry as loaded. -/
def channelOf (b : List Byte) : ChannelEntry :=
  { port := byteAt b 0, source := byteAt b 1, channel := byteAt b 2, role := byteAt b 3, consume := byteAt b 4 }

/-- Whether an entry's role is other than NONE. -/
def ChannelEntry.isUsed (e : ChannelEntry) : Bool :=
  e.role != 0

/-- Whether the fields of a CHANNEL entry are within their ranges (Tables 1-8 and 12-1). -/
def ChannelEntry.inRange (e : ChannelEntry) : Bool :=
  decide (e.port.toNat ≤ 2 ∧ e.source.toNat ≤ 253 ∧ e.channel.toNat ≤ 239 ∧ e.role.toNat ≤ 7 ∧ e.consume.toNat ≤ 1)

/-- Whether two entries overlap (R6). -/
def ChannelEntry.overlaps (e f : ChannelEntry) : Bool :=
  e.isUsed && f.isUsed && e.source == f.source && e.channel == f.channel &&
    (e.port == f.port || e.port == 2 || f.port == 2)

/-- Whether an entry has the role DOSE. -/
def ChannelEntry.isDose (e : ChannelEntry) : Bool :=
  e.role == 6

/-- A CHANNEL entry as READ_TABLE returns it. -/
def channelBytes (e : ChannelEntry) : List Byte :=
  [e.port, e.source, e.channel, e.role, e.consume]

/-! ## CALIBRATION -/

/-- The zero and the span of a CALIBRATION entry; every loaded value is within its range (Table 3-2). -/
def calibrationOf (b : List Byte) : Int × Nat :=
  (signedAt b 0 3, fieldAt b 3 3)

/-- The Calibration record as READ_TABLE returns it. -/
def calibrationBytes (zero : Int) (span : Nat) : List Byte :=
  beSigned 3 zero ++ beBytes 3 span

/-! ## VALVE -/

/-- A VALVE entry, when its mode and its fixed trim are within their ranges (R127). -/
def valveOf (b : List Byte) : Option ValveEntry :=
  match valveModeOfCode (byteAt b 0) with
  | none => none
  | some mode =>
    let trim := signedAt b 2 2
    if -2047 ≤ trim ∧ trim ≤ 2047 then some { mode := mode, fixedTrim := trim, captureInterval := fieldAt b 4 2 }
    else none

/-- A VALVE entry as READ_TABLE returns it. -/
def valveBytes (e : ValveEntry) : List Byte :=
  [valveModeCode e.mode, 0] ++ beSigned 2 e.fixedTrim ++ beBytes 2 e.captureInterval

/-! ## PRODUCT -/

/-- The record that a PRODUCT entry with its valid flag set holds. The previous lot is present when bit 0 of its presence
byte is set (DEDUCED, unsafe, log 19). -/
def productFields (b : List Byte) : Product :=
  { name := bytesAt b 1 16
    target := fieldAt b 17 4
    tare := fieldAt b 21 4
    rejectLow := signedAt b 25 4
    warnLow := signedAt b 29 4
    warnHigh := signedAt b 33 4
    rejectHigh := signedAt b 37 4
    doseMin := fieldAt b 41 2
    doseMax := fieldAt b 43 2
    trimMin := signedAt b 45 2
    trimMax := signedAt b 47 2
    deadband := fieldAt b 49 2
    nMin := fieldAt b 51 1
    k := fieldAt b 52 1
    g := fieldAt b 53 1
    gq := fieldAt b 54 3
    maxStep := fieldAt b 57 2
    settle := fieldAt b 59 1
    length := fieldAt b 60 1
    minSamples := fieldAt b 61 1
    band := fieldAt b 62 3
    currentLot := bytesAt b 65 8
    previousLot := if (byteAt b 73).toNat.testBit 0 then some (bytesAt b 74 8) else none }

/-- The ranges of Table 9-2 that a loaded field can leave. -/
def Product.inRange (p : Product) : Bool :=
  decide (1 ≤ p.target ∧ p.target ≤ 4000000 ∧ p.tare ≤ 1000000 ∧
    -2047 ≤ p.trimMin ∧ p.trimMin ≤ 0 ∧ 0 ≤ p.trimMax ∧ p.trimMax ≤ 2047 ∧
    1 ≤ p.nMin ∧ p.nMin ≤ 64 ∧ 1 ≤ p.k ∧ p.k ≤ 6 ∧ 1 ≤ p.g ∧ p.g ≤ 8 ∧ 1 ≤ p.gq ∧
    1 ≤ p.maxStep ∧ p.maxStep ≤ 2047 ∧ 4 ≤ p.length ∧ p.length ≤ 128 ∧ 1 ≤ p.minSamples ∧ p.band ≤ 8388607)

/-- The relations between the fields of a product record (R159). -/
def Product.related (p : Product) : Bool :=
  decide (p.rejectLow ≤ p.warnLow ∧ p.warnLow ≤ p.target ∧ (p.target : Int) ≤ p.warnHigh ∧ p.warnHigh ≤ p.rejectHigh ∧
    p.doseMin ≤ p.doseMax ∧ p.minSamples ≤ p.length ∧ p.settle + p.length ≤ 383)

/-- What a PRODUCT entry puts into its slot: a record, or nothing when its valid flag is cleared; absent when the entry
fails (R158, R159). -/
def productOf (b : List Byte) : Option (Option Product) :=
  match boolOfCode (byteAt b 0) with
  | none => none
  | some false => some none
  | some true => if (productFields b).inRange && (productFields b).related then some (some (productFields b)) else none

/-- A slot as READ_TABLE returns it; an empty one with its valid flag cleared (R158) and its 83 other bytes, of which the spec
gives no value, as 0 (DESIGN CHOICE, unsafe, log 33). -/
def productBytes : Option Product → List Byte
  | none => List.replicate 84 0
  | some p =>
    [(1 : Byte)] ++ p.name ++ beBytes 4 p.target ++ beBytes 4 p.tare ++ beSigned 4 p.rejectLow ++ beSigned 4 p.warnLow ++
      beSigned 4 p.warnHigh ++ beSigned 4 p.rejectHigh ++ beBytes 2 p.doseMin ++ beBytes 2 p.doseMax ++
      beSigned 2 p.trimMin ++ beSigned 2 p.trimMax ++ beBytes 2 p.deadband ++ beBytes 1 p.nMin ++ beBytes 1 p.k ++
      beBytes 1 p.g ++ beBytes 3 p.gq ++ beBytes 2 p.maxStep ++ beBytes 1 p.settle ++ beBytes 1 p.length ++
      beBytes 1 p.minSamples ++ beBytes 3 p.band ++ p.currentLot ++ [flagByte p.previousLot.isSome] ++
      p.previousLot.getD (List.replicate 8 0) ++ [0, 0]

/-! ## LINE_SETUP -/

/-- A station field of the Line Setup record: 0 to 253, or 255 for none (Table 11-4). -/
def stationOk (b : Byte) : Bool :=
  b != 254

/-- The bytes of a LINE_SETUP entry that are codes: the four ports, and the yes or no fields with their offsets. -/
structure SetupCodes where
  coderPort : Port
  rejectorPort : Port
  controllerPort : Port
  collectorPort : Port
  freezeOnLost : Bool
  freezeOnUnconfirmed : Bool
  holdTrimOnFreeze : Bool
  captureWrap : Bool
  upload : Bool

/-- The codes of a LINE_SETUP entry; none when a byte is not a code of its field. -/
def setupCodes (b : List Byte) : Option SetupCodes :=
  match portOfCode (byteAt b 4), portOfCode (byteAt b 5), portOfCode (byteAt b 6), portOfCode (byteAt b 7) with
  | some p4, some p5, some p6, some p7 =>
    match boolOfCode (byteAt b 46), boolOfCode (byteAt b 47), boolOfCode (byteAt b 48), boolOfCode (byteAt b 49),
      boolOfCode (byteAt b 51) with
    | some f46, some f47, some f48, some f49, some f51 =>
      some {
        coderPort := p4, rejectorPort := p5, controllerPort := p6, collectorPort := p7
        freezeOnLost := f46, freezeOnUnconfirmed := f47, holdTrimOnFreeze := f48, captureWrap := f49, upload := f51 }
    | _, _, _, _, _ => none
  | _, _, _, _ => none

/-- The record that a LINE_SETUP entry holds. -/
def setupFields (b : List Byte) (c : SetupCodes) : LineSetup :=
  { coder := byteAt b 0
    rejector := byteAt b 1
    controller := byteAt b 2
    collector := byteAt b 3
    coderPort := c.coderPort
    rejectorPort := c.rejectorPort
    controllerPort := c.controllerPort
    collectorPort := c.collectorPort
    statusInterval := fieldAt b 8 2
    pitch := fieldAt b 10 2
    phase := fieldAt b 12 2
    encoderSilence := fieldAt b 14 2
    digitiserSilence := fieldAt b 16 1
    beltClearSamples := fieldAt b 17 2
    zeroTrackLimit := fieldAt b 19 3
    zeroCaptureLimit := fieldAt b 22 3
    valveCount := fieldAt b 25 1
    headCount := fieldAt b 26 1
    maxAge := fieldAt b 27 2
    lookahead := fieldAt b 29 1
    unreadLimit := fieldAt b 30 1
    syncReads := fieldAt b 31 1
    codeLength := fieldAt b 32 1
    lotStart := fieldAt b 33 1
    lotLength := fieldAt b 34 1
    tagStart := fieldAt b 35 1
    lotGrace := fieldAt b 36 1
    rejectOffset := fieldAt b 37 3
    rejectPulse := fieldAt b 40 2
    confirmWindow := fieldAt b 42 2
    burstK := fieldAt b 44 1
    burstW := fieldAt b 45 1
    freezeOnLost := c.freezeOnLost
    freezeOnUnconfirmed := c.freezeOnUnconfirmed
    holdTrimOnFreeze := c.holdTrimOnFreeze
    captureWrap := c.captureWrap
    captureThreshold := fieldAt b 50 1
    upload := c.upload }

/-- The ranges of Table 11-4 that a loaded field can leave. -/
def LineSetup.inRange (u : LineSetup) : Bool :=
  stationOk u.coder && stationOk u.rejector && stationOk u.controller && stationOk u.collector &&
    decide (u.statusInterval ≤ 10000 ∧ 1 ≤ u.pitch ∧ 5 ≤ u.encoderSilence ∧ u.encoderSilence ≤ 1000 ∧
      2 ≤ u.digitiserSilence ∧ 1 ≤ u.beltClearSamples ∧ 1 ≤ u.valveCount ∧ u.valveCount ≤ 96 ∧
      1 ≤ u.headCount ∧ u.headCount ≤ 12 ∧ 1 ≤ u.maxAge ∧ u.maxAge ≤ 1023 ∧ u.lookahead ≤ 8) &&
    decide (1 ≤ u.unreadLimit ∧ u.unreadLimit ≤ 16 ∧ 1 ≤ u.syncReads ∧ u.syncReads ≤ 16 ∧
      1 ≤ u.codeLength ∧ u.codeLength ≤ 24 ∧ u.lotStart ≤ 23 ∧ 1 ≤ u.lotLength ∧ u.lotLength ≤ 8 ∧ u.tagStart ≤ 21 ∧
      1 ≤ u.rejectOffset ∧ 1 ≤ u.rejectPulse ∧ 1 ≤ u.confirmWindow) &&
    decide (u.burstK ≤ 32 ∧ 1 ≤ u.burstW ∧ u.burstW ≤ 32 ∧ 1 ≤ u.captureThreshold ∧ u.captureThreshold ≤ 4)

/-- The relations between the fields of the Line Setup record (R190, R85). -/
def LineSetup.related (u : LineSetup) : Bool :=
  decide (u.phase < u.pitch ∧ u.burstK ≤ u.burstW ∧ u.lotStart + u.lotLength ≤ u.codeLength ∧
    u.tagStart + 3 ≤ u.codeLength)

/-- The record that a LINE_SETUP entry gives; none when it fails (R190). -/
def setupOf (b : List Byte) : Option LineSetup :=
  match setupCodes b with
  | none => none
  | some c => if (setupFields b c).inRange && (setupFields b c).related then some (setupFields b c) else none

/-- The Line Setup record as READ_TABLE returns it. -/
def setupBytes (u : LineSetup) : List Byte :=
  [u.coder, u.rejector, u.controller, u.collector, portCode u.coderPort, portCode u.rejectorPort,
    portCode u.controllerPort, portCode u.collectorPort] ++
    beBytes 2 u.statusInterval ++ beBytes 2 u.pitch ++ beBytes 2 u.phase ++ beBytes 2 u.encoderSilence ++
    beBytes 1 u.digitiserSilence ++ beBytes 2 u.beltClearSamples ++ beBytes 3 u.zeroTrackLimit ++
    beBytes 3 u.zeroCaptureLimit ++ beBytes 1 u.valveCount ++ beBytes 1 u.headCount ++ beBytes 2 u.maxAge ++
    beBytes 1 u.lookahead ++ beBytes 1 u.unreadLimit ++ beBytes 1 u.syncReads ++ beBytes 1 u.codeLength ++
    beBytes 1 u.lotStart ++ beBytes 1 u.lotLength ++ beBytes 1 u.tagStart ++ beBytes 1 u.lotGrace ++
    beBytes 3 u.rejectOffset ++ beBytes 2 u.rejectPulse ++ beBytes 2 u.confirmWindow ++ beBytes 1 u.burstK ++
    beBytes 1 u.burstW ++
    [flagByte u.freezeOnLost, flagByte u.freezeOnUnconfirmed, flagByte u.holdTrimOnFreeze, flagByte u.captureWrap] ++
    beBytes 1 u.captureThreshold ++ [flagByte u.upload]

/-! ## POLICY -/

/-- A POLICY entry of a class index: a yes or no, and never no for ORPHAN and NO_WEIGHT (R108). -/
def policyOf (index : Nat) (b : List Byte) : Option Bool :=
  match boolOfCode (byteAt b 0) with
  | none => none
  | some r => if r = false ∧ index ≤ 1 then none else some r

end Sys2Proof.Machine
end

