-- ==== Sys2Proof/Machine/Flags.lean ====
section
/-!
DEFINITION. The condition flags of the device: the status word of Table 11-6, bit by bit as section 12.4 places them, the
flags that are views of other state, and the status frame payload of Table 12-5.
-/

namespace Sys2Proof.Machine

/-- Whether the ALARM pin is driven low: while Line Stop Request is set (R119). -/
def State.alarmLow (s : State) : Bool :=
  s.jr.lineStop

/-- RING_FROZEN: set while the freeze state is ALARM or COMMAND (R172, R173). -/
def State.ringFrozen (s : State) : Bool :=
  s.rc.freeze != .notFrozen

/-- LOAD_ACTIVE: set while the load state is LOADING (Table 11-1). -/
def State.loadActive (s : State) : Bool :=
  s.ma.load.isSome

/-- The status word (Table 11-6; bits of section 12.4; bits 14 and 15 are reserved). -/
def State.statusWord (s : State) : Word16 :=
  BitVec.ofNat 16 (bitsOf [
    s.jr.lineStop,
    (trackingCode s.rm.tracking).testBit 0,
    (trackingCode s.rm.tracking).testBit 1,
    s.te.trimHold,
    s.fe.zeroFault,
    s.fe.weigherSilent,
    s.pos.fault,
    s.rc.captureReady,
    s.ringFrozen,
    s.loadActive,
    s.ma.overrun,
    s.te.attention,
    s.jr.unexpected,
    s.fe.zeroDone])

/-- The last can number: the counter minus one (R78). -/
def State.lastCan (s : State) : Word32 :=
  s.tq.canCounter - 1

/-- The active product field of a status frame: 255 is none (Table 12-5). -/
def State.activeCode (s : State) : Byte :=
  match s.pu.active with
  | none => 255
  | some k => BitVec.ofNat 8 k.val

/-- The contents of a status frame: bytes 2 to 15 of its payload (R191, Table 12-5). -/
def State.statusContents (s : State) : List Byte :=
  beBytes 2 s.statusWord.toNat ++ [s.activeCode, trimModeCode s.te.mode] ++ beBytes 4 s.lastCan.toNat ++
    beBytes 4 s.pos.linePos.toNat ++ beBytes 1 s.tq.queue.length ++ beBytes 1 s.jr.schedule.length

/-- The payload of a status frame (Table 12-5). -/
def State.statusPayload (s : State) : List Byte :=
  [0x80, 0] ++ s.statusContents

end Sys2Proof.Machine
end

