-- ==== Sys2Proof/Machine/Operands.lean ====
section
/-!
DEFINITION. What the device reads from a received frame: the line header (R3, Table 12-2), the match of the Channel
Table (R8), the station payloads (R196, Table 12-3), and the parts of a printed code (R86).
-/

namespace Sys2Proof.Machine

/-! ## The line frame -/

/-- The line frame that an accepted frame of version 1 carries (R3): ethernet type, at least the 8-byte header, version 1,
and a payload length of at most 1,490 that the frame can hold before its FCS. -/
def lineFrame (port : Port) (frame : Frame) : Option Copy :=
  let size := fieldAt frame 20 2
  if fieldAt frame 12 2 = Config.lineType ∧ 26 ≤ frame.length ∧ byteAt frame 14 = 1 ∧ size ≤ 1490 ∧
      size + 26 ≤ frame.length then
    some {
      port := port
      dest := byteAt frame 15
      source := byteAt frame 16
      channel := byteAt frame 17
      sequence := byteAt frame 18
      flags := byteAt frame 19
      payload := bytesAt frame 22 size }
  else
    none

/-- Whether an entry's arrival port admits a port: 2 is ANY (Table 12-1). -/
def arrivalAdmits (code : Byte) (port : Port) : Bool :=
  code == 2 || code == portCode port

/-- Whether a frame matches an entry of the Channel Table: arrival port, source station and channel, the destination
taking no part, and an entry of role NONE matching nothing (R5, R8). -/
def entryMatches (e : ChannelEntry) (c : Copy) : Bool :=
  roleOfCode e.role != .none && arrivalAdmits e.port c.port && e.source == c.source && e.channel == c.channel

/-- The entry of the Channel Table that a frame matches (R8; R6 lets at most one match). -/
def matchEntry (table : Vector ChannelEntry 32) (c : Copy) : Option ChannelEntry :=
  table.toList.find? fun e => entryMatches e c

/-! ## Station payloads (Table 12-3) -/

/-- Whether the payload of a matched frame is malformed for a role: below the minimum, or contradicting its own count
fields (R9, R196). -/
def malformedFor (role : Role) (payload : List Byte) : Bool :=
  let size := payload.length
  match role with
  | .none => false
  | .samples =>
    let count := (byteAt payload 2).toNat
    size < 5 || count < 1 || 16 < count || size < 5 + 3 * count
  | .encoder => size < 2
  | .discharge => size < 3
  | .seam => size < 1
  | .read =>
    let len := (byteAt payload 1).toNat
    size < 2 || 24 < len || size < 2 + len
  | .dose =>
    let count := (byteAt payload 1).toNat
    size < 2 || count < 1 || 24 < count || size < 2 + 2 * count
  | .confirm => false

/-- The place of a role's malformed counter, in role-code order (R9, R197). -/
def malformedIndex : Role → Fin 7
  | .none => 0
  | .samples => 0
  | .encoder => 1
  | .discharge => 2
  | .seam => 3
  | .read => 4
  | .dose => 5
  | .confirm => 6

/-- The count of an ENCODER payload (R22). -/
def encoderCount (payload : List Byte) : Word16 :=
  BitVec.ofNat 16 (fieldAt payload 0 2)

/-- The first sample index of a SAMPLES payload (section 3.2). -/
def sampleFirst (payload : List Byte) : Word16 :=
  BitVec.ofNat 16 (fieldAt payload 0 2)

/-- The sample count of a SAMPLES payload. -/
def sampleCount (payload : List Byte) : Nat :=
  (byteAt payload 2).toNat

/-- The entry mask of a SAMPLES payload. -/
def entryMask (payload : List Byte) : Nat :=
  fieldAt payload 3 2

/-- The samples of a SAMPLES payload, each with its index and whether its bit of the entry mask is set (R34; bits at or
above the sample count are ignored). -/
def samplesOf (payload : List Byte) : List (Word16 × Int × Bool) :=
  (List.range (sampleCount payload)).map fun i =>
    (sampleFirst payload + BitVec.ofNat 16 i, signedAt payload (5 + 3 * i) 3, (entryMask payload).testBit i)

/-- The valve number of a DISCHARGE payload. -/
def dischargeValve (payload : List Byte) : Nat :=
  (byteAt payload 0).toNat

/-- The dose set-point of a DISCHARGE payload. -/
def dischargeSetPoint (payload : List Byte) : Word16 :=
  BitVec.ofNat 16 (fieldAt payload 1 2)

/-- The head of a SEAM payload. -/
def seamHead (payload : List Byte) : Byte :=
  byteAt payload 0

/-- The code text of a READ payload. -/
def readText (payload : List Byte) : List Byte :=
  bytesAt payload 2 (byteAt payload 1).toNat

/-! ## The printed code (section 5.2) -/

/-- One read of the code reader (R86); a TAG read carries its tag and its lot text. -/
inductive CodeRead where
  | noRead
  | null
  | tag (t : Tag) (lot : List Byte)
  deriving DecidableEq, Repr

/-- The value of a tag character, 0 to 9 and A to F in upper case (R86). -/
def hexValue (b : Byte) : Option Nat :=
  let n := b.toNat
  if 0x30 ≤ n ∧ n ≤ 0x39 then some (n - 0x30)
  else if 0x41 ≤ n ∧ n ≤ 0x46 then some (n - 0x41 + 10)
  else none

/-- The tag that three characters give, most significant first (R86). -/
def tagValue (chars : List Byte) : Option Tag :=
  match chars with
  | [x, y, z] =>
    match hexValue x, hexValue y, hexValue z with
    | some a, some b, some c => some (BitVec.ofNat 12 (a * 256 + b * 16 + c))
    | _, _, _ => none
  | _ => none

/-- The null tag, 4,095 (Table 4-1). -/
def nullTag : Tag := 4095

/-- A read frame parsed into one read, and whether it counts as invalid (R86). -/
def parseRead (setup : LineSetup) (payload : List Byte) : CodeRead × Bool :=
  let status := (byteAt payload 0).toNat
  let text := readText payload
  if status = 0 then (.noRead, false)
  else if status ≠ 1 then (.noRead, true)
  else if text.length ≠ setup.codeLength then (.noRead, true)
  else
    match tagValue (bytesAt text setup.tagStart 3) with
    | none => (.noRead, true)
    | some t => if t = nullTag then (.null, false) else (.tag t (bytesAt text setup.lotStart setup.lotLength), false)

end Sys2Proof.Machine
end

