-- ==== Sys2Proof/Machine/Ops.lean ====
section
/-!
DEFINITION. The operations that several steps share: the egress queues and the frames the device inserts (R11 to R14),
status frames (R191), replies and flow frames (R183, R18 to R20), Trim Hold (R133, R134), the freeze of the ring (R172),
the ring and the burst history (R169 to R171), the Tracking State (R97 to R99) and Line Stop Request (R119, R120).
-/

namespace Sys2Proof.Machine

/-! ## Egress (section 1.7) -/

/-- The port's state. -/
def FramePath.port (fp : FramePath) : Port → PortState
  | .a => fp.portA
  | .b => fp.portB

/-- The Frame Path with one port's state replaced. -/
def FramePath.setPort (fp : FramePath) (p : Port) (ps : PortState) : FramePath :=
  match p with
  | .a => { fp with portA := ps }
  | .b => { fp with portB := ps }

/-- The other port. -/
def otherPort : Port → Port
  | .a => .b
  | .b => .a

/-- The queue of a class (Table 1-11). -/
def PortState.queue (ps : PortState) : EgressClass → List Frame
  | .reject => ps.reject
  | .forward => ps.forward
  | .printTag => ps.printTag
  | .reply => ps.reply
  | .status => ps.status
  | .capture => ps.capture

/-- The port with the queue of a class replaced. -/
def PortState.setQueue (ps : PortState) (cls : EgressClass) (q : List Frame) : PortState :=
  match cls with
  | .reject => { ps with reject := q }
  | .forward => { ps with forward := q }
  | .printTag => { ps with printTag := q }
  | .reply => { ps with reply := q }
  | .status => { ps with status := q }
  | .capture => { ps with capture := q }

/-- The capacity of a class (Table 1-11). -/
def classCapacity : EgressClass → Nat
  | .reject => 4
  | .forward => 16
  | .printTag => 4
  | .reply => 4
  | .status => 2
  | .capture => 2

/-- The egress classes in arbitration order (Table 1-11). -/
def egressOrder : List EgressClass :=
  [.reject, .forward, .printTag, .reply, .status, .capture]

/-- The port's dropped counter advanced (R16). -/
def PortState.countDropped (ps : PortState) (n : Nat) : PortState :=
  { ps with counters := { ps.counters with dropped := tally ps.counters.dropped n } }

/-- A frame the device inserts (R11, Table 12-2), padded so that it is at least 64 bytes long (R194), with its FCS. -/
def insertedFrame (station dest channel seq : Byte) (payload : List Byte) : Frame :=
  let head := List.replicate 6 (0xFF : Byte) ++ [0x02, 0, 0, 0, 0, station] ++ beBytes 2 Config.lineType ++
    [1, dest, station, channel, seq, 0] ++ beBytes 2 payload.length ++ payload
  let body := head ++ List.replicate (60 - head.length) (0 : Byte)
  body ++ fcsOf body

/-- The frame that the next inserted frame would be: channel 241 for flow frames and 240 for the rest, with that
channel's send sequence counter (R11). -/
def FramePath.nextFrame (fp : FramePath) (flow : Bool) (dest : Byte) (payload : List Byte) : Frame :=
  if flow then insertedFrame fp.station dest (BitVec.ofNat 8 Config.flowChannel) fp.seqFlow payload
  else insertedFrame fp.station dest (BitVec.ofNat 8 Config.mgmtChannel) fp.seqMgmt payload

/-- The send sequence counter of the channel advanced by one (R11). -/
def FramePath.takeNumber (fp : FramePath) (flow : Bool) : FramePath :=
  if flow then { fp with seqFlow := fp.seqFlow + 1 } else { fp with seqMgmt := fp.seqMgmt + 1 }

/-- A built frame joins the tail of its class and takes its number (R11, R14). -/
def FramePath.join (fp : FramePath) (cls : EgressClass) (p : Port) (flow : Bool) (dest : Byte) (payload : List Byte) :
    FramePath :=
  let ps := fp.port p
  (fp.takeNumber flow).setPort p (ps.setQueue cls (ps.queue cls ++ [fp.nextFrame flow dest payload]))

/-- Whether a class of a port takes an offer: the link is up and the queue has room (R2, R14). -/
def PortState.accepts (ps : PortState) (cls : EgressClass) : Bool :=
  ps.linkUp && decide ((ps.queue cls).length < classCapacity cls)

/-- An offer to an insertion queue and whether it succeeded. A refused REJECT, PRINT_TAG or REPLY offer is counted as
dropped; a CAPTURE offer that waits is not (R14). STATUS offers are `offerStatus`. -/
def FramePath.offer (fp : FramePath) (cls : EgressClass) (p : Port) (flow : Bool) (dest : Byte) (payload : List Byte) :
    FramePath × Bool :=
  if (fp.port p).accepts cls then (fp.join cls p flow dest payload, true)
  else if cls = .capture then (fp, false)
  else (fp.setPort p ((fp.port p).countDropped 1), false)

/-- An offer to the STATUS queue: a full queue loses its oldest frame, a port whose link is down loses the new one, and
either loss is counted as dropped (R14). -/
def FramePath.offerStatus (fp : FramePath) (p : Port) (dest : Byte) (payload : List Byte) : FramePath :=
  let ps := fp.port p
  if ps.linkUp then
    if ps.status.length < classCapacity .status then fp.join .status p false dest payload
    else (fp.setPort p ({ ps with status := ps.status.drop 1 }.countDropped 1)).join .status p false dest payload
  else fp.setPort p (ps.countDropped 1)

/-- An accepted frame that is not consumed is offered to the FORWARD queue of the opposite port (R2). -/
def FramePath.forward (fp : FramePath) (arrival : Port) (frame : Frame) : FramePath :=
  let p := otherPort arrival
  let ps := fp.port p
  if ps.accepts .forward then fp.setPort p { ps with forward := ps.forward ++ [frame] }
  else fp.setPort p (ps.countDropped 1)

/-- The state with its Frame Path replaced. -/
def State.withFp (s : State) (fp : FramePath) : State :=
  { s with fp := fp }

/-- The oldest copy handed to a block of a role and not yet taken, and the state without it (R8, log 6). -/
def State.takeHanded (s : State) (role : Role) : Option (Copy × State) :=
  match s.fp.handed.find? fun h => h.1 == role with
  | none => none
  | some h => some (h.2, s.withFp { s.fp with handed := removeFirst (fun h => h.1 == role) s.fp.handed })

/-- The block of a role takes its oldest handed copy; without one nothing changes (log 8). -/
def onHanded (role : Role) (f : Copy → State → State) (s : State) : State :=
  match s.takeHanded role with
  | none => s
  | some h => f h.1 h.2

/-! ## Status frames (section 11.5) -/

/-- A status frame is built from the state as it stands and offered to the controller port; none is built while the
controller station is 255 (R191). -/
def buildStatus (s : State) : State :=
  if s.ma.setup.controller = 255 then s
  else s.withFp (s.fp.offerStatus s.ma.setup.controllerPort s.ma.setup.controller s.statusPayload)

/-- The change from `old` to `new`, with a status frame built when it changes the status word (R191). -/
def report (old new : State) : State :=
  if new.statusWord = old.statusWord then new else buildStatus new

/-! ## Replies and flow frames -/

/-- The outcome of a command: its status, the entry index it names and its data (R183). -/
structure Reply where
  status : ReplyStatus := .ok
  index : Nat := 0
  data : List Byte := []
  deriving DecidableEq, Repr

/-- The reply payload (section 12.4): command code and request tag as received, status, entry index, data. -/
def replyPayload (command : Copy) (r : Reply) : List Byte :=
  [byteAt command.payload 0, byteAt command.payload 1, replyCode r.status, 0] ++ beBytes 2 r.index ++
    beBytes 2 r.data.length ++ r.data

/-- The execution of a command ends: its reply is offered to the REPLY queue of its arrival port, addressed to its source
station, and a refused reply is discarded (R12, R14, R182, R183). -/
def finish (command : Copy) (r : Reply) (s : State) : State :=
  { s with
    fp := (s.fp.offer .reply command.port false command.source (replyPayload command r)).1
    ma := { s.ma with executing := none } }

/-- A flow frame of a kind, 1 HOLD or 2 RELEASE, offered to the REPLY queue of a port (R12, R18, R19, Table 12-3). -/
def FramePath.offerFlow (fp : FramePath) (kind : Byte) (station : Byte) (p : Port) : FramePath :=
  (fp.offer .reply p true station [kind]).1

/-- A RELEASE is offered to every held station, oldest first, and the set is emptied (R19, R20). -/
def FramePath.releaseHeld (fp : FramePath) : FramePath :=
  { fp.held.foldl (fun f h => f.offerFlow 2 h.1 h.2) fp with held := [] }

/-! ## Trim Hold (section 7.2) -/

/-- The valve is AUTO and below the valve count (R129, R135). -/
def State.isAuto (s : State) (v : Fin Config.valves) : Bool :=
  decide (v.val < s.ma.setup.valveCount) && s.te.table[v].mode == .auto

/-- The Valve Statistics records with `f` applied to each. -/
def State.mapValves (s : State) (f : Fin Config.valves → ValveRecord → ValveRecord) : State :=
  { s with te := { s.te with valves := Vector.ofFn fun v => f v s.te.valves[v] } }

/-- Collection starts anew: n and e_avg become 0. -/
def ValveRecord.restart (r : ValveRecord) : ValveRecord :=
  { r with n := 0, eAvg := 0 }

/-- The collection of every AUTO valve restarts (R131, R134). -/
def restartCollection (s : State) : State :=
  s.mapValves fun v r => if s.isAuto v then r.restart else r

/-- The conditions of Trim Hold (R133). -/
def State.holdsTrim (s : State) : Bool :=
  s.te.mode == .auto &&
    (s.rm.tracking != .synced || (s.rc.freeze == .alarm && s.ma.setup.holdTrimOnFreeze) || s.pu.active.isNone)

/-- TRIM_HOLD is evaluated afresh: a change is reported (R133), and the end of Trim Hold while the Trim Mode remains AUTO
restarts collection (R134). -/
def evalTrimHold (s : State) : State :=
  let hold := s.holdsTrim
  if hold = s.te.trimHold then s
  else
    let t := report s { s with te := { s.te with trimHold := hold } }
    if hold = false ∧ t.te.mode = .auto then restartCollection t else t

/-- VALVE_ATTENTION is evaluated afresh: set while a valve is in FAULT (R139). -/
def evalAttention (s : State) : State :=
  report s { s with te := { s.te with attention := s.te.valves.toList.any fun r => r.state == .fault } }

/-- A clear request for the valves that `p` picks: E becomes absent and the epoch advances (R154). -/
def clearRequests (p : Fin Config.valves → Bool) (s : State) : State :=
  { s with rw := { s.rw with
      expected := Vector.ofFn fun v => if p v then none else s.rw.expected[v]
      epoch := Vector.ofFn fun v => if p v then s.rw.epoch[v] + 1 else s.rw.epoch[v] } }

/-! ## The ring (sections 10.1 and 10.2) -/

/-- Whether a freeze condition is of the alarm kind (R172). -/
def FreezeCause.isAlarm : FreezeCause → Bool
  | .command => false
  | .burst | .lost | .unconfirmed => true

/-- A freeze condition that acts is applied according to the freeze state (R172). -/
def freezeRing (cause : FreezeCause) (s : State) : State :=
  match s.rc.freeze with
  | .notFrozen =>
    let kind := if cause.isAlarm then FreezeState.alarm else FreezeState.command
    evalTrimHold (report s { s with rc := { s.rc with freeze := kind, cause := some cause } })
  | .command =>
    if cause.isAlarm then evalTrimHold { s with rc := { s.rc with freeze := .alarm, cause := some cause } } else s
  | .alarm => s

/-- A formed ring entry is written at the newest end, unless the ring is frozen (R170). -/
def writeRing (e : RingEntry) (s : State) : State :=
  if s.rc.freeze = .notFrozen then
    { s with rc := { s.rc with ring := pushBounded Config.ringCapacity s.rc.ring e } }
  else s

/-- Whether the newest W outcomes hold K weight rejects or more; K = 0 turns the test off (R171). -/
def isBurst (setup : LineSetup) (history : List Bool) : Bool :=
  setup.burstK != 0 &&
    decide (setup.burstK ≤ ((history.drop (history.length - setup.burstW)).filter id).length)

/-- The outcome of a JUDGED entry joins the burst history, and the burst test is made (R171). -/
def noteOutcome (weightReject : Bool) (s : State) : State :=
  let t := { s with rc := { s.rc with burst := pushBounded Config.ringCapacity s.rc.burst weightReject } }
  if isBurst t.ma.setup t.rc.burst then freezeRing .burst t else t

/-- The entry of a record removed MISSING or FLUSHED (R169). -/
def removalEntry (r : CanRecord) (fate : Fate) (linePos : Word32) : RingEntry :=
  { number := some r.number, product := some r.product, valve := r.valve, head := r.head, tag := r.tag
    readResult := r.readResult, gross := none, net := none, cls := none, fate := fate
    short := false, gap := false, late := false, settled := r.settled, scheduled := false, linePos := linePos }

/-- Records that left the queue together are handed to the ring, oldest first (R61, R169, R170). -/
def handRemoved (fate : Fate) (linePos : Word32) (records : List CanRecord) (s : State) : State :=
  records.foldl (fun t r => writeRing (removalEntry r fate linePos) t) s

/-- Records removed MISSING: counted and handed to the ring (R61). -/
def handMissing (linePos : Word32) (records : List CanRecord) (s : State) : State :=
  handRemoved .missing linePos records
    { s with tq := { s.tq with counters := { s.tq.counters with
        missing := tally s.tq.counters.missing records.length } } }

/-! ## The Tracking State (section 5.6) -/

/-- The Tracking State becomes `st`. A change is reported to the Management Agent, to the Trim Engine and, for LOST, to
the ring (R99, R133, R172), in that order (DESIGN CHOICE, unsafe, log 15). -/
def setTracking (st : TrackingState) (s : State) : State :=
  if s.rm.tracking = st then s
  else
    let t := evalTrimHold (report s { s with rm := { s.rm with tracking := st } })
    if st = .lost ∧ t.ma.setup.freezeOnLost then freezeRing .lost t else t

/-- A sequence restart or an orphan seam: the clean run becomes 0, and SYNCED becomes LOST (R97, R98). -/
def breakTracking (s : State) : State :=
  let t := { s with rm := { s.rm with cleanRun := 0 } }
  if t.rm.tracking = .synced then setTracking .lost t else t

/-- A flush or a TRACKING reset: both runs become 0 and the state NOT_SYNCED (R97, R98). -/
def loseQueue (s : State) : State :=
  setTracking .notSynced { s with rm := { s.rm with cleanRun := 0, unreadRun := 0 } }

/-- The state with the run that has risen and is still to be compared with its limit replaced. -/
def State.withRisen (s : State) (r : Option Run) : State :=
  { s with rm := { s.rm with risen := r } }

/-- A clean run that has risen is compared: at or above sync reads while the state is not SYNCED it makes it SYNCED (R98).
Without an increase there is no comparison (R98, R100). -/
def becomeSynced (s : State) : State :=
  if s.rm.risen = some .clean then
    let t := s.withRisen none
    if t.rm.tracking ≠ .synced ∧ t.ma.setup.syncReads ≤ t.rm.cleanRun then setTracking .synced t else t
  else s

/-- An unread run that has risen is compared: at or above the unread limit while the state is SYNCED it makes it LOST (R98).
Without an increase there is no comparison (R98, R100). -/
def becomeLost (s : State) : State :=
  if s.rm.risen = some .unread then
    let t := s.withRisen none
    if t.rm.tracking = .synced ∧ t.ma.setup.unreadLimit ≤ t.rm.unreadRun then setTracking .lost t else t
  else s

/-! ## Line Stop Request (section 6.7) -/

/-- Line Stop Request is raised; a rise is reported (R119). -/
def raiseLineStop (s : State) : State :=
  report s { s with jr := { s.jr with lineStop := true } }

/-- Line Stop Request is raised when ENCODER_FAULT stands over a non-empty Reject Schedule (R120). -/
def raiseForFault (s : State) : State :=
  if s.pos.fault && !s.jr.schedule.isEmpty then raiseLineStop s else s

/-! ## Products -/

/-- The record of the active product (R162). -/
def State.activeProduct (s : State) : Option Product :=
  match s.pu.active with
  | none => none
  | some k => s.pu.table[k]

/-- A trim held within the trim limits of a product, or 0 without one (R128, R136, R146). -/
def clampTrim (p : Option Product) (t : Int) : Int :=
  match p with
  | none => 0
  | some p => max p.trimMin (min t p.trimMax)

end Sys2Proof.Machine
end

