-- ==== Sys2Proof/Machine/Trim.lean ====
section
/-!
DEFINITION. The Trim Engine (07_valve_statistics_and_dose_trim.md): the follow check (R137 to R139), feeding and the trim
decision (R140 to R145), what a Valve Table entry does to its record (R128, R129), product selection (R146).
-/

namespace Sys2Proof.Machine

/-- A judged can as Judgement hands it on (R103 step 5). -/
structure Judged where
  record : CanRecord
  result : WindowResult
  net : Option Int
  cls : CanClass
  rejected : Bool
  scheduled : Bool
  late : Bool
  deriving DecidableEq, Repr

/-- The state with one Valve Statistics record replaced. -/
def State.setValve (s : State) (v : Fin Config.valves) (r : ValveRecord) : State :=
  { s with te := { s.te with valves := s.te.valves.set v.val r v.isLt } }

/-- The valve waits in SETTLING or averages in COLLECTING. -/
def ValveRecord.follows (r : ValveRecord) : Bool :=
  r.state == .settling || r.state == .collecting

/-! ## The follow check (section 7.4) -/

/-- An AUTO valve whose unsettled run has reached 32 becomes FAULT, its average is dropped, and VALVE_ATTENTION is
evaluated afresh (R139). -/
def enterFault (v : Fin Config.valves) (s : State) : State :=
  let r := s.te.valves[v]
  if s.isAuto v && r.follows && decide (Config.unsettledLimit ≤ r.unsettledRun) then
    evalAttention (s.setValve v { r.restart with state := .fault })
  else s

/-- A settled discharge: the unsettled run becomes 0, and a valve in SETTLING becomes COLLECTING with n and e_avg 0
(R137). -/
def ValveRecord.settle (r : ValveRecord) : ValveRecord :=
  let t := { r with unsettledRun := 0 }
  if r.state = .settling then { t.restart with state := .collecting } else t

/-- The discharge of an admitted can of a valve reaches the Trim Engine with its settled stamp and whether E was present
at the stamping (R137). -/
def followDischarge (v : Fin Config.valves) (settled present : Bool) (s : State) : State :=
  let r := s.te.valves[v]
  if s.te.mode != .off && s.isAuto v && r.follows then
    if settled then s.setValve v r.settle
    else if present then enterFault v (s.setValve v { r with unsettledRun := r.unsettledRun + 1 })
    else s
  else s

/-- A set-point change reported by the Rewriter: an AUTO valve in SETTLING or COLLECTING becomes SETTLING with n and e_avg
0 (R138). -/
def setPointChanged (v : Fin Config.valves) (s : State) : State :=
  let r := s.te.valves[v]
  if s.isAuto v && r.follows then s.setValve v { r.restart with state := .settling } else s

/-! ## Feeding and deciding (sections 7.5 and 7.6) -/

/-- A record fed with a can's net weight (R142). -/
def fedRecord (p : Product) (net : Int) (r : ValveRecord) : ValveRecord :=
  let n := min (r.n + 1) 65535
  let err16 := 16 * (net - p.target)
  { r with n := n, eAvg := if n = 1 then err16 else r.eAvg + roundDiv (err16 - r.eAvg) (2 ^ p.k) }

/-- The step magnitude of a decision, at most max step (R144 steps 1 and 2). -/
def stepMagnitude (p : Product) (eAvg : Int) : Int :=
  min (roundDiv ((eAvg.natAbs : Int) * p.g * 2) p.gq) p.maxStep

/-- The trim decision after an update, and whether a clear request goes to the Rewriter (R143 to R145). -/
def trimDecision (p : Product) (can : Word32) (r : ValveRecord) : ValveRecord × Bool :=
  if r.n < p.nMin then (r, false)
  else if r.eAvg.natAbs ≤ 16 * p.deadband then ({ r with limit := false }, false)
  else
    let magnitude := stepMagnitude p r.eAvg
    if magnitude = 0 then ({ r with limit := false }, false)
    else
      let candidate := if 0 < r.eAvg then r.trim - magnitude else r.trim + magnitude
      let trim := max p.trimMin (min candidate p.trimMax)
      if trim = r.trim then ({ r.restart with limit := true }, false)
      else
        ({ r.restart with
            trim := trim
            state := .settling
            trimChanges := tally r.trimChanges 1
            lastChange := some can
            limit := decide (candidate < p.trimMin ∨ p.trimMax < candidate) }, true)

/-- Whether a class is fed (R141 condition 5). -/
def CanClass.fed : CanClass → Bool
  | .ok | .low | .high => true
  | .orphan | .noWeight | .zeroFault | .unstable | .mismatch | .unread | .rejLow | .rejHigh | .unverified => false

/-- The seven conditions under which a judged can is fed to the statistics of valve `v` (R141). -/
def State.feeds (s : State) (v : Fin Config.valves) (j : Judged) : Bool :=
  s.te.mode == .auto && !s.te.trimHold && s.te.valves[v].state == .collecting && j.record.settled &&
    j.record.epoch == s.rw.epoch[v] && j.cls.fed && !j.result.short && s.pu.active == some j.record.product

/-- A judged can is counted for its valve (R140). -/
def countJudged (v : Fin Config.valves) (j : Judged) (s : State) : State :=
  let r := s.te.valves[v]
  s.setValve v { r with
    weighed := tally r.weighed 1
    rejected := if j.rejected then tally r.rejected 1 else r.rejected }

/-- A can is fed and the valve decided (R142 to R145); a changed trim sends a clear request (R154). -/
def feedValve (v : Fin Config.valves) (p : Product) (net : Int) (can : Word32) (s : State) : State :=
  let d := trimDecision p can (fedRecord p net s.te.valves[v])
  let t := s.setValve v d.1
  if d.2 then clearRequests (fun u => u == v) t else t

/-- A judged can with a valve present reaches the Trim Engine: it is counted, and fed and decided where every condition
holds (R140, R141). -/
def weighValve (j : Judged) (s : State) : State :=
  match j.record.valve with
  | none => s
  | some v =>
    let t := countJudged v j s
    match t.activeProduct, j.net with
    | some p, some net => if t.feeds v j then feedValve v p net j.record.number t else t
    | _, _ => t

/-! ## Modes, entries and selection -/

/-- A record that starts over: n, e_avg and unsettled run 0, LIMIT clear. -/
def ValveRecord.afresh (r : ValveRecord) : ValveRecord :=
  { r.restart with unsettledRun := 0, limit := false }

/-- The record that a changed Valve Table entry gives a valve below the valve count (R128). -/
def entryRecord (e : ValveEntry) (active : Option Product) (r : ValveRecord) : ValveRecord :=
  match e.mode with
  | .auto => { r.afresh with state := .settling }
  | .fixed => { r.afresh with state := .fixed, trim := clampTrim active e.fixedTrim }
  | .excluded => { r.afresh with state := .excluded, trim := 0 }

/-- Whether a committed entry takes effect on the record of a valve below the valve count (R128, "Applies when"). -/
def entryApplies (old new : ValveEntry) (r : ValveRecord) : Bool :=
  let changed := old.mode != new.mode || old.fixedTrim != new.fixedTrim
  match new.mode with
  | .auto => changed || r.state == .fault
  | .fixed => changed
  | .excluded => old.mode != new.mode

/-- An accepted VALVE commit acts on the records of its load range and sends the clear requests of the valves it leaves or
makes AUTO; VALVE_ATTENTION is evaluated afresh (R128, R154). The capture countdowns of the range are reloaded and its
valves disarmed (R174). `old` is the table before the commit; the state holds the new one. -/
def applyValveCommit (old : Vector ValveEntry Config.valves) (first count : Nat) (s : State) : State :=
  let inRange := fun v : Fin Config.valves => decide (first ≤ v.val ∧ v.val < first + count)
  let acts := fun v : Fin Config.valves =>
    inRange v && decide (v.val < s.ma.setup.valveCount) && entryApplies old[v] s.te.table[v] s.te.valves[v]
  let t := s.mapValves fun v r =>
    let r := if acts v then entryRecord s.te.table[v] s.activeProduct r else r
    if inRange v then { r with countdown := s.te.table[v].captureInterval, armed := false } else r
  evalAttention (clearRequests (fun v => acts v && s.te.table[v].mode == .auto) t)

/-- A Line Setup commit that changed the valve count from `old`: valves now at or above the count become EXCLUDED, valves
newly below it take the mode of their entry, an EXCLUDED entry changing nothing; VALVE_ATTENTION is evaluated afresh (R129). The state holds the new
count. -/
def applyValveCount (old : Nat) (s : State) : State :=
  let new := s.ma.setup.valveCount
  if old = new then s
  else
    let leaves := fun v : Fin Config.valves => decide (v.val < old ∧ new ≤ v.val)
    let joins := fun v : Fin Config.valves => decide (old ≤ v.val ∧ v.val < new) && s.te.table[v].mode != .excluded
    let t := s.mapValves fun v r =>
      if leaves v then { r.afresh with state := .excluded, trim := 0 }
      else if joins v then entryRecord s.te.table[v] s.activeProduct r
      else r
    evalAttention (clearRequests (fun v => joins v && s.te.table[v].mode == .auto) t)

/-- A product selection reaches the Trim Engine (R146): AUTO valves below the valve count start over from trim 0 with a
clear request, FIXED ones are clamped afresh, EXCLUDED ones are unchanged. VALVE_ATTENTION and Trim Hold are evaluated
afresh, in that order (DESIGN CHOICE, unsafe, log 31). A selection of none sends the clear requests too, by R146 and R154
against R156 (DESIGN CHOICE, unsafe, log 32). The state holds the new active product. -/
def applySelection (s : State) : State :=
  let t := s.mapValves fun v r =>
    if v.val < s.ma.setup.valveCount then
      match s.te.table[v].mode with
      | .auto => { r.afresh with state := .settling, trim := 0 }
      | .fixed => { r with trim := clampTrim s.activeProduct s.te.table[v].fixedTrim }
      | .excluded => r
    else r
  evalTrimHold (evalAttention (clearRequests (fun v => s.isAuto v) t))

/-- The Trim Mode becomes `mode` with its effect on the AUTO valves, and Trim Hold is evaluated afresh (R131, R133). -/
def setTrimMode (mode : TrimMode) (s : State) : State :=
  if s.te.mode = mode then s
  else
    let t := { s with te := { s.te with mode := mode } }
    let u :=
      match s.te.mode, mode with
      | .off, _ => t.mapValves fun v r =>
          if t.isAuto v && r.state != .fault then
            { r.restart with state := .settling, unsettledRun := 0 }
          else r
      | .hold, .auto => restartCollection t
      | _, _ => t
    evalTrimHold u

/-- TRIM_CONTROL RELEASE_VALVE of a valve in FAULT: SETTLING afresh with a clear request (R132). -/
def releaseFault (v : Fin Config.valves) (s : State) : State :=
  let r := s.te.valves[v]
  if r.state = .fault then
    evalAttention (clearRequests (fun u => u == v) (s.setValve v { r.afresh with state := .settling }))
  else s

end Sys2Proof.Machine
end

