-- ==== Sys2Proof/Machine/Ring.lean ====
section
/-!
DEFINITION. Ring and Capture (10_recent_can_ring_and_window_capture.md): capture arming and the Capture Store (R174 to
R176), the upload engine and its segments (R177, section 12.4), the ring entries of judged cans (R169).
-/

namespace Sys2Proof.Machine

/-- The slot holds a STORED capture. -/
def Slot.isStored : Slot → Bool
  | .stored _ => true
  | .empty | .uploading _ => false

/-- CAPTURE_READY is evaluated afresh: set while at least the threshold of slots are STORED (R176). -/
def evalCaptureReady (s : State) : State :=
  report s { s with rc := { s.rc with
    captureReady := decide (s.ma.setup.captureThreshold ≤ (s.rc.slots.toList.filter Slot.isStored).length) } }

/-- The lowest-numbered EMPTY slot (R175). -/
def RingCapture.emptySlot (rc : RingCapture) : Option (Fin 4) :=
  ([0, 1, 2, 3] : List (Fin 4)).find? fun i => rc.slots[i] == .empty

/-- The slot of the oldest STORED capture (R175, R177). -/
def RingCapture.oldestStored (rc : RingCapture) : Option (Fin 4) :=
  rc.order.find? fun i => rc.slots[i].isStored

/-- A capture of a judged can (Table 10-3). -/
def captureOf (number : Word16) (j : Judged) : Capture :=
  { captureNumber := number, record := j.record, cls := j.cls, net := j.net, late := j.late, scheduled := j.scheduled
    result := j.result }

/-- A capture is put into a slot as the newest one: it takes the current capture number, which advances (R175). -/
def putCapture (i : Fin 4) (j : Judged) (s : State) : State :=
  evalCaptureReady { s with rc := { s.rc with
    slots := s.rc.slots.set i.val (.stored (captureOf s.rc.captureNumber j)) i.isLt
    order := s.rc.order.filter (fun k => k != i) ++ [i]
    captureNumber := s.rc.captureNumber + 1
    counters := { s.rc.counters with stored := tally s.rc.counters.stored 1 } } }

/-- A can of an armed valve is captured by the capture mode; the answer says whether it was stored (R175). -/
def storeCapture (j : Judged) (s : State) : State × Bool :=
  match s.rc.emptySlot with
  | some i => (putCapture i j s, true)
  | none =>
    let missed := { s with rc := { s.rc with counters := { s.rc.counters with missed := tally s.rc.counters.missed 1 } } }
    if s.ma.setup.captureWrap then
      match s.rc.oldestStored with
      | some i =>
        (putCapture i j { s with rc := { s.rc with
          counters := { s.rc.counters with overwritten := tally s.rc.counters.overwritten 1 } } }, true)
      | none => (missed, false)
    else (missed, false)

/-- A countdown that stands at 0 with capture on arms its valve and is reloaded (R174). -/
def armValve (v : Fin Config.valves) (s : State) : State :=
  let r := s.te.valves[v]
  let interval := s.te.table[v].captureInterval
  if interval ≠ 0 ∧ r.countdown = 0 then s.setValve v { r with armed := true, countdown := interval } else s

/-- Step 1 of R174: an armed valve's can is captured, and a stored capture disarms the valve. -/
def captureArmed (v : Fin Config.valves) (j : Judged) (s : State) : State :=
  if s.te.valves[v].armed then
    let c := storeCapture j s
    if c.2 then c.1.setValve v { c.1.te.valves[v] with armed := false } else c.1
  else s

/-- A judged can with a valve present whose capture interval is not 0 (R174). -/
def captureJudged (j : Judged) (s : State) : State :=
  match j.record.valve with
  | none => s
  | some v =>
    if s.te.table[v].captureInterval = 0 then s
    else
      let t := captureArmed v j s
      let r := t.te.valves[v]
      armValve v (t.setValve v { r with countdown := r.countdown - 1 })

/-! ## Ring entries of judged cans (R169) -/

/-- The entry of a record removed JUDGED. -/
def judgedEntry (j : Judged) (linePos : Word32) : RingEntry :=
  { removalEntry j.record .judged linePos with
    gross := j.result.gross, net := j.net, cls := some j.cls, short := j.result.short, gap := j.result.gap
    late := j.late, scheduled := j.scheduled }

/-- The entry of an orphan judgement. -/
def orphanEntry (w : WindowResult) (scheduled late : Bool) (linePos : Word32) : RingEntry :=
  { number := none, product := none, valve := none, head := none, tag := none, readResult := none
    gross := w.gross, net := none, cls := some .orphan, fate := .judged, short := w.short, gap := w.gap, late := late
    settled := false, scheduled := scheduled, linePos := linePos }

/-- Whether a class is a weight reject for the burst history (R171). -/
def CanClass.isWeightReject : CanClass → Bool
  | .rejLow | .rejHigh => true
  | .orphan | .noWeight | .zeroFault | .unstable | .mismatch | .unread | .unverified | .low | .high | .ok => false

/-- An entry of fate JUDGED is formed: written unless the ring is frozen, then its outcome joins the burst history (R170,
R171). -/
def handJudged (e : RingEntry) (cls : CanClass) (s : State) : State :=
  noteOutcome cls.isWeightReject (writeRing e s)

/-! ## Upload (section 10.5) -/

/-- The number of segments of a capture: its samples divided by 64, rounded up, at least 1 (R177). -/
def segmentCount (c : Capture) : Nat :=
  max 1 ((c.result.samples.length + Config.segmentSamples - 1) / Config.segmentSamples)

/-- The upload engine starts an upload when its four conditions hold (R177). -/
def startUpload (s : State) : State :=
  if s.rc.engine = .idle ∧ s.ma.setup.upload = true ∧ s.ma.setup.collector ≠ 255 then
    match s.rc.oldestStored with
    | none => s
    | some i =>
      match s.rc.slots[i] with
      | .stored c =>
        evalCaptureReady { s with rc := { s.rc with
          slots := s.rc.slots.set i.val (.uploading c) i.isLt
          engine := .uploading i 0 (segmentCount c) } }
      | .empty | .uploading _ => s
  else s

/-- An optional number as bytes, 0 when absent (R194, "Optional fields"). -/
def optBytes {w : Nat} (n : Nat) (x : Option (BitVec w)) : List Byte :=
  beBytes n (match x with | none => 0 | some v => v.toNat)

/-- An optional weight as four bytes, 0 when absent. -/
def optWeight (x : Option Int) : List Byte :=
  beSigned 4 (x.getD 0)

/-- An optional valve as one byte, 0 when absent. -/
def optValve (x : Option (Fin Config.valves)) : List Byte :=
  beBytes 1 (match x with | none => 0 | some v => v.val)

/-- An optional read result as one byte, 0 when absent. -/
def optRead (x : Option ReadResult) : List Byte :=
  [match x with | none => 0 | some r => readResultCode r]

/-- The 40-byte capture header (section 12.4). The product of a record is always present. -/
def captureHeader (c : Capture) : List Byte :=
  let r := c.record
  let w := c.result
  beBytes 4 r.number.toNat ++ beBytes 1 r.product.val ++ optValve r.valve ++ optBytes 1 r.head ++ optBytes 2 r.tag ++
    optRead r.readResult ++ optBytes 2 r.setPoint ++ beBytes 2 r.epoch.toNat ++ beBytes 1 (classIndex c.cls).val ++
    optWeight c.net ++ optWeight w.gross ++
    beBytes 2 (bitsOf [w.short, w.gap, w.unstable, w.silent, w.uncalibrated, w.zeroFault, c.late, r.settled, c.scheduled]) ++
    beBytes 2 (bitsOf [true, true, r.valve.isSome, r.head.isSome, r.tag.isSome, r.readResult.isSome, r.setPoint.isSome,
      c.net.isSome, w.gross.isSome]) ++
    beBytes 2 w.entryIndex.toNat ++ beBytes 4 w.entryPos.toNat ++ beBytes 1 w.count ++ beBytes 3 w.rawRange ++
    beBytes 2 w.samples.length ++ [0]

/-- The payload of segment `i` of a capture of `count` segments (R177, section 12.4). -/
def segmentPayload (c : Capture) (i count : Nat) : List Byte :=
  let samples := (c.result.samples.drop (Config.segmentSamples * i)).take Config.segmentSamples
  [0x83, 0] ++ beBytes 2 c.captureNumber.toNat ++ beBytes 1 i ++ beBytes 1 count ++
    (if i = 0 then captureHeader c else []) ++ samples.flatMap (beSigned 3)

/-- A slot becomes EMPTY and leaves the capture time order. -/
def RingCapture.emptyAt (rc : RingCapture) (i : Fin 4) : RingCapture :=
  { rc with slots := rc.slots.set i.val .empty i.isLt, order := rc.order.filter (fun k => k != i) }

/-- The last segment of an upload was accepted: the slot becomes EMPTY, the upload is counted, the engine becomes IDLE
and starts the next upload at once when the conditions hold (R177). -/
def completeUpload (i : Fin 4) (s : State) : State :=
  let rc := s.rc.emptyAt i
  startUpload (evalCaptureReady { s with rc := { rc with
    engine := .idle
    counters := { rc.counters with completed := tally rc.counters.completed 1 } } })

/-- The engine produces its next segment when its slot is UPLOADING and the Hold is clear, and offers it to the CAPTURE
queue of the collector port; a refused offer produces nothing (R177, R14). -/
def produceSegment (s : State) : State :=
  match s.rc.engine with
  | .idle => s
  | .uploading i next count =>
    match s.rc.slots[i] with
    | .uploading c =>
      if s.fp.holdStanding then s
      else
        let o := s.fp.offer .capture s.ma.setup.collectorPort false s.ma.setup.collector (segmentPayload c next count)
        if o.2 then
          let t := { s with fp := o.1 }
          if next + 1 < count then { t with rc := { t.rc with engine := .uploading i (next + 1) count } }
          else completeUpload i t
        else s
    | .empty | .stored _ => s

/-- A collector change abandons an upload in progress: the slot becomes STORED again in its place, the engine becomes
IDLE and the abandonment is counted (R178, R180). -/
def abandonUpload (s : State) : State :=
  match s.rc.engine with
  | .idle => s
  | .uploading i _ _ =>
    let slot :=
      match s.rc.slots[i] with
      | .uploading c => Slot.stored c
      | .empty => .empty
      | .stored c => .stored c
    evalCaptureReady { s with rc := { s.rc with
      slots := s.rc.slots.set i.val slot i.isLt
      engine := .idle
      counters := { s.rc.counters with abandoned := tally s.rc.counters.abandoned 1 } } }

/-- The ring is thawed: the freeze state, the cause and the burst history are cleared, the contents stand (R173). -/
def thawRing (s : State) : State :=
  if s.rc.freeze = .notFrozen then s
  else evalTrimHold (report s { s with rc := { s.rc with freeze := .notFrozen, cause := none, burst := [] } })

/-- CAPTURE_DISCARD: every STORED slot becomes EMPTY, an upload continues, CAPTURE_READY is evaluated afresh (R178). -/
def discardCaptures (s : State) : State :=
  evalCaptureReady { s with rc := { s.rc with
    slots := Vector.ofFn fun i => if s.rc.slots[i].isStored then .empty else s.rc.slots[i]
    order := s.rc.order.filter fun i => !s.rc.slots[i].isStored } }

/-- A CAPTURE reset acts on Ring and Capture (R179): the ring and the burst history are emptied, the freeze ends, the
upload stops and every slot becomes EMPTY. An upload ended so is counted as abandoned (R180). -/
def resetCaptureState (s : State) : State :=
  let t := evalTrimHold (report s { s with rc := { s.rc with
    ring := [], burst := [], freeze := .notFrozen, cause := none } })
  evalCaptureReady { t with rc := { t.rc with
    engine := .idle
    slots := Vector.replicate 4 .empty
    order := []
    counters := if t.rc.engine = .idle then t.rc.counters
      else { t.rc.counters with abandoned := tally t.rc.counters.abandoned 1 } } }

end Sys2Proof.Machine
end

