-- ==== Sys2Proof/Machine/Judgement.lean ====
section
/-!
DEFINITION. The Judgement and Reject Unit (06_judgement_and_rejection.md): classes and net weight (R103 to R106, R109),
the Reject Schedule (R110 to R112), firing and timing out (R113 to R115, R118) and confirms (R116, R117).
-/

namespace Sys2Proof.Machine

/-! ## Judging (section 6.1) -/

/-- The net weight of a can: the gross minus the tare of the record's product, held at the lower end of the range (R104). -/
def netWeight (p : Option Product) (w : WindowResult) : Option Int :=
  match p, w.gross with
  | some p, some g => some (clampWeight (g - p.tare))
  | _, _ => none

/-- The class of a can judged with a record: the first of Table 6-2 whose condition holds (R105). In a state that no run
reaches the record's slot may be empty: the can then has no usable weight (DESIGN CHOICE, safe, log 18). -/
def classOf (p : Option Product) (tracking : TrackingState) (read : Option ReadResult) (w : WindowResult) : CanClass :=
  match p, netWeight p w with
  | some p, some net =>
    if w.count < p.minSamples then .noWeight
    else if w.zeroFault then .zeroFault
    else if w.unstable || w.gap then .unstable
    else if read = some .mismatch then .mismatch
    else if read = some .unread then .unread
    else if net < p.rejectLow then .rejLow
    else if p.rejectHigh < net then .rejHigh
    else if tracking ≠ .synced then .unverified
    else if net < p.warnLow then .low
    else if p.warnHigh < net then .high
    else .ok
  | _, _ => .noWeight

/-- Whether the Reject Policy in force rejects a class (R107). -/
def State.rejects (s : State) (cls : CanClass) : Bool :=
  s.jr.policy[classIndex cls]

/-- A judgement is counted: its class, and the reject total when the policy rejects the class (R109). -/
def countClass (cls : CanClass) (s : State) : State :=
  let i := classIndex cls
  { s with jr := { s.jr with
      classes := s.jr.classes.set i.val (tally s.jr.classes[i] 1) i.isLt
      rejectTotal := if s.rejects cls then tally s.jr.rejectTotal 1 else s.jr.rejectTotal } }

/-! ## The Reject Schedule (section 6.4) -/

/-- The state with its Reject Schedule replaced. -/
def State.withSchedule (s : State) (l : List RejectEntry) : State :=
  { s with jr := { s.jr with schedule := l } }

/-- The state with its reject counters replaced. -/
def State.withRejectCounters (s : State) (c : RejectCounters) : State :=
  { s with jr := { s.jr with counters := c } }

/-- The fire position: the first pitch boundary of the working grid at or after the sum of entry position and reject
offset; past the wrap of Line Position it is the phase (R111). -/
def firePosition (pos : Position) (offset : Nat) (entryPos : Word32) : Word32 :=
  let sum := entryPos + BitVec.ofNat 32 offset
  let residue := (((sum.toNat : Int) - pos.phase) % pos.pitch).toNat
  if residue = 0 then sum
  else if sum.toNat + (pos.pitch - residue) < 2 ^ 32 then BitVec.ofNat 32 (sum.toNat + (pos.pitch - residue))
  else BitVec.ofNat 32 pos.phase

/-- An entry placed in fire-position order, after every entry with its position or an earlier one (R110). -/
def insertEntry (e : RejectEntry) : List RejectEntry → List RejectEntry
  | [] => [e]
  | x :: rest => if isBefore e.firePos x.firePos then e :: x :: rest else x :: insertEntry e rest

/-- A can is REJECT_LOST: counted, and Line Stop Request raised (R115). The caller removes its entry. -/
def loseReject (s : State) : State :=
  raiseLineStop (s.withRejectCounters { s.jr.counters with lost := tally s.jr.counters.lost 1 })

/-- The payload of a reject command (R114, Table 12-3). -/
def rejectPayload (number : Option Word32) (cls : CanClass) (pulse : Nat) : List Byte :=
  [(0x82 : Byte)] ++ beBytes 1 (classIndex cls).val ++ beBytes 2 pulse ++
    beBytes 4 (match number with | none => 4294967295 | some n => n.toNat)

/-- A reject command is built and offered to the REJECT queue of the rejector port; the answer says whether it joined.
None is built while the rejector station is 255 (R114 steps 1 to 3). -/
def offerReject (number : Option Word32) (cls : CanClass) (s : State) : State × Bool :=
  if s.ma.setup.rejector = 255 then (s, false)
  else
    let o := s.fp.offer .reject s.ma.setup.rejectorPort false s.ma.setup.rejector
      (rejectPayload number cls s.ma.setup.rejectPulse)
    (s.withFp o.1, o.2)

/-- The confirm deadline of an entry that fires: its fire position plus the confirm window (R114 step 4). -/
def State.deadline (s : State) (firePos : Word32) : Word32 :=
  firePos + BitVec.ofNat 32 s.ma.setup.confirmWindow

/-- The rejects fired counter advanced (R114, R122). -/
def countFired (s : State) : State :=
  s.withRejectCounters { s.jr.counters with fired := tally s.jr.counters.fired 1 }

/-- The first entry that satisfies `p` fires: it becomes FIRED with its deadline, or is removed as REJECT_LOST (R114,
R115). -/
def fireFirst (p : RejectEntry → Bool) (s : State) : State :=
  match s.jr.schedule.find? p with
  | none => s
  | some e =>
    let o := offerReject e.number e.cls s
    if o.2 then
      countFired (o.1.withSchedule (updateFirst p
        (fun x => { x with fired := true, deadline := some (o.1.deadline x.firePos) }) o.1.jr.schedule))
    else loseReject (o.1.withSchedule (removeFirst p o.1.jr.schedule))

/-- The first entry that satisfies `p` has met its confirm deadline: it is removed REJECT_UNCONFIRMED, counted, Line Stop
Request is raised and the ring told (R118, R172), in that order (DESIGN CHOICE, unsafe, log 39). -/
def timeoutFirst (p : RejectEntry → Bool) (s : State) : State :=
  match s.jr.schedule.find? p with
  | none => s
  | some _ =>
    let t := s.withSchedule (removeFirst p s.jr.schedule)
    let u := raiseLineStop (t.withRejectCounters { t.jr.counters with unconfirmed := tally t.jr.counters.unconfirmed 1 })
    if u.ma.setup.freezeOnUnconfirmed then freezeRing .unconfirmed u else u

/-- Line Stop Request is raised while ENCODER_FAULT stands, after an entry was scheduled (R112, R120). -/
def raiseAfterScheduling (s : State) : State :=
  if s.pos.fault then raiseLineStop s else s

/-- The outcome of a scheduling: whether an entry stands, and whether it was made LATE (R103 step 5). -/
structure Scheduled where
  state : State
  joined : Bool
  late : Bool

/-- A LATE entry: its fire position is the current Line Position and it fires at once (R112 step 4, R114). -/
def scheduleLate (number : Option Word32) (cls : CanClass) (s : State) : Scheduled :=
  let t := s.withRejectCounters { s.jr.counters with late := tally s.jr.counters.late 1 }
  let o := offerReject number cls t
  if o.2 then
    let e : RejectEntry := { number := number, cls := cls, firePos := s.pos.linePos, fired := true,
                             deadline := some (s.deadline s.pos.linePos), late := true }
    { state := raiseAfterScheduling (countFired (o.1.withSchedule (insertEntry e o.1.jr.schedule)))
      joined := true, late := true }
  else { state := raiseAfterScheduling (loseReject o.1), joined := false, late := true }

/-- A can judged into a rejected class is scheduled (R112). A fire position exactly 2^31 counts away, which R112 gives
neither case, is not yet reached (DESIGN CHOICE, unsafe, log 34). -/
def scheduleReject (number : Option Word32) (cls : CanClass) (entryPos : Word32) (s : State) : Scheduled :=
  if Config.scheduleCapacity ≤ s.jr.schedule.length then { state := loseReject s, joined := false, late := false }
  else
    let fire := firePosition s.pos s.ma.setup.rejectOffset entryPos
    if atOrAfter s.pos.linePos fire then scheduleLate number cls s
    else
      let e : RejectEntry := { number := number, cls := cls, firePos := fire, fired := false, deadline := none, late := false }
      { state := raiseAfterScheduling (s.withSchedule (insertEntry e s.jr.schedule)), joined := true, late := false }

/-- The reject of a class, if the policy asks for one (R103 step 4). -/
def rejectIfAsked (number : Option Word32) (cls : CanClass) (entryPos : Word32) (s : State) : Scheduled :=
  if s.rejects cls then scheduleReject number cls entryPos s else { state := s, joined := false, late := false }

/-- The class of a can whose Window Result has been attached, by the product fixed at its discharge and the Tracking
State of the moment (R103, R105). -/
def State.classFor (s : State) (r : CanRecord) (w : WindowResult) : CanClass :=
  classOf s.pu.table[r.product] s.rm.tracking r.readResult w

/-- A can with a record is judged (R103 steps 1 to 4); what step 5 hands on. -/
def judgeRecord (r : CanRecord) (w : WindowResult) (s : State) : State × Judged :=
  let cls := s.classFor r w
  let o := rejectIfAsked (some r.number) cls w.entryPos (countClass cls s)
  (o.state, { record := r, result := w, net := netWeight s.pu.table[r.product] w, cls := cls
              rejected := s.rejects cls, scheduled := o.joined, late := o.late })

/-- Step 5 of R103: the judged can is handed to the Trim Engine and to Ring and Capture. They act on different state
(DESIGN CHOICE for the order, safe, log 22). -/
def handOn (j : Judged) (s : State) : State :=
  captureJudged j (weighValve j s)

/-- A Window Result without a record is judged ORPHAN (R106) and handed to Ring and Capture (R169). -/
def judgeOrphan (w : WindowResult) (s : State) : State :=
  let o := rejectIfAsked none .orphan w.entryPos (countClass .orphan s)
  handJudged (orphanEntry w o.joined o.late o.state.pos.linePos) .orphan o.state

/-! ## Advance events (section 6.5) -/

/-- Whether a position is reached by an advance of `d` counts from `l` (R24, R113). -/
def reachedBy (l : Word32) (d : Nat) (x : Word32) : Bool :=
  decide (1 ≤ (x - l).toNat ∧ (x - l).toNat ≤ d)

/-- When an entry acts within an advance: twice the distance of its fire position while PENDING, twice the distance of its
deadline plus one while FIRED, so that a fire comes before a timeout at the same position (log 21). -/
def dueKey (l : Word32) (d : Nat) (e : RejectEntry) : Option Nat :=
  if e.fired then
    match e.deadline with
    | none => none
    | some x => if reachedBy l d x then some (2 * (x - l).toNat + 1) else none
  else if reachedBy l d e.firePos then some (2 * (e.firePos - l).toNat) else none

/-- The earliest due key of a schedule. -/
def earliestDue (l : Word32) (d : Nat) (schedule : List RejectEntry) : Option Nat :=
  (schedule.filterMap (dueKey l d)).min?

/-- The next due entry of an advance acts: it fires or it times out (R113, R118). -/
def advanceOnce (l : Word32) (d key : Nat) (s : State) : State :=
  if key % 2 = 0 then fireFirst (fun e => dueKey l d e == some key) s
  else timeoutFirst (fun e => dueKey l d e == some key) s

/-- The due entries act one after the other, at most `fuel` of them. -/
def advanceRun (l : Word32) (d : Nat) : Nat → State → State
  | 0, s => s
  | fuel + 1, s =>
    match earliestDue l d s.jr.schedule with
    | none => s
    | some key => advanceRun l d fuel (advanceOnce l d key s)

/-- An advance event from `l` to `l + d` (R113): every entry acts at most twice, once to fire and once to time out. -/
def advance (l : Word32) (d : Nat) (s : State) : State :=
  advanceRun l d (2 * s.jr.schedule.length) s

/-! ## Confirms (section 6.6) -/

/-- The oldest FIRED entries, up to `m` of them, are removed as confirmed, and counted as lost confirms (R116). -/
def confirmLost : Nat → State → State
  | 0, s => s
  | m + 1, s =>
    if s.jr.schedule.any (fun e => e.fired) then
      let t := s.withSchedule (removeFirst (fun e => e.fired) s.jr.schedule)
      confirmLost m (t.withRejectCounters { t.jr.counters with lostConfirms := tally t.jr.counters.lostConfirms 1 })
    else s

/-- The gap of a confirm frame is handled and the expectation follows it (R116). -/
def confirmGap (seq : Byte) (s : State) : State :=
  let t :=
    match s.jr.confirmExp with
    | none => s
    | some e =>
      let m := seqGap seq e
      if m = 0 then s
      else if m ≤ Config.largestGap then confirmLost m s
      else s.withRejectCounters { s.jr.counters with restarts := tally s.jr.counters.restarts 1 }
  { t with jr := { t.jr with confirmExp := some (seq + 1) } }

/-- The frame's own confirm removes the oldest FIRED entry, or is an unexpected reject (R117). -/
def confirmOwn (s : State) : State :=
  if s.jr.schedule.any (fun e => e.fired) then
    let t := s.withSchedule (removeFirst (fun e => e.fired) s.jr.schedule)
    t.withRejectCounters { t.jr.counters with confirms := tally t.jr.counters.confirms 1 }
  else
    let t := s.withRejectCounters { s.jr.counters with unexpected := tally s.jr.counters.unexpected 1 }
    report t { t with jr := { t.jr with unexpected := true } }

end Sys2Proof.Machine
end

