-- ==== Sys2Proof/Machine/Tracking.lean ====
section
/-!
DEFINITION. The Tracking Queue (04_the_can_tracking_queue.md): discharges (R63 to R68), seams and tags (R69 to R73), ageing
(R74, R75) and weigh assignment (R76, R77); with the stamping of a discharge by the Rewriter (R155).
-/

namespace Sys2Proof.Machine

/-- The state with its records replaced. -/
def State.withQueue (s : State) (q : List CanRecord) : State :=
  { s with tq := { s.tq with queue := q } }

/-- The state with its tracking counters replaced. -/
def State.withTrackingCounters (s : State) (c : TrackingCounters) : State :=
  { s with tq := { s.tq with counters := c } }

/-! ## Removal of the whole queue -/

/-- Every record is removed FLUSHED, oldest first, counted and handed to the ring (R61, R68 steps 1 and 2, R81 step 1). -/
def flushRecords (s : State) : State :=
  let t := s.withQueue []
  handRemoved .flushed s.pos.linePos s.tq.queue
    (t.withTrackingCounters { t.tq.counters with flushed := tally t.tq.counters.flushed s.tq.queue.length })

/-- A full queue is flushed before a record is created (R68). -/
def overflowFlush (s : State) : State :=
  let t := flushRecords s
  loseQueue (t.withTrackingCounters { t.tq.counters with flushEvents := tally t.tq.counters.flushEvents 1 })

/-- The queue has room for one more record: it is flushed first when it holds 128 (R59, R68). -/
def makeRoom (s : State) : State :=
  if s.tq.queue.length < Config.queueCapacity then s else overflowFlush s

/-! ## Discharge (section 4.2) -/

/-- What a new record takes from its source (R64, R66, R67). -/
structure RecordSeed where
  valve : Option (Fin Config.valves)
  setPoint : Option Word16
  settled : Bool
  epoch : Word16
  placeholder : Bool
  valveRange : Bool
  deriving DecidableEq, Repr

/-- A record is created at the tail with the next can number (R67), the queue flushed first when it is full (R68). -/
def createRecord (product : Fin 16) (seed : RecordSeed) (s : State) : State :=
  let t := makeRoom s
  let r : CanRecord :=
    { number := t.tq.canCounter, product := product, valve := seed.valve, setPoint := seed.setPoint
      settled := seed.settled, epoch := seed.epoch, dischargePos := t.pos.linePos
      placeholder := seed.placeholder, valveRange := seed.valveRange }
  { t with tq := { t.tq with
      queue := t.tq.queue ++ [r]
      canCounter := t.tq.canCounter + 1
      counters := { t.tq.counters with created := tally t.tq.counters.created 1 } } }

/-- The seed of a placeholder (R58, R64). -/
def placeholderSeed : RecordSeed :=
  { valve := none, setPoint := none, settled := false, epoch := 0, placeholder := true, valveRange := false }

/-- `m` placeholders are created in turn and counted (R64). -/
def createPlaceholders (product : Fin 16) : Nat → State → State
  | 0, s => s
  | m + 1, s =>
    let t := createRecord product placeholderSeed s
    createPlaceholders product m
      (t.withTrackingCounters { t.tq.counters with placeholders := tally t.tq.counters.placeholders 1 })

/-- The valve of a discharge when it is below the valve count and at most 95 (R58, R67). -/
def State.valveInRange (s : State) (v : Nat) : Option (Fin Config.valves) :=
  if h : v < Config.valves then
    if v < s.ma.setup.valveCount then some ⟨v, h⟩ else none
  else none

/-- Whether the Rewriter stamps a discharge of valve `v` at `setPoint` settled (R155). -/
def State.stampSettled (s : State) (v : Fin Config.valves) (setPoint : Word16) : Bool :=
  s.rw.expected[v] == some setPoint

/-- The frame's own discharge while a product is active: its record is created, stamped, and the discharge handed on to
the Trim Engine when its valve is in range (R67, R155, R137). -/
def admitDischarge (product : Fin 16) (v : Nat) (setPoint : Word16) (s : State) : State :=
  match s.valveInRange v with
  | none =>
    createRecord product
      { valve := none, setPoint := some setPoint, settled := false, epoch := 0, placeholder := false, valveRange := true } s
  | some w =>
    let settled := s.stampSettled w setPoint
    let t := createRecord product
      { valve := some w, setPoint := some setPoint, settled := settled, epoch := s.rw.epoch[w], placeholder := false
        valveRange := false } s
    followDischarge w settled s.rw.expected[w].isSome t

/-- The gap of a discharge frame: placeholders while a product is active (R64, R66), or a sequence restart (R65). -/
def dischargeGap (seq : Byte) (s : State) : State :=
  match s.tq.dischargeExp with
  | none => s
  | some e =>
    let m := seqGap seq e
    if m = 0 then s
    else if m ≤ Config.largestGap then
      match s.pu.active with
      | none => s
      | some k => createPlaceholders k m s
    else breakTracking s

/-- A discharge frame is taken (R63): its gap, the expectation, and its own discharge, unadmitted while no product is
active (R66). -/
def takeDischarge (c : Copy) (s : State) : State :=
  let t := dischargeGap c.sequence s
  let u := { t with tq := { t.tq with dischargeExp := some (c.sequence + 1) } }
  match u.pu.active with
  | none => u.withTrackingCounters { u.tq.counters with unadmitted := tally u.tq.counters.unadmitted 1 }
  | some k => admitDischarge k (dischargeValve c.payload) (dischargeSetPoint c.payload) u

/-! ## Seam and tags (section 4.3) -/

/-- The record is FILLED. -/
def CanRecord.isFilled (r : CanRecord) : Bool := r.stage == .filled
/-- The record is CODED. -/
def CanRecord.isCoded (r : CanRecord) : Bool := r.stage == .coded
/-- The record is PASSED_READER. -/
def CanRecord.isPassed (r : CanRecord) : Bool := r.stage == .passed

/-- `m` lost seams: the oldest FILLED records become CODED with the null tag and no head; the answer says how many seams
found no FILLED record (R69). -/
def codeLostSeams : Nat → List CanRecord → List CanRecord × Nat
  | 0, q => (q, 0)
  | m + 1, q =>
    if q.any CanRecord.isFilled then
      codeLostSeams m (updateFirst CanRecord.isFilled
        (fun r => { r with stage := .coded, head := none, tag := some nullTag }) q)
    else (q, m + 1)

/-- Orphan seams are counted, and one orphan seam is reported to the Reader Matcher (R69, R73, R98). -/
def orphanSeams (n : Nat) (s : State) : State :=
  breakTracking (s.withTrackingCounters { s.tq.counters with orphanSeams := tally s.tq.counters.orphanSeams n })

/-- The gap of a seam frame (R69, R70). -/
def seamGap (seq : Byte) (s : State) : State :=
  match s.tq.seamExp with
  | none => s
  | some e =>
    let m := seqGap seq e
    if m = 0 then s
    else if m ≤ Config.largestGap then
      let c := codeLostSeams m s.tq.queue
      let t := s.withQueue c.1
      if c.2 = 0 then t else orphanSeams c.2 t
    else breakTracking s

/-- The tag counter advanced: from 4,094 it wraps to 0 (R72, R79). -/
def nextTag (t : Tag) : Tag :=
  if t = 4094 then 0 else t + 1

/-- The payload of a print-tag frame (R72, Table 12-3). -/
def printTagPayload (tag : Tag) (number : Word32) : List Byte :=
  [0x81, 0] ++ beBytes 2 tag.toNat ++ beBytes 4 number.toNat

/-- A tag is issued: the print-tag frame is offered unless no coder is configured, and the record's tag is the counter's
value, or the null tag when the offer is refused (R72 steps 1 to 5). -/
def issueTag (number : Word32) (s : State) : State × Tag :=
  let tag := s.tq.tagCounter
  let t := { s with tq := { s.tq with tagCounter := nextTag tag } }
  if s.ma.setup.coder = 255 then (t, tag)
  else
    let o := t.fp.offer .printTag t.ma.setup.coderPort false t.ma.setup.coder (printTagPayload tag number)
    (t.withFp o.1, if o.2 then tag else nullTag)

/-- The frame's own seam is assigned to the oldest FILLED record, or is an orphan seam (R71, R73). -/
def seamOwn (head : Byte) (s : State) : State :=
  match s.tq.queue.find? CanRecord.isFilled with
  | none => orphanSeams 1 s
  | some r =>
    let o := issueTag r.number s
    o.1.withQueue (updateFirst CanRecord.isFilled
      (fun x => { x with stage := .coded, head := some head, tag := some o.2
                         headRange := decide (s.ma.setup.headCount ≤ head.toNat) }) o.1.tq.queue)

/-- A seam frame is taken (R69 to R73). -/
def takeSeam (c : Copy) (s : State) : State :=
  let t := seamGap c.sequence s
  seamOwn (seamHead c.payload) { t with tq := { t.tq with seamExp := some (c.sequence + 1) } }

/-! ## Ageing (section 4.4) -/

/-- Every age raised by one, held at 1,023 (R74). -/
def ageRecords (q : List CanRecord) : List CanRecord :=
  q.map fun r => { r with age := min (r.age + 1) 1023 }

/-- The ages are raised at the pitch tick of a boundary (R74); the removal of R75 is still to be made. -/
def raiseAges (boundary : Word32) (s : State) : State :=
  { s with tq := { s.tq with queue := ageRecords s.tq.queue, ticked := some boundary } }

/-- At a pitch tick that has raised the ages every record older than the max age is removed MISSING, oldest first (R75). Without
such a tick no record is removed (R75, log 38). -/
def removeAged (s : State) : State :=
  match s.tq.ticked with
  | none => s
  | some boundary =>
    handMissing boundary (s.tq.queue.filter fun r => decide (s.ma.setup.maxAge < r.age))
      { s with tq := { s.tq with
          queue := s.tq.queue.filter fun r => !decide (s.ma.setup.maxAge < r.age), ticked := none } }

/-- One pitch tick at a boundary (R74, R75). -/
def pitchTick (boundary : Word32) (s : State) : State :=
  removeAged (raiseAges boundary s)

/-! ## Weigh assignment (section 4.5) -/

/-- A Window Result is attached to the oldest PASSED_READER record, which is judged, handed on, removed JUDGED and written
to the ring (R76). -/
def assignWeigh (r : CanRecord) (w : WindowResult) (s : State) : State :=
  let attach := fun x : CanRecord => { x with result := some w }
  let t := s.withQueue (updateFirst CanRecord.isPassed attach s.tq.queue)
  let o := judgeRecord (attach r) w t
  let u := handOn o.2 o.1
  handJudged (judgedEntry o.2 u.pos.linePos) o.2.cls (u.withQueue (removeFirst CanRecord.isPassed u.tq.queue))

/-- A Window Result that finds no PASSED_READER record is an orphan weigh (R77). -/
def orphanWeigh (w : WindowResult) (s : State) : State :=
  judgeOrphan w (s.withTrackingCounters { s.tq.counters with orphanWeighs := tally s.tq.counters.orphanWeighs 1 })

/-- A Window Result reaches the Tracking Queue (R76, R77). -/
def takeResult (w : WindowResult) (s : State) : State :=
  match s.tq.queue.find? CanRecord.isPassed with
  | none => orphanWeigh w s
  | some r => assignWeigh r w s

end Sys2Proof.Machine
end

