-- ==== Sys2Proof/Machine/Rewriter.lean ====
section
/-!
DEFINITION. The Rewriter (08_dose_frame_rewriting.md): a dose frame processed in place (R150 to R153).
-/

namespace Sys2Proof.Machine

/-- The state with its Rewriter replaced. -/
def State.withRw (s : State) (rw : Rewriter) : State :=
  { s with rw := rw }

/-- A base plus trim held within the dose limits (R151 steps 1 and 2). -/
def doseOut (p : Product) (base : Nat) (trim : Int) : Nat :=
  let sum := (base : Int) + trim
  if sum < p.doseMin then p.doseMin else if p.doseMax < sum then p.doseMax else sum.toNat

/-- Whether the sum was held at a dose limit (R151 step 3). -/
def doseClamped (p : Product) (base : Nat) (trim : Int) : Bool :=
  let sum := (base : Int) + trim
  decide (sum < p.doseMin ∨ (p.doseMax : Int) < sum)

/-- A written value is compared with E: a new one becomes E, advances the epoch, is counted and reported to the Trim
Engine (R153, R138). -/
def noteWritten (v : Fin Config.valves) (out : Word16) (s : State) : State :=
  if s.rw.expected[v] = some out then s
  else
    setPointChanged v (s.withRw {
      expected := s.rw.expected.set v.val (some out) v.isLt
      epoch := s.rw.epoch.set v.val (s.rw.epoch[v] + 1) v.isLt
      counters := { s.rw.counters with changes := tally s.rw.counters.changes 1 } })

/-- The valve of a dose entry when the Rewriter writes it: at most 95, below the valve count and not EXCLUDED (R151). -/
def State.writtenValve (s : State) (v : Nat) : Option (Fin Config.valves) :=
  match s.valveInRange v with
  | none => none
  | some w => if s.te.valves[w].state = .excluded then none else some w

/-- The clamps counter advanced for an entry held at a dose limit (R151 step 3, R157). -/
def countClamp (clamped : Bool) (s : State) : State :=
  if clamped then
    s.withRw { s.rw with counters := { s.rw.counters with clamps := tally s.rw.counters.clamps 1 } }
  else s

/-- A dose frame in the course of its processing: the state, the frame as altered so far, whether an entry was written. -/
structure Rewrite where
  state : State
  frame : Frame
  written : Bool

/-- The offset in the frame of the i-th set-point of a dose frame (Tables 12-2 and 12-3). -/
def doseOffset (i : Nat) : Nat :=
  24 + 2 * i

/-- The i-th entry of a dose frame, processed in full (R151). -/
def rewriteEntry (p : Product) (first : Nat) (r : Rewrite) (i : Nat) : Rewrite :=
  match r.state.writtenValve (first + i) with
  | none => r
  | some v =>
    let base := fieldAt r.frame (doseOffset i) 2
    let trim := r.state.te.valves[v].trim
    let out := doseOut p base trim
    { state := noteWritten v (BitVec.ofNat 16 out) (countClamp (doseClamped p base trim) r.state)
      frame := overwriteAt r.frame (doseOffset i) (beBytes 2 out)
      written := true }

/-- A frame with a written entry: TRIMMED set in the flags byte and the FCS recomputed (R152). -/
def completeDose (frame : Frame) : Frame :=
  withFcs (overwriteAt frame 19 [byteAt frame 19 ||| 1])

/-- The frames rewritten counter advanced (R152, R157). -/
def countRewritten (s : State) : State :=
  s.withRw { s.rw with counters := { s.rw.counters with framesRewritten := tally s.rw.counters.framesRewritten 1 } }

/-- The entries of a dose frame in frame order (R151), and the frame completed when one was written (R152). -/
def rewriteEntries (p : Product) (payload : List Byte) (frame : Frame) (s : State) : State × Frame :=
  let r := (List.range (byteAt payload 1).toNat).foldl (rewriteEntry p (byteAt payload 0).toNat)
    { state := s, frame := frame, written := false }
  if r.written then (countRewritten r.state, completeDose r.frame) else (r.state, r.frame)

/-- A well-formed dose frame is processed in place under the Trim Mode and the active product of the moment (R150). -/
def rewriteDose (payload : List Byte) (frame : Frame) (s : State) : State × Frame :=
  if s.te.mode = .off then (s, frame)
  else
    match s.activeProduct with
    | none => (s, frame)
    | some p => rewriteEntries p payload frame s

end Sys2Proof.Machine
end

