-- ==== Sys2Proof/Machine/FrameIn.lean ====
section
/-!
DEFINITION. The Frame Path (01_line_frames_and_forwarding.md): reception and classification (R1 to R10), the intake and
its held stations (R18, R182), flow frames (R17), egress (R13) and the links (R15); with the rows of the opcode table that
these are.
-/

namespace Sys2Proof.Machine

/-- The counters of one port changed. -/
def FramePath.countPort (fp : FramePath) (p : Port) (f : PortCounters → PortCounters) : FramePath :=
  fp.setPort p { fp.port p with counters := f (fp.port p).counters }

/-- Frames received (R16). -/
def PortCounters.addReceived (c : PortCounters) : PortCounters :=
  { c with received := tally c.received 1 }

/-- Bad FCS (R16). -/
def PortCounters.addBadFcs (c : PortCounters) : PortCounters :=
  { c with badFcs := tally c.badFcs 1 }

/-- Length (R16). -/
def PortCounters.addBadLength (c : PortCounters) : PortCounters :=
  { c with badLength := tally c.badLength 1 }

/-- Frames forwarded or frames inserted, by the class a completed frame came from (R13, R16). -/
def PortCounters.addSent (c : PortCounters) (cls : EgressClass) : PortCounters :=
  if cls = .forward then { c with forwarded := tally c.forwarded 1 } else { c with inserted := tally c.inserted 1 }

/-! ## Intake (R18, R182) -/

/-- A frame offered to the intake FIFO joins its tail, or is lost to a full FIFO with INTAKE_OVERRUN (R182). -/
def joinIntake (c : Copy) (s : State) : State :=
  if s.ma.fifo.length < Config.intakeCapacity then { s with ma := { s.ma with fifo := s.ma.fifo ++ [c] } }
  else
    report s { s with ma := { s.ma with
      overrun := true
      counters := { s.ma.counters with overruns := tally s.ma.counters.overruns 1 } } }

/-- Whether a station is in the held-station set. -/
def FramePath.isHeld (fp : FramePath) (station : Byte) : Bool :=
  fp.held.any fun h => h.1 == station

/-- The intake hysteresis after an arrival: at 6 frames or more a new station joins the held-station set, and a HOLD is
offered to it (R18). -/
def holdArrival (c : Copy) (s : State) : State :=
  if Config.holdOccupancy ≤ s.ma.fifo.length ∧ s.fp.isHeld c.source = false ∧
      s.fp.held.length < Config.heldCapacity then
    s.withFp (({ s.fp with held := s.fp.held ++ [(c.source, c.port)] } : FramePath).offerFlow 1 c.source c.port)
  else s

/-- A management frame reaches the intake (R7, R182, R18). -/
def offerIntake (c : Copy) (s : State) : State :=
  holdArrival c (joinIntake c s)

/-! ## Flow frames obeyed (R17) -/

/-- A HOLD of the collector: the Hold stands and its timer restarts. -/
def standHold (s : State) : State :=
  s.withFp { s.fp with holdStanding := true, holdTimer := some Config.holdTime }

/-- The Hold becomes clear and its timer stops. -/
def clearHold (s : State) : State :=
  s.withFp { s.fp with holdStanding := false, holdTimer := none }

/-- A flow frame addressed to the device (R17): obeyed from the collector only; with the collector none, from no station
(DESIGN CHOICE, safe, log 20). -/
def takeFlow (c : Copy) (s : State) : State :=
  if s.ma.setup.collector ≠ 255 ∧ c.source = s.ma.setup.collector then
    match c.payload.head? with
    | some kind => if kind = 1 then standHold s else if kind = 2 then clearHold s else s
    | none => s
  else s

/-! ## Classification (section 1.5) -/

/-- The accepted frame is offered to the FORWARD queue of the opposite port (R2). -/
def forwardFrame (arrival : Port) (frame : Frame) (s : State) : State :=
  s.withFp (s.fp.forward arrival frame)

/-- A frame is forwarded unless its entry says consume (R8, R9). -/
def forwardUnless (consume : Bool) (arrival : Port) (frame : Frame) (s : State) : State :=
  if consume then s else forwardFrame arrival frame s

/-- The malformed counter of a role advanced (R9). -/
def countMalformed (role : Role) (s : State) : State :=
  let i := malformedIndex role
  s.withFp { s.fp with malformed := s.fp.malformed.set i.val (tally s.fp.malformed[i] 1) i.isLt }

/-- A copy is handed to the block of a role (R8). -/
def handCopy (role : Role) (c : Copy) (s : State) : State :=
  s.withFp { s.fp with handed := s.fp.handed ++ [(role, c)] }

/-- A frame that matches an entry of the Channel Table (R8 to R10). -/
def matchedFrame (e : ChannelEntry) (c : Copy) (frame : Frame) (s : State) : State :=
  let role := roleOfCode e.role
  if malformedFor role c.payload then
    forwardUnless (role != .dose && e.consume == 1) c.port frame (countMalformed role s)
  else if role = .dose then
    let r := rewriteDose c.payload frame s
    forwardFrame c.port r.2 r.1
  else forwardUnless (e.consume == 1) c.port frame (handCopy role c s)

/-- A line frame on a channel 0 to 239 (R8). -/
def stationFrame (c : Copy) (frame : Frame) (s : State) : State :=
  match matchEntry s.fp.channels c with
  | none => forwardFrame c.port frame s
  | some e => matchedFrame e c frame s

/-- A line frame on channel 240 (R7). -/
def mgmtFrame (c : Copy) (frame : Frame) (s : State) : State :=
  if c.dest = s.fp.station then offerIntake c s
  else if c.dest.toNat = Config.broadcast ∧ c.payload.head? = some 1 then forwardFrame c.port frame (offerIntake c s)
  else forwardFrame c.port frame s

/-- A line frame on channel 241 (R7). -/
def flowFrame (c : Copy) (frame : Frame) (s : State) : State :=
  if c.dest = s.fp.station then takeFlow c s else forwardFrame c.port frame s

/-- A line frame of version 1 is classified (R3, R7, R8). The channels 242 to 255, of which the spec says nothing, are
forwarded untouched (DESIGN CHOICE, unsafe, log 10). -/
def classifyFrame (c : Copy) (frame : Frame) (s : State) : State :=
  if c.source = s.fp.station then forwardFrame c.port frame s
  else if c.channel.toNat < Config.mgmtChannel then stationFrame c frame s
  else if c.channel.toNat = Config.mgmtChannel then mgmtFrame c frame s
  else if c.channel.toNat = Config.flowChannel then flowFrame c frame s
  else forwardFrame c.port frame s

/-- An accepted frame (R2, R3). -/
def acceptFrame (port : Port) (frame : Frame) (s : State) : State :=
  match lineFrame port frame with
  | none => forwardFrame port frame s
  | some c => classifyFrame c frame s

/-- Whether the length of a frame, destination address through FCS, is within its limits (R1). -/
def lengthOk (frame : Frame) : Bool :=
  decide (64 ≤ frame.length ∧ frame.length ≤ 1518)

/-- The reception of a frame completes: counted, checked, and accepted or discarded (R1). -/
def receiveFrame (port : Port) (whole : Bool) (frame : Frame) (s : State) : State :=
  let t := s.withFp (s.fp.countPort port .addReceived)
  if !(whole && fcsOk frame) then t.withFp (t.fp.countPort port .addBadFcs)
  else if !lengthOk frame then t.withFp (t.fp.countPort port .addBadLength)
  else acceptFrame port frame t

/-! ## Egress (R13) -/

/-- The first non-empty class of a port in arbitration order (R13, Table 1-11). -/
def PortState.firstClass (ps : PortState) : Option EgressClass :=
  egressOrder.find? fun cls => !(ps.queue cls).isEmpty

/-- The arbiter takes the oldest frame of the first non-empty class and starts its transmission (R13). -/
def PortState.start (ps : PortState) : PortState :=
  if ps.linkUp && ps.transmitting.isNone then
    match ps.firstClass with
    | none => ps
    | some cls =>
      match ps.queue cls with
      | [] => ps
      | frame :: rest => { ps.setQueue cls rest with transmitting := some (cls, frame) }
  else ps

/-- A transmission completes: counted by its class, and the transmitter is idle (R13, R16). -/
def PortState.complete (ps : PortState) : PortState :=
  match ps.transmitting with
  | none => ps
  | some t => { ps with transmitting := none, counters := ps.counters.addSent t.1 }

/-! ## Links (R15) -/

/-- The frames that a port loses with its link: all its queues and the frame in transmission. -/
def PortState.held (ps : PortState) : Nat :=
  ps.reject.length + ps.forward.length + ps.printTag.length + ps.reply.length + ps.status.length +
    ps.capture.length + ps.transmitting.toList.length

/-- A link goes down: queues and transmission are discarded and counted as dropped (R15). -/
def PortState.lose (ps : PortState) : PortState :=
  { linkUp := false, counters := (ps.countDropped ps.held).counters }

/-- A frame cut short by the loss of the link is received and fails (R1; counted as received too, DEDUCED, log 11). -/
def cutFrame (port : Port) (arriving : Bool) (s : State) : State :=
  if arriving then s.withFp (s.fp.countPort port fun c => c.addReceived.addBadFcs) else s

/-- The link of a port goes down; a link that is down already does not change (R15). -/
def linkLost (port : Port) (arriving : Bool) (s : State) : State :=
  if (s.fp.port port).linkUp then
    let t := cutFrame port arriving s
    t.withFp (t.fp.setPort port (t.fp.port port).lose)
  else s

/-! ## The rows of the Frame Path -/

/-- FRAME_RECEIVED (R1). The receiver of a port whose link is down receives nothing (R15). -/
def execFrameReceived (port : Port) (whole : Bool) (frame : List Byte) (s : State) : Host.Outcome State Fault Refusal :=
  .next (if (s.fp.port port).linkUp then receiveFrame port whole frame s else s)

/-- HOLD_EXPIRY (R17, R31). A stopped timer does not expire (log 5). -/
def execHoldExpiry (s : State) : Host.Outcome State Fault Refusal :=
  .next (if s.fp.holdTimer.isSome then clearHold s else s)

/-- EGRESS_START (R13). -/
def execEgressStart (port : Port) (s : State) : Host.Outcome State Fault Refusal :=
  .next (s.withFp (s.fp.setPort port (s.fp.port port).start))

/-- TRANSMIT_COMPLETE (R13). -/
def execTransmitComplete (port : Port) (s : State) : Host.Outcome State Fault Refusal :=
  .next (s.withFp (s.fp.setPort port (s.fp.port port).complete))

/-- LINK_DOWN (R15). -/
def execLinkDown (port : Port) (arriving : Bool) (s : State) : Host.Outcome State Fault Refusal :=
  .next (linkLost port arriving s)

/-- LINK_UP (R15). -/
def execLinkUp (port : Port) (s : State) : Host.Outcome State Fault Refusal :=
  .next (s.withFp (s.fp.setPort port { s.fp.port port with linkUp := true }))

end Sys2Proof.Machine
end

