-- ==== Sys2Proof/Machine/FrontEnd.lean ====
section
/-!
DEFINITION. The Weighing Front End (03_the_weighing_front_end.md): the window state machine (R34 to R47), the gross weight
and the raw range (R49, R50), Window Results (R51) and zero readings (R37 to R40).
-/

namespace Sys2Proof.Machine

/-- The state with its Front End replaced. -/
def State.withFe (s : State) (fe : FrontEnd) : State :=
  { s with fe := fe }

/-! ## Windows -/

/-- The raw range of a window: 0 with no summed sample (R50). -/
def OpenWindow.rawRange (w : OpenWindow) : Nat :=
  match w.range with
  | none => 0
  | some r => (r.2 - r.1).toNat

/-- The gross weight by the arithmetic of R49, rounded to nearest and held within the signed 32-bit range. -/
def OpenWindow.grossValue (w : OpenWindow) : Int :=
  clampWeight (roundDiv ((w.sum - w.count * w.zero) * w.span) (65536 * w.count))

/-- Whether a window that closes has a gross (R49). -/
def OpenWindow.hasGross (w : OpenWindow) (silent : Bool) : Bool :=
  w.span != 0 && !silent && decide (w.minSamples ≤ w.count)

/-- The Window Result of a window that closes (R51): `cut` by an entry sample (R45), or `silent` (R47). -/
def windowResultOf (w : OpenWindow) (cut silent zeroFault : Bool) (buffer : List Int) : WindowResult :=
  { entryIndex := w.entryIndex
    entryPos := w.entryPos
    count := w.count
    gross := if w.hasGross silent then some w.grossValue else none
    short := cut && decide (w.minSamples ≤ w.count)
    gap := w.gap
    unstable := decide (w.band < w.rawRange)
    silent := silent
    uncalibrated := w.span == 0
    zeroFault := zeroFault
    rawRange := w.rawRange
    samples := buffer }

/-- The open window closes: its Window Result is handed to the Tracking Queue and counted (R51). -/
def closeWindow (w : OpenWindow) (cut silent : Bool) (s : State) : State :=
  s.withFe { s.fe with
    window := none
    results := s.fe.results ++ [windowResultOf w cut silent s.fe.zeroFault s.fe.buffer]
    counters := { s.fe.counters with windowsClosed := tally s.fe.counters.windowsClosed 1 } }

/-- The window parameters of the active product: settle samples, window length, minimum samples, stability band; 0, 4, 4
and 0 when no product is active (R42). -/
def State.windowParameters (s : State) : Nat × Nat × Nat × Nat :=
  match s.activeProduct with
  | none => (0, 4, 4, 0)
  | some p => (p.settle, p.length, p.minSamples, p.band)

/-- An entry sample opens a window (R41). -/
def openWindow (index : Word16) (sample : Int) (s : State) : State :=
  let p := s.windowParameters
  s.withFe { s.fe with
    accSum := 0
    accCount := 0
    buffer := [sample]
    window := some {
      entryIndex := index
      entryPos := s.pos.linePos
      zero := s.fe.workingZero
      span := s.fe.calSpan
      settle := p.1
      length := p.2.1
      minSamples := p.2.2.1
      band := p.2.2.2 }
    mode := if p.1 = 0 then .window else .settle }

/-- An open window is cut by an entry sample (R45). -/
def cutWindow (s : State) : State :=
  match s.fe.mode, s.fe.window with
  | .settle, some w => closeWindow w true false s
  | .window, some w => closeWindow w true false s
  | _, _ => s

/-- The settle count has reached the latched settle samples: the window is summed from the next sample on (R43). -/
def completeSettle (s : State) : State :=
  match s.fe.mode, s.fe.window with
  | .settle, some w => if w.settle ≤ w.settleCount then s.withFe { s.fe with mode := .window } else s
  | _, _ => s

/-- The summed count has reached the window length: the window closes normally and the belt is OCCUPIED (R44). -/
def completeWindow (s : State) : State :=
  match s.fe.mode, s.fe.window with
  | .window, some w =>
    if w.length ≤ w.count then
      let t := closeWindow w false false s
      t.withFe { t.fe with mode := .occupied, beltClear := 0 }
    else s
  | _, _ => s

/-! ## Zero readings -/

/-- A sample has raised the belt-clear count in CLEAR or OCCUPIED (R36); the count is still to be compared. -/
def countClear (s : State) : State :=
  s.withFe { s.fe with beltClear := min (s.fe.beltClear + 1) 65535, counted := true }

/-- A belt-clear count that a sample has raised is compared: at or above the belt-clear samples it starts a zero reading with
the accumulator empty (R36). Without such a sample there is no comparison (R57, log 38). -/
def startZeroReading (s : State) : State :=
  if s.fe.counted then
    let t := s.withFe { s.fe with counted := false }
    if (t.fe.mode = .clear ∨ t.fe.mode = .occupied) ∧ t.ma.setup.beltClearSamples ≤ t.fe.beltClear then
      t.withFe { t.fe with mode := .zeroReading, accSum := 0, accCount := 0 }
    else t
  else s

/-- ZERO_FAULT takes a value; a change is reported (R53). -/
def setZeroFault (b : Bool) (s : State) : State :=
  report s (s.withFe { s.fe with zeroFault := b })

/-- ZERO_DONE takes a value; a change is reported (R53). -/
def setZeroDone (b : Bool) (s : State) : State :=
  report s (s.withFe { s.fe with zeroDone := b })

/-- WEIGHER_SILENT takes a value; a change is reported (R53). -/
def setWeigherSilent (b : Bool) (s : State) : State :=
  report s (s.withFe { s.fe with weigherSilent := b })

/-- A reading beyond its limit: ZERO_FAULT is set and the rejection counted (R39, R40). -/
def rejectZero (s : State) : State :=
  setZeroFault true (s.withFe { s.fe with
    counters := { s.fe.counters with zeroRejections := tally s.fe.counters.zeroRejections 1 } })

/-- A completed reading with no manual zero pending: automatic zero tracking (R39). -/
def trackZero (reading : Int) (s : State) : State :=
  let diff := reading - s.fe.workingZero
  if diff.natAbs ≤ s.ma.setup.zeroTrackLimit then
    setZeroFault false (s.withFe { s.fe with workingZero := s.fe.workingZero + roundDiv diff 16 })
  else rejectZero s

/-- A completed reading with a manual zero pending (R40). R40 lists what a success does without an order: the fall of ZERO_FAULT
is reported first, then the rise of ZERO_DONE (DESIGN CHOICE, unsafe, log 36). -/
def manualZero (reading : Int) (s : State) : State :=
  let diff := reading - s.fe.workingZero
  let t := s.withFe { s.fe with manualZero := false }
  if diff.natAbs ≤ s.ma.setup.zeroCaptureLimit then
    setZeroDone true (setZeroFault false (t.withFe { t.fe with workingZero := reading }))
  else rejectZero t

/-- The 32nd sample has completed a zero reading: it is evaluated and counted, and the state returns to CLEAR with an
empty accumulator and the belt-clear count at 0 (R37). -/
def completeZeroReading (s : State) : State :=
  if s.fe.mode = .zeroReading ∧ Config.zeroReadingSamples ≤ s.fe.accCount then
    let reading := roundDiv s.fe.accSum Config.zeroReadingSamples
    let t := if s.fe.manualZero then manualZero reading s else trackZero reading s
    t.withFe { t.fe with
      mode := .clear, beltClear := 0, accSum := 0, accCount := 0
      counters := { t.fe.counters with zeroReadings := tally t.fe.counters.zeroReadings 1 } }
  else s

/-! ## Samples -/

/-- The raw minimum and maximum with one more summed sample (R44). -/
def widen (sample : Int) : Option (Int × Int) → Int × Int
  | none => (sample, sample)
  | some r => (min r.1 sample, max r.2 sample)

/-- A sample stored in the window buffer (R43, R44). -/
def FrontEnd.store (fe : FrontEnd) (sample : Int) (w : OpenWindow) : FrontEnd :=
  { fe with buffer := fe.buffer ++ [sample], window := some w }

/-- A sample that is not an entry sample, by the state it finds (R36, R37, R43, R44). -/
def plainSample (sample : Int) (s : State) : State :=
  match s.fe.mode with
  | .clear => startZeroReading (countClear s)
  | .occupied => startZeroReading (countClear s)
  | .zeroReading =>
    completeZeroReading (s.withFe { s.fe with accSum := s.fe.accSum + sample, accCount := s.fe.accCount + 1 })
  | .settle =>
    match s.fe.window with
    | none => s
    | some w => completeSettle (s.withFe (s.fe.store sample { w with settleCount := w.settleCount + 1 }))
  | .window =>
    match s.fe.window with
    | none => s
    | some w =>
      completeWindow (s.withFe (s.fe.store sample { w with
        sum := w.sum + sample, count := w.count + 1, range := some (widen sample w.range) }))
  | .silent => s

/-- One sample in the state the previous one left (R34): an entry sample cuts an open window and opens a new one (R41,
R45), any other sample acts by the state. -/
def handleSample (s : State) (x : Word16 × Int × Bool) : State :=
  if x.2.2 then openWindow x.1 x.2.1 (cutWindow s) else plainSample x.2.1 s

/-- A GAP, by the state that stands at that moment (R36, R38, R46). -/
def handleGap (s : State) : State :=
  match s.fe.mode with
  | .clear => s.withFe { s.fe with beltClear := 0 }
  | .occupied => s.withFe { s.fe with beltClear := 0 }
  | .zeroReading => s.withFe { s.fe with mode := .clear, beltClear := 0, accSum := 0, accCount := 0 }
  | .settle => s.withFe { s.fe with window := s.fe.window.map fun w => { w with gap := true } }
  | .window => s.withFe { s.fe with window := s.fe.window.map fun w => { w with gap := true } }
  | .silent => s

/-- The index test of a sample frame: the gap of a taken frame, or none for a stale one (R34). -/
def sampleGap (expected : Option Word16) (first : Word16) : Option Nat :=
  match expected with
  | none => some 0
  | some e =>
    let g := (first - e).toNat
    if g ≤ 32767 then some g else none

/-- The missing samples of a taken frame are counted and the GAP handled (R34). -/
def countGap (g : Nat) (s : State) : State :=
  if g = 0 then s
  else handleGap (s.withFe { s.fe with counters := { s.fe.counters with missing := tally s.fe.counters.missing g } })

/-- A taken frame in SILENT: WEIGHER_SILENT falls and the state is CLEAR with the belt-clear count at 0 (R35). -/
def leaveSilent (s : State) : State :=
  if s.fe.mode = .silent then
    let t := setWeigherSilent false s
    t.withFe { t.fe with mode := .clear, beltClear := 0 }
  else s

/-- A sample frame reaches the Front End (R34, R35). -/
def takeSamples (payload : List Byte) (s : State) : State :=
  match sampleGap s.fe.expected (sampleFirst payload) with
  | none => s.withFe { s.fe with counters := { s.fe.counters with stale := tally s.fe.counters.stale 1 } }
  | some g =>
    let t := leaveSilent (countGap g s)
    (samplesOf payload).foldl handleSample (t.withFe { t.fe with
      expected := some (sampleFirst payload + BitVec.ofNat 16 (sampleCount payload))
      timer := some t.ma.setup.digitiserSilence })

/-- An open window closes SILENT, a zero reading is abandoned (R47, R38). -/
def closeSilent (s : State) : State :=
  match s.fe.mode, s.fe.window with
  | .settle, some w => closeWindow w false true s
  | .window, some w => closeWindow w false true s
  | .zeroReading, _ => s.withFe { s.fe with accSum := 0, accCount := 0 }
  | _, _ => s

/-- The digitiser silence timer expires (R47). -/
def digitiserSilence (s : State) : State :=
  let t := closeSilent s
  let u := t.withFe { t.fe with
    mode := .silent
    expected := none
    timer := none
    counters := { t.fe.counters with silences := tally t.fe.counters.silences 1 } }
  setWeigherSilent true u

/-- A TRACKING reset abandons an open window without a Window Result (R56). -/
def abandonWindow (s : State) : State :=
  match s.fe.mode with
  | .settle => s.withFe { s.fe with window := none, buffer := [], mode := .occupied, beltClear := 0 }
  | .window => s.withFe { s.fe with window := none, buffer := [], mode := .occupied, beltClear := 0 }
  | .clear | .zeroReading | .occupied | .silent => s

end Sys2Proof.Machine
end

