-- ==== Sys2Proof/Machine/Position.lean ====
section
/-!
DEFINITION. The Position Unit (02_line_position_and_pitch.md): the pitch grid (R23), encoder frames (R22, R24, R26, R27),
encoder silence (R25) and the pending grid of a Line Setup commit (R27).
-/

namespace Sys2Proof.Machine

/-- The state with its Position Unit replaced. -/
def State.withPos (s : State) (p : Position) : State :=
  { s with pos := p }

/-- The residue of a Line Position on a grid, a number from 0 to P - 1 (section 2.3). -/
def gridResidue (linePos : Word32) (pitch phase : Nat) : Nat :=
  (((linePos.toNat : Int) - phase) % pitch).toNat

/-- `n` boundaries, the first at `start` and each a pitch after the one before it. -/
def boundaries (start pitch n : Nat) : List Word32 :=
  (List.range n).map fun i => BitVec.ofNat 32 (start + i * pitch)

/-- The boundaries that a step of `d` counts reaches, in order along the step, each with its Line Position (R23). A step
past 4,294,967,295 counts its two stretches separately. -/
def ticksOf (pos : Position) (d : Nat) : List Word32 :=
  let l := pos.linePos.toNat
  if l + d < 2 ^ 32 then
    boundaries (l + (pos.pitch - pos.residue)) pos.pitch ((pos.residue + d) / pos.pitch)
  else
    let stop := l + d - 2 ^ 32
    boundaries (l + (pos.pitch - pos.residue)) pos.pitch ((pos.residue + (2 ^ 32 - 1 - l)) / pos.pitch) ++
      (if pos.phase ≤ stop then boundaries pos.phase pos.pitch ((stop - pos.phase) / pos.pitch + 1) else [])

/-- The residue after a step of `d` counts (R23): recomputed from the new Line Position past the wrap. -/
def residueAfter (pos : Position) (d : Nat) : Nat :=
  if pos.linePos.toNat + d < 2 ^ 32 then (pos.residue + d) % pos.pitch
  else gridResidue (pos.linePos + BitVec.ofNat 32 d) pos.pitch pos.phase

/-- The Position Unit after a forward step of `d` counts (R22, R23, R29). -/
def Position.step (pos : Position) (d : Nat) : Position :=
  { pos with
    linePos := pos.linePos + BitVec.ofNat 32 d
    residue := residueAfter pos d
    counters := { pos.counters with ticks := tally pos.counters.ticks (ticksOf pos d).length } }

/-- A forward step: Line Position advances, each tick ages the records (R74, R75), and the advance event reaches the
Reject Unit (R24, R113). The ticks are taken before the advance (DESIGN CHOICE, unsafe, log 14). -/
def forwardStep (d : Nat) (s : State) : State :=
  let t := (ticksOf s.pos d).foldl (fun u b => pitchTick b u) (s.withPos (s.pos.step d))
  advance s.pos.linePos d t

/-- A pending grid comes into force: the residue is recomputed and no tick is produced (R27). -/
def applyGrid (s : State) : State :=
  match s.pos.pendingGrid with
  | none => s
  | some g =>
    s.withPos { s.pos with
      pitch := g.1, phase := g.2, pendingGrid := none, residue := gridResidue s.pos.linePos g.1 g.2 }

/-- ENCODER_FAULT becomes clear; a fall is reported (R26). -/
def clearEncoderFault (s : State) : State :=
  report s (s.withPos { s.pos with fault := false })

/-- The count of an encoder frame is handled according to last count (R22). -/
def handleCount (c : Word16) (s : State) : State :=
  let taken := s.withPos { s.pos with lastCount := some c }
  match s.pos.lastCount with
  | none => taken
  | some last =>
    let d := (c - last).toNat
    if d = 0 then taken
    else if d ≤ 32767 then forwardStep d taken
    else taken.withPos { taken.pos with
      counters := { taken.pos.counters with reverse := tally taken.pos.counters.reverse 1 } }

/-- An encoder count reaches the Position Unit (R22): the silence timer restarts, ENCODER_FAULT is cleared, a pending grid
comes into force, and the count is handled. -/
def takeCount (c : Word16) (s : State) : State :=
  handleCount c (applyGrid (clearEncoderFault
    (s.withPos { s.pos with timer := some s.ma.setup.encoderSilence })))

/-- The encoder silence timer expires (R25): ENCODER_FAULT is set, counted and reported, and Line Stop Request is raised
over a non-empty schedule (R120). The Management Agent is told first, so that the status frame of ENCODER_FAULT is built before
Line Stop Request rises (DESIGN CHOICE, unsafe, log 39). -/
def encoderSilence (s : State) : State :=
  raiseForFault (report s (s.withPos { s.pos with
    fault := true
    timer := none
    counters := { s.pos.counters with faults := tally s.pos.counters.faults 1 } }))

/-- A Line Setup commit that changes P or φ holds the new values as the pending grid (R27). -/
def commitGrid (old : LineSetup) (s : State) : State :=
  let new := s.ma.setup
  if old.pitch = new.pitch ∧ old.phase = new.phase then s
  else s.withPos { s.pos with pendingGrid := some (new.pitch, new.phase) }

end Sys2Proof.Machine
end

