-- ==== Sys2Proof/Machine/Commit.lean ====
section
/-!
DEFINITION. Commits: what each owner does with a whole staged load (R6, R32, R108, R127, R128, R159 to R161, R190), and the
delivery of a Line Setup record to the blocks that use it.
-/

namespace Sys2Proof.Machine

/-- A commit refused with BAD_ARGUMENT and an entry index. -/
def refuseAt (index : Nat) (s : State) : State × Reply :=
  (s, { status := .badArgument, index := index })

/-- A table with the entries of a load range replaced. -/
def putRange {α : Type} {n : Nat} (old : Vector α n) (first : Nat) (entries : List α) : Vector α n :=
  Vector.ofFn fun i => if first ≤ i.val then (entries[i.val - first]?).getD old[i] else old[i]

/-- The staged entries read one after the other from an index; the index of the lowest that fails, or all of them. -/
def readEntries {α : Type} (f : Nat → List Byte → Option α) (index : Nat) : List (List Byte) → Nat ⊕ List α
  | [] => .inr []
  | b :: rest =>
    match f index b with
    | none => .inl index
    | some a =>
      match readEntries f (index + 1) rest with
      | .inl i => .inl i
      | .inr l => .inr (a :: l)

/-! ## CHANNEL (R6) -/

/-- Whether an entry of a Channel Table offends: a field out of range, an overlap with a lower entry, or a second DOSE. -/
def channelOffends (t : Vector ChannelEntry 32) (i : Fin 32) : Bool :=
  t[i].isUsed &&
    (!t[i].inRange ||
      (List.finRange 32).any fun j => decide (j < i) && (t[j].overlaps t[i] || (t[j].isDose && t[i].isDose)))

/-- A CHANNEL load (R6). -/
def commitChannel (first : Nat) (entries : List (List Byte)) (s : State) : State × Reply :=
  let t := putRange s.fp.channels first (entries.map channelOf)
  match (List.finRange 32).find? (channelOffends t) with
  | some i => refuseAt i.val s
  | none => (s.withFp { s.fp with channels := t }, {})

/-! ## CALIBRATION (R32) -/

/-- A CALIBRATION load (R32): no loaded value is out of range, for the two fields of three bytes hold nothing else. -/
def commitCalibration (entries : List (List Byte)) (s : State) : State × Reply :=
  let c := calibrationOf (entries.headD [])
  (setZeroFault false (s.withFe { s.fe with calZero := c.1, calSpan := c.2, workingZero := c.1 }), {})

/-! ## POLICY (R108) -/

/-- A POLICY load (R108). -/
def commitPolicy (first : Nat) (entries : List (List Byte)) (s : State) : State × Reply :=
  match readEntries policyOf first entries with
  | .inl i => refuseAt i s
  | .inr l => ({ s with jr := { s.jr with policy := putRange s.jr.policy first l } }, {})

/-! ## VALVE (R127, R128) -/

/-- A VALVE load (R127), with its effect on the valve records (R128). -/
def commitValve (first : Nat) (entries : List (List Byte)) (s : State) : State × Reply :=
  match readEntries (fun _ b => valveOf b) first entries with
  | .inl i => refuseAt i s
  | .inr l =>
    (applyValveCommit s.te.table first l.length
      { s with te := { s.te with table := putRange s.te.table first l } }, {})

/-! ## PRODUCT (R159 to R161) -/

/-- Whether a slot is in use: active, or referred to by a queued record (R160). -/
def State.inUse (s : State) (k : Fin 16) : Bool :=
  s.pu.active == some k || s.tq.queue.any fun r => r.product == k

/-- The lot boundaries after a commit: that of every slot written with a record becomes the can number counter (R96,
R161). -/
def State.boundariesAfter (s : State) (first : Nat) (l : List (Option Product)) : Vector Word32 16 :=
  Vector.ofFn fun i =>
    if first ≤ i.val then
      match l[i.val - first]? with
      | some (some _) => s.tq.canCounter
      | some none | none => s.rm.lotBoundary[i]
    else s.rm.lotBoundary[i]

/-- A PRODUCT load (R159 to R161). -/
def commitProduct (first : Nat) (entries : List (List Byte)) (s : State) : State × Reply :=
  match readEntries (fun _ b => productOf b) first entries with
  | .inl i => refuseAt i s
  | .inr l =>
    match (List.finRange 16).find? fun k => decide (first ≤ k.val ∧ k.val < first + l.length) && s.inUse k with
    | some k => (s, { status := .inUse, index := k.val })
    | none =>
      ({ s with
          pu := { s.pu with table := putRange s.pu.table first l }
          rm := { s.rm with lotBoundary := s.boundariesAfter first l } }, {})

/-! ## LINE_SETUP (R190) -/

/-- The status interval of a commit (R192). -/
def commitInterval (old : LineSetup) (s : State) : State :=
  let new := s.ma.setup.statusInterval
  if new = 0 ∧ old.statusInterval ≠ 0 then { s with ma := { s.ma with statusTimer := none } }
  else if old.statusInterval = 0 ∧ new ≠ 0 then { s with ma := { s.ma with statusTimer := some new } }
  else s

/-- The collector of a commit: a changed station clears a standing Hold (R17), a changed station or port abandons the
upload in progress (R178). -/
def commitCollector (old : LineSetup) (s : State) : State :=
  let new := s.ma.setup
  let t := if old.collector = new.collector then s else clearHold s
  if old.collector = new.collector ∧ old.collectorPort = new.collectorPort then t else abandonUpload t

/-- The hold trim on freeze field of a commit: Trim Hold is evaluated afresh when it changes (R133). -/
def commitTrimHold (old : LineSetup) (s : State) : State :=
  if old.holdTrimOnFreeze = s.ma.setup.holdTrimOnFreeze then s else evalTrimHold s

/-- The capture threshold of a commit: CAPTURE_READY is evaluated afresh when it changes (R176). -/
def commitThreshold (old : LineSetup) (s : State) : State :=
  if old.captureThreshold = s.ma.setup.captureThreshold then s else evalCaptureReady s

/-- The new record is delivered to the blocks whose state it changes (R190). The blocks take no order among them; the model
takes this one (DESIGN CHOICE, unsafe, log 25). -/
def deliverSetup (old : LineSetup) (s : State) : State :=
  commitInterval old (commitThreshold old (commitCollector old (commitTrimHold old
    (applyValveCount old.valveCount (commitGrid old s)))))

/-- A LINE_SETUP load (R190). -/
def commitLineSetup (entries : List (List Byte)) (s : State) : State × Reply :=
  match setupOf (entries.headD []) with
  | none => refuseAt 0 s
  | some u => (deliverSetup s.ma.setup { s with ma := { s.ma with setup := u } }, {})

/-- The whole staged set is handed to the owner of its table (R188, Table 11-5). -/
def commitTable (t : TableId) (first : Nat) (entries : List (List Byte)) (s : State) : State × Reply :=
  match t with
  | .channel => commitChannel first entries s
  | .lineSetup => commitLineSetup entries s
  | .calibration => commitCalibration entries s
  | .product => commitProduct first entries s
  | .valve => commitValve first entries s
  | .policy => commitPolicy first entries s

end Sys2Proof.Machine
end

