-- ==== Sys2Proof/Machine/ReadOut.lean ====
section
/-!
DEFINITION. The data of long replies (R83, R123, R147, R173, R184, R185) in the layouts of section 12.6 (R197). Reading
changes nothing (R185).
-/

namespace Sys2Proof.Machine

/-- A counter in a reply. -/
def counterBytes (c : Counter) : List Byte :=
  beBytes 4 c.toNat

/-- Counters one after the other. -/
def countersBytes (l : List Counter) : List Byte :=
  l.flatMap counterBytes

/-! ## IDENTIFY (R184) -/

/-- The identification: codes, revision, station number and address-parity fault, and the six capacities. -/
def State.identification (s : State) : List Byte :=
  beBytes 2 Config.vendorCode ++ beBytes 2 Config.partCode ++ beBytes 1 Config.siliconRevision ++
    [s.fp.station, flagByte s.fp.parityFault] ++
    [Config.queueCapacity, Config.scheduleCapacity, Config.valves, Config.productSlots, Config.captureSlots,
      Config.ringCapacity].flatMap (beBytes 1)

/-! ## READ_TABLE (R185) -/

/-- The committed entry of a table, in its loaded layout. -/
def State.entryBytes (s : State) (t : TableId) (i : Nat) : List Byte :=
  match t with
  | .channel => if h : i < 32 then channelBytes s.fp.channels[i] else []
  | .lineSetup => setupBytes s.ma.setup
  | .calibration => calibrationBytes s.fe.calZero s.fe.calSpan
  | .product => if h : i < 16 then productBytes s.pu.table[i] else []
  | .valve => if h : i < Config.valves then valveBytes s.te.table[i] else []
  | .policy => if h : i < 12 then [flagByte s.jr.policy[i]] else []

/-- The committed entries from `first`, `count` of them. -/
def State.tableBytes (s : State) (t : TableId) (first count : Nat) : List Byte :=
  (List.range count).flatMap fun i => s.entryBytes t (first + i)

/-! ## READ_QUEUE (R83, R185) -/

/-- The summary of a record (Table 12-7). -/
def summaryBytes (r : CanRecord) : List Byte :=
  beBytes 4 r.number.toNat ++ beBytes 1 r.product.val ++ optValve r.valve ++ optBytes 2 r.setPoint ++
    beBytes 2 r.epoch.toNat ++ beBytes 4 r.dischargePos.toNat ++ beBytes 2 r.age ++ [stageCode r.stage] ++
    optBytes 1 r.head ++ optBytes 2 r.tag ++ optRead r.readResult ++
    beBytes 1 (bitsOf [r.settled, r.lotOk, r.placeholder, r.valveRange, r.headRange]) ++
    beBytes 1 (bitsOf [r.valve.isSome, r.setPoint.isSome, r.head.isSome, r.tag.isSome, r.readResult.isSome]) ++ [0]

/-- The queue length and up to 32 summaries from a position. -/
def State.queueBytes (s : State) (position : Nat) : List Byte :=
  beBytes 1 s.tq.queue.length ++ ((s.tq.queue.drop position).take 32).flatMap summaryBytes

/-! ## READ_SCHEDULE (R123) -/

/-- An entry of the Reject Schedule (Table 12-7). -/
def scheduleEntryBytes (e : RejectEntry) : List Byte :=
  optBytes 4 e.number ++ beBytes 1 (classIndex e.cls).val ++ [flagByte e.fired] ++ beBytes 4 e.firePos.toNat ++
    optBytes 4 e.deadline ++ beBytes 1 (bitsOf [e.late, e.number.isSome, e.deadline.isSome]) ++ [0]

/-- The schedule length and every entry in schedule order. -/
def State.scheduleBytes (s : State) : List Byte :=
  beBytes 1 s.jr.schedule.length ++ s.jr.schedule.flatMap scheduleEntryBytes

/-! ## READ_VALVES (R147) -/

/-- The record of a valve (Table 12-7). -/
def State.valveRecordBytes (s : State) (v : Fin Config.valves) : List Byte :=
  let r := s.te.valves[v]
  beBytes 1 v.val ++ [valveModeCode s.te.table[v].mode, valveStateCode r.state] ++
    beBytes 1 (bitsOf [r.limit, s.rw.expected[v].isSome, r.lastChange.isSome, r.armed]) ++ beSigned 2 r.trim ++
    beBytes 2 r.n ++ beSigned 5 r.eAvg ++ beBytes 1 r.unsettledRun ++ counterBytes r.weighed ++ counterBytes r.rejected ++
    counterBytes r.trimChanges ++ optBytes 4 r.lastChange ++ optBytes 2 s.rw.expected[v] ++
    beBytes 2 s.rw.epoch[v].toNat ++ beBytes 2 r.countdown

/-- The records of `count` valves from `first`. -/
def State.valvesBytes (s : State) (first count : Nat) : List Byte :=
  (List.range count).flatMap fun i =>
    if h : first + i < Config.valves then s.valveRecordBytes ⟨first + i, h⟩ else []

/-! ## RING_READ (R173) -/

/-- A ring entry (Table 12-7). -/
def ringEntryBytes (e : RingEntry) : List Byte :=
  optBytes 4 e.number ++
    beBytes 2 (bitsOf [e.number.isSome, e.product.isSome, e.valve.isSome, e.head.isSome, e.tag.isSome, e.readResult.isSome,
      e.gross.isSome, e.net.isSome, e.cls.isSome]) ++
    beBytes 1 (match e.product with | none => 0 | some k => k.val) ++ optValve e.valve ++ optBytes 1 e.head ++
    optBytes 2 e.tag ++ optRead e.readResult ++ optWeight e.gross ++ optWeight e.net ++
    beBytes 1 (match e.cls with | none => 0 | some c => (classIndex c).val) ++ [fateCode e.fate] ++
    beBytes 1 (bitsOf [e.short, e.gap, e.late, e.settled, e.scheduled]) ++ beBytes 4 e.linePos.toNat ++ [0]

/-- The freeze state, the freeze cause and the ring, oldest first. -/
def State.ringBytes (s : State) : List Byte :=
  [freezeCode s.rc.freeze, causeCode s.rc.cause] ++ beBytes 1 s.rc.ring.length ++ [0] ++ s.rc.ring.flatMap ringEntryBytes

/-! ## READ_COUNTERS (R185, R197) -/

/-- The counters of a port in the order of R16. -/
def PortCounters.list (c : PortCounters) : List Counter :=
  [c.received, c.forwarded, c.badFcs, c.badLength, c.dropped, c.inserted]

/-- The counters of R29. -/
def PositionCounters.list (c : PositionCounters) : List Counter :=
  [c.reverse, c.ticks, c.faults]

/-- The counters of R54. -/
def FrontEndCounters.list (c : FrontEndCounters) : List Counter :=
  [c.stale, c.missing, c.windowsClosed, c.zeroReadings, c.zeroRejections, c.silences]

/-- The counters of R80. -/
def TrackingCounters.list (c : TrackingCounters) : List Counter :=
  [c.created, c.placeholders, c.unadmitted, c.orphanSeams, c.orphanWeighs, c.missing, c.flushed, c.flushEvents]

/-- The counters of R101. -/
def ReaderCounters.list (c : ReaderCounters) : List Counter :=
  [c.readFrames, c.lostReads, c.restarts, c.invalid, c.orphan, c.unread, c.exact, c.slips, c.duplicate, c.mismatches]

/-- The counters of R122. -/
def RejectCounters.list (c : RejectCounters) : List Counter :=
  [c.fired, c.late, c.confirms, c.lostConfirms, c.restarts, c.unexpected, c.lost, c.unconfirmed]

/-- The counters of R157. -/
def RewriterCounters.list (c : RewriterCounters) : List Counter :=
  [c.framesRewritten, c.changes, c.clamps]

/-- The counters of R180. -/
def CaptureCounters.list (c : CaptureCounters) : List Counter :=
  [c.stored, c.overwritten, c.missed, c.completed, c.abandoned]

/-- The counters of R186. -/
def MgmtCounters.list (c : MgmtCounters) : List Counter :=
  [c.overruns, c.malformed, c.sequenceErrors, c.timeouts]

/-- The counters of the ports, the roles and the Position Unit, and those of the Front End (R197). -/
def State.frontCounters (s : State) : List Counter :=
  s.fp.portA.counters.list ++ s.fp.portB.counters.list ++ s.fp.malformed.toList ++ s.pos.counters.list ++
    s.fe.counters.list

/-- The counters of the Judgement and Reject Unit and those after it (R197). -/
def State.backCounters (s : State) : List Counter :=
  s.jr.classes.toList ++ [s.jr.rejectTotal] ++ s.jr.counters.list ++ s.rw.counters.list ++ s.rc.counters.list ++
    s.ma.counters.list

/-- Every counter of the device, with the working zero and the two runs in their places. -/
def State.countersData (s : State) : List Byte :=
  countersBytes s.frontCounters ++ beSigned 4 s.fe.workingZero ++ countersBytes s.tq.counters.list ++
    countersBytes s.rm.counters.list ++ beBytes 1 s.rm.cleanRun ++ beBytes 1 s.rm.unreadRun ++
    countersBytes s.backCounters

end Sys2Proof.Machine
end

