-- ==== Sys2Proof/Machine/Management.lean ====
section
/-!
DEFINITION. The Management Agent (11_management_channel.md): the departure of a command and the way of its execution (R182,
R183), loads (R187 to R189), the effects and replies of the commands of Table 11-3 but RESET; with the rows of the opcode
table that these are.
-/

namespace Sys2Proof.Machine

/-- The state with its Management Agent replaced. -/
def State.withMa (s : State) (ma : Mgmt) : State :=
  { s with ma := ma }

/-! ## Departure and execution (R182, R183) -/

/-- After a departure that leaves 2 frames or fewer, the held stations are released (R19). -/
def releaseOnDeparture (s : State) : State :=
  if s.ma.fifo.length ≤ Config.releaseOccupancy then s.withFp s.fp.releaseHeld else s

/-- A frame too short for code and request tag is discarded and counted (R182). -/
def discardCommand (s : State) : State :=
  s.withMa { s.ma with
    executing := none
    counters := { s.ma.counters with malformed := tally s.ma.counters.malformed 1 } }

/-- The execution of a command begins. What no row executes ends here: a malformed frame, an unknown code, a RESET without
a scope or with an unlisted one (R182, R183, R193; log 12). -/
def beginCommand (c : Copy) (s : State) : State :=
  match commandClass c.payload with
  | .malformed => discardCommand s
  | .unknown => finish c { status := .unknownCommand } s
  | .resetShort => finish c { status := .length } s
  | .resetBad => finish c { status := .badArgument } s
  | .known _ => s

/-- With no command executing, the oldest frame leaves the intake FIFO and its execution begins (R182). -/
def departIntake (s : State) : State :=
  if s.ma.executing.isSome then s
  else
    match s.ma.fifo with
    | [] => s
    | c :: rest => beginCommand c (releaseOnDeparture (s.withMa { s.ma with fifo := rest, executing := some c }))

/-- A command refused with a status and no effect (R183), the entry index 0 (Table 11-2; log 37). -/
def refuse (status : ReplyStatus) (s : State) : State × Reply :=
  (s, { status := status })

/-- A command that changes no state and is answered OK with data (R185). -/
def answer (data : List Byte) (s : State) : State × Reply :=
  (s, { data := data })

/-- The tests that come before a command's own rule (R183): arguments shorter than required, then a conflict with a load. -/
def testedCommand (need : Nat) (busy : State → Bool) (body : List Byte → State → State × Reply) (args : List Byte)
    (s : State) : State × Reply :=
  if args.length < need then refuse .length s
  else if busy s then refuse .busy s
  else body args s

/-- The command that has begun is executed when it is of the kind of the row, and ends with its reply; else nothing
changes (R182, R183, log 8). -/
def runCommand (kind : CommandKind) (need : Nat) (busy : State → Bool) (body : List Byte → State → State × Reply)
    (s : State) : State :=
  match s.ma.executing with
  | none => s
  | some c =>
    if commandClass c.payload = .known kind then
      let r := testedCommand need busy body (c.payload.drop 2) s
      finish c r.2 r.1
    else s

/-- No load conflicts with the command. -/
def neverBusy (_ : State) : Bool :=
  false

/-- A load of a table is in progress (R189). -/
def isLoading (t : TableId) (s : State) : Bool :=
  match s.ma.load with
  | none => false
  | some d => d.table == t

/-- A load of any table is in progress (R187). -/
def anyLoad (s : State) : Bool :=
  s.ma.load.isSome

/-! ## Loads (R187 to R189) -/

/-- A load ends: the staging buffer is cleared, the timer stops, the load state is IDLE, and LOAD_ACTIVE falls. -/
def endLoad (s : State) : State :=
  report s (s.withMa { s.ma with load := none, staging := [], loadTimer := none })

/-- A load ended by SEQUENCE or LENGTH is counted (R188, R186). -/
def failLoad (s : State) : State :=
  endLoad (s.withMa { s.ma with
    counters := { s.ma.counters with sequenceErrors := tally s.ma.counters.sequenceErrors 1 } })

/-- LOAD_BEGIN outside a load (R187). -/
def beginLoad (args : List Byte) (s : State) : State × Reply :=
  let first := (byteAt args 1).toNat
  let count := (byteAt args 2).toNat
  let segments := (byteAt args 3).toNat
  match tableOfCode (byteAt args 0) with
  | none => refuse .badArgument s
  | some t =>
    if count = 0 ∨ tableSize t < first + count then refuse .badArgument s
    else if segments ≠ (count + 7) / 8 then refuse .badArgument s
    else
      (report s (s.withMa { s.ma with
        load := some { table := t, first := first, count := count, segments := segments, expected := 0 }
        staging := []
        loadTimer := some Config.loadTime }), {})

/-- The entry count that the expected segment of a load carries (R188). -/
def LoadDesc.segmentEntries (d : LoadDesc) : Nat :=
  if d.expected + 1 < d.segments then 8 else d.count - 8 * (d.segments - 1)

/-- `n` entries of a size, one after the other. -/
def cutEntries (size : Nat) : Nat → List Byte → List (List Byte)
  | 0, _ => []
  | n + 1, bytes => bytes.take size :: cutEntries size n (bytes.drop size)

/-- A correct segment that is not the last is staged (R188). -/
def stageSegment (d : LoadDesc) (entries : List (List Byte)) (s : State) : State :=
  s.withMa { s.ma with
    staging := s.ma.staging ++ entries
    load := some { d with expected := d.expected + 1 }
    loadTimer := some Config.loadTime }

/-- A correct last segment: the owner commits or refuses the whole set, and the load ends by itself (R188). -/
def lastSegment (d : LoadDesc) (entries : List (List Byte)) (s : State) : State × Reply :=
  let r := commitTable d.table d.first (s.ma.staging ++ entries) s
  (endLoad r.1, r.2)

/-- A segment of the load in progress (R188). -/
def takeSegment (d : LoadDesc) (index count : Nat) (bytes : List Byte) (s : State) : State × Reply :=
  if index ≠ d.expected ∨ count ≠ d.segmentEntries then refuse .sequence (failLoad s)
  else if bytes.length < count * entrySize d.table then refuse .length (failLoad s)
  else
    let entries := cutEntries (entrySize d.table) count bytes
    if d.expected + 1 < d.segments then (stageSegment d entries s, {}) else lastSegment d entries s

/-- LOAD_SEGMENT (R188). -/
def segmentBody (args : List Byte) (s : State) : State × Reply :=
  match s.ma.load with
  | none => refuse .notLoading s
  | some d => takeSegment d (byteAt args 0).toNat (byteAt args 1).toNat (args.drop 2) s

/-- LOAD_ABORT (R189): in IDLE nothing changes. -/
def abortLoad (s : State) : State :=
  if s.ma.load.isSome then endLoad s else s

/-- The load inactivity timer expires (R189). -/
def loadExpiry (s : State) : State :=
  endLoad (s.withMa { s.ma with
    counters := { s.ma.counters with timeouts := tally s.ma.counters.timeouts 1 } })

/-! ## Commands -/

/-- READ_TABLE (R185). -/
def readTableBody (args : List Byte) (s : State) : State × Reply :=
  let first := (byteAt args 1).toNat
  let count := (byteAt args 2).toNat
  match tableOfCode (byteAt args 0) with
  | none => refuse .badArgument s
  | some t =>
    if count < 1 ∨ 8 < count ∨ tableSize t < first + count then refuse .badArgument s
    else answer (s.tableBytes t first count) s

/-- The active product becomes a slot or none, and the Trim Engine is told (R163, R146). -/
def selectProduct (k : Option (Fin 16)) (s : State) : State :=
  applySelection { s with pu := { s.pu with active := k } }

/-- SELECT_PRODUCT (R163). A refusal carries entry index 0, that of an empty slot too: Table 11-2 gives 0 where no entry is
concerned, and neither it nor R163 says whether the empty slot is one (DESIGN CHOICE, unsafe, log 37). -/
def selectBody (args : List Byte) (s : State) : State × Reply :=
  let slot := (byteAt args 0).toNat
  if slot = 255 then (selectProduct none s, {})
  else if h : slot < 16 then
    if s.pu.table[slot].isSome then (selectProduct (some ⟨slot, h⟩) s, {}) else refuse .badArgument s
  else refuse .badArgument s

/-- A product record after a lot change (R166 steps 1 and 2). -/
def Product.withLot (p : Product) (lot : List Byte) : Product :=
  { p with previousLot := some p.currentLot, currentLot := lot }

/-- The lot of the active slot changed, with its lot boundary (R166, R96). -/
def changeLot (k : Fin 16) (p : Product) (lot : List Byte) (s : State) : State :=
  { s with
    pu := { s.pu with table := s.pu.table.set k.val (some (p.withLot lot)) k.isLt }
    rm := { s.rm with lotBoundary := s.rm.lotBoundary.set k.val s.tq.canCounter k.isLt } }

/-- SET_LOT (R166). -/
def setLotBody (args : List Byte) (s : State) : State × Reply :=
  match s.pu.active with
  | none => refuse .badArgument s
  | some k =>
    match s.pu.table[k] with
    | none => refuse .badArgument s
    | some p => (changeLot k p (args.take 8) s, {})

/-- TRIM_CONTROL with a mode argument (R131). -/
def trimBody (args : List Byte) (s : State) : State × Reply :=
  match (byteAt args 0).toNat with
  | 0 => (setTrimMode .off s, {})
  | 1 => (setTrimMode .hold s, {})
  | 2 => (setTrimMode .auto s, {})
  | _ => refuse .badArgument s

/-- TRIM_CONTROL RELEASE_VALVE (R132). -/
def releaseBody (args : List Byte) (s : State) : State × Reply :=
  if h : (byteAt args 1).toNat < Config.valves then (releaseFault ⟨(byteAt args 1).toNat, h⟩ s, {})
  else refuse .badArgument s

/-- READ_VALVES (R147). -/
def readValvesBody (args : List Byte) (s : State) : State × Reply :=
  let first := (byteAt args 0).toNat
  let count := (byteAt args 1).toNat
  if count < 1 ∨ 24 < count ∨ Config.valves < first + count then refuse .badArgument s
  else answer (s.valvesBytes first count) s

/-- READ_QUEUE (R185). -/
def readQueueBody (args : List Byte) (s : State) : State × Reply :=
  if 127 < (byteAt args 0).toNat then refuse .badArgument s else answer (s.queueBytes (byteAt args 0).toNat) s

/-- ZERO_NOW (R52). -/
def zeroNowBody (s : State) : State × Reply :=
  if s.fe.manualZero then refuse .busy s else (setZeroDone false (s.withFe { s.fe with manualZero := true }), {})

/-- The upload field of the Line Setup record set (R178). -/
def setUpload (on : Bool) (s : State) : State :=
  s.withMa { s.ma with setup := { s.ma.setup with upload := on } }

/-- CAPTURE_CONTROL (R178). -/
def captureControlBody (args : List Byte) (s : State) : State × Reply :=
  match boolOfCode (byteAt args 0) with
  | none => refuse .badArgument s
  | some on => (setUpload on s, {})

/-- The port with its counters cleared. -/
def PortState.clearCounters (ps : PortState) : PortState :=
  { ps with counters := {} }

/-- Every counter of the device is cleared and nothing else changes (R186). -/
def clearAllCounters (s : State) : State :=
  { s with
    fp := { s.fp with
      portA := s.fp.portA.clearCounters, portB := s.fp.portB.clearCounters, malformed := Vector.replicate 7 0 }
    pos := { s.pos with counters := {} }
    fe := { s.fe with counters := {} }
    tq := { s.tq with counters := {} }
    rm := { s.rm with counters := {} }
    jr := { s.jr with classes := Vector.replicate 12 0, rejectTotal := 0, counters := {} }
    rw := { s.rw with counters := {} }
    rc := { s.rc with counters := {} }
    ma := { s.ma with counters := {} } }

/-- Line Stop Request is cleared; a fall is reported (R121). -/
def clearLineStop (s : State) : State :=
  report s { s with jr := { s.jr with lineStop := false } }

/-- UNEXPECTED_REJECT is cleared; a fall is reported (R121). -/
def clearUnexpected (s : State) : State :=
  report s { s with jr := { s.jr with unexpected := false } }

/-- INTAKE_OVERRUN is cleared; a fall is reported (R186). -/
def clearOverrun (s : State) : State :=
  report s (s.withMa { s.ma with overrun := false })

/-- The sticky alarms are cleared, block by block (R186); Line Stop Request is raised again over a non-empty schedule while
ENCODER_FAULT stands (R121). The order of the falls is the model's (DESIGN CHOICE, unsafe, log 24). -/
def clearAlarms (s : State) : State :=
  setZeroDone false (clearOverrun (raiseForFault (clearUnexpected (clearLineStop s))))

/-! ## The rows of the Management Agent -/

/-- INTAKE_DEPARTURE (R182). -/
def execIntakeDeparture (s : State) : Host.Outcome State Fault Refusal :=
  .next (departIntake s)

/-- IDENTIFY (R184). -/
def execIdentify (s : State) : Host.Outcome State Fault Refusal :=
  .next (runCommand .identify 0 neverBusy (fun _ t => answer t.identification t) s)

/-- GET_STATUS (R184). -/
def execGetStatus (s : State) : Host.Outcome State Fault Refusal :=
  .next (runCommand .getStatus 0 neverBusy (fun _ t => answer t.statusContents t) s)

/-- LOAD_BEGIN (R187). -/
def execLoadBegin (s : State) : Host.Outcome State Fault Refusal :=
  .next (runCommand .loadBegin 4 anyLoad beginLoad s)

/-- LOAD_SEGMENT (R188). -/
def execLoadSegment (s : State) : Host.Outcome State Fault Refusal :=
  .next (runCommand .loadSegment 2 neverBusy segmentBody s)

/-- LOAD_ABORT (R189). -/
def execLoadAbort (s : State) : Host.Outcome State Fault Refusal :=
  .next (runCommand .loadAbort 0 neverBusy (fun _ t => (abortLoad t, {})) s)

/-- LOAD_INACTIVITY_EXPIRY (R189). A stopped timer does not expire (R31, log 5). -/
def execLoadInactivityExpiry (s : State) : Host.Outcome State Fault Refusal :=
  .next (if s.ma.loadTimer.isSome then loadExpiry s else s)

/-- READ_TABLE (R185). -/
def execReadTable (s : State) : Host.Outcome State Fault Refusal :=
  .next (runCommand .readTable 3 neverBusy readTableBody s)

/-- SELECT_PRODUCT (R163). -/
def execSelectProduct (s : State) : Host.Outcome State Fault Refusal :=
  .next (runCommand .selectProduct 1 (isLoading .product) selectBody s)

/-- SET_LOT (R166). -/
def execSetLot (s : State) : Host.Outcome State Fault Refusal :=
  .next (runCommand .setLot 8 (isLoading .product) setLotBody s)

/-- TRIM_CONTROL (R131). -/
def execTrimControl (s : State) : Host.Outcome State Fault Refusal :=
  .next (runCommand .trimControl 1 neverBusy trimBody s)

/-- RELEASE_VALVE (R132). -/
def execReleaseValve (s : State) : Host.Outcome State Fault Refusal :=
  .next (runCommand .releaseValve 2 (isLoading .valve) releaseBody s)

/-- READ_VALVES (R147). -/
def execReadValves (s : State) : Host.Outcome State Fault Refusal :=
  .next (runCommand .readValves 2 neverBusy readValvesBody s)

/-- READ_QUEUE (R185). -/
def execReadQueue (s : State) : Host.Outcome State Fault Refusal :=
  .next (runCommand .readQueue 1 neverBusy readQueueBody s)

/-- READ_SCHEDULE (R123). -/
def execReadSchedule (s : State) : Host.Outcome State Fault Refusal :=
  .next (runCommand .readSchedule 0 neverBusy (fun _ t => answer t.scheduleBytes t) s)

/-- READ_COUNTERS (R185). -/
def execReadCounters (s : State) : Host.Outcome State Fault Refusal :=
  .next (runCommand .readCounters 0 neverBusy (fun _ t => answer t.countersData t) s)

/-- CLEAR_COUNTERS (R186). -/
def execClearCounters (s : State) : Host.Outcome State Fault Refusal :=
  .next (runCommand .clearCounters 0 neverBusy (fun _ t => (clearAllCounters t, {})) s)

/-- CLEAR_ALARMS (R186). -/
def execClearAlarms (s : State) : Host.Outcome State Fault Refusal :=
  .next (runCommand .clearAlarms 0 neverBusy (fun _ t => (clearAlarms t, {})) s)

/-- ZERO_NOW (R52). -/
def execZeroNow (s : State) : Host.Outcome State Fault Refusal :=
  .next (runCommand .zeroNow 0 neverBusy (fun _ t => zeroNowBody t) s)

/-- RING_READ (R173). -/
def execRingRead (s : State) : Host.Outcome State Fault Refusal :=
  .next (runCommand .ringRead 0 neverBusy (fun _ t => answer t.ringBytes t) s)

/-- RING_FREEZE (R172). -/
def execRingFreeze (s : State) : Host.Outcome State Fault Refusal :=
  .next (runCommand .ringFreeze 0 neverBusy (fun _ t => (freezeRing .command t, {})) s)

/-- RING_THAW (R173). -/
def execRingThaw (s : State) : Host.Outcome State Fault Refusal :=
  .next (runCommand .ringThaw 0 neverBusy (fun _ t => (thawRing t, {})) s)

/-- CAPTURE_CONTROL (R178). -/
def execCaptureControl (s : State) : Host.Outcome State Fault Refusal :=
  .next (runCommand .captureControl 1 (isLoading .lineSetup) captureControlBody s)

/-- CAPTURE_DISCARD (R178). -/
def execCaptureDiscard (s : State) : Host.Outcome State Fault Refusal :=
  .next (runCommand .captureDiscard 0 neverBusy (fun _ t => (discardCaptures t, {})) s)

end Sys2Proof.Machine
end

