-- ==== Sys2Proof/Machine/Reader.lean ====
section
/-!
DEFINITION. The Reader Matcher (05_code_reading_and_resynchronisation.md): matching a read against the queue (R89 to R94),
the lot check (R95), the read stream (R87, R88).
-/

namespace Sys2Proof.Machine

/-- The state with its reader counters replaced. -/
def State.withReaderCounters (s : State) (c : ReaderCounters) : State :=
  { s with rm := { s.rm with counters := c } }

/-- The state with its clean run and unread run replaced. -/
def State.withRuns (s : State) (clean unread : Nat) : State :=
  { s with rm := { s.rm with cleanRun := clean, unreadRun := unread } }

/-- A run increased by one, held at 255 (R97). -/
def runUp (n : Nat) : Nat :=
  min (n + 1) 255

/-- The lot check of a TAG read against the product of the matched record: the current lot, or the previous lot for a can
number before the lot boundary plus the lot grace (R95). -/
def lotAccepted (setup : LineSetup) (p : Option Product) (boundary number : Word32) (lot : List Byte) : Bool :=
  match p with
  | none => false
  | some p =>
    p.currentLot.take setup.lotLength == lot ||
      match p.previousLot with
      | none => false
      | some prev =>
        prev.take setup.lotLength == lot && isBefore number (boundary + BitVec.ofNat 32 setup.lotGrace)

/-- A matched record: READ or MISMATCH by the lot check, its lot flag to agree, and PASSED_READER (R92 steps 1 to 3). -/
def markMatched (accepted : Bool) (r : CanRecord) : CanRecord :=
  { r with readResult := some (if accepted then .read else .mismatch), lotOk := accepted, stage := .passed }

/-- The lot check of the oldest CODED record against a lot text (R95). -/
def State.lotOf (s : State) (lot : List Byte) : Bool :=
  match s.tq.queue.find? CanRecord.isCoded with
  | none => false
  | some r => lotAccepted s.ma.setup s.pu.table[r.product] s.rm.lotBoundary[r.product] r.number lot

/-- The oldest CODED record is marked as matched; a MISMATCH is counted (R92, R93). -/
def markFirst (lot : List Byte) (s : State) : State :=
  let accepted := s.lotOf lot
  let t := s.withQueue (updateFirst CanRecord.isCoded (markMatched accepted) s.tq.queue)
  if accepted then t
  else t.withReaderCounters { t.rm.counters with mismatches := tally t.rm.counters.mismatches 1 }

/-- A read that finds no CODED record (R90). -/
def orphanRead (rd : CodeRead) (s : State) : State :=
  let t := s.withReaderCounters { s.rm.counters with orphan := tally s.rm.counters.orphan 1 }
  match rd with
  | .tag _ _ => t.withRuns 0 t.rm.unreadRun
  | .noRead | .null => t

/-- An unread mark of the expected record (R91), and the Tracking State evaluated after the increase (R98). -/
def unreadMark (s : State) : State :=
  let t := s.withQueue (updateFirst CanRecord.isCoded
    (fun r => { r with readResult := some .unread, lotOk := false, stage := .passed }) s.tq.queue)
  let u := t.withReaderCounters { t.rm.counters with unread := tally t.rm.counters.unread 1 }
  becomeLost ((u.withRuns 0 (runUp u.rm.unreadRun)).withRisen (some .unread))

/-- An exact match (R92), and the Tracking State evaluated after the increase (R98). -/
def exactMatch (lot : List Byte) (s : State) : State :=
  let t := markFirst lot s
  let u := t.withReaderCounters { t.rm.counters with exact := tally t.rm.counters.exact 1 }
  becomeSynced ((u.withRuns (runUp u.rm.cleanRun) 0).withRisen (some .clean))

/-- The list without its first `k` elements that satisfy `p`. -/
def removeFirstN {α : Type} (p : α → Bool) : Nat → List α → List α
  | 0, l => l
  | k + 1, l => removeFirstN p k (removeFirst p l)

/-- A lookahead match: the `k` CODED records before the matched one are removed MISSING, the matched one is marked, and
both runs become 0 (R93). -/
def lookaheadMatch (k : Nat) (lot : List Byte) (s : State) : State :=
  let removed := (s.tq.queue.filter CanRecord.isCoded).take k
  let t := handMissing s.pos.linePos removed (s.withQueue (removeFirstN CanRecord.isCoded k s.tq.queue))
  let u := markFirst lot t
  let v := u.withReaderCounters { u.rm.counters with slips := tally u.rm.counters.slips 1 }
  v.withRuns 0 0

/-- A duplicate read is counted and otherwise ignored (R94). -/
def duplicateRead (s : State) : State :=
  s.withReaderCounters { s.rm.counters with duplicate := tally s.rm.counters.duplicate 1 }

/-- The outcome of one read (R89), the tests made in order. -/
def matchRead (rd : CodeRead) (s : State) : State :=
  match s.tq.queue.filter CanRecord.isCoded with
  | [] => orphanRead rd s
  | expected :: following =>
    match rd with
    | .noRead => unreadMark s
    | .null => unreadMark s
    | .tag t lot =>
      if expected.tag = some t then exactMatch lot s
      else
        match (following.take s.ma.setup.lookahead).findIdx? fun r => r.tag == some t with
        | some i => lookaheadMatch (i + 1) lot s
        | none =>
          if s.tq.queue.any fun r => r.isPassed && r.tag == some t then duplicateRead s else unreadMark s

/-- `m` lost reads, each matched as a NO_READ (R87). -/
def matchLost : Nat → State → State
  | 0, s => s
  | m + 1, s => matchLost m (matchRead .noRead s)

/-- The gap of a read frame (R87, R88). -/
def readGap (seq : Byte) (s : State) : State :=
  match s.rm.expectation with
  | none => s
  | some e =>
    let m := seqGap seq e
    if m = 0 then s
    else if m ≤ Config.largestGap then
      let t := matchLost m s
      t.withReaderCounters { t.rm.counters with lostReads := tally t.rm.counters.lostReads m }
    else breakTracking (s.withReaderCounters { s.rm.counters with restarts := tally s.rm.counters.restarts 1 })

/-- A read frame is taken (R87): its gap, the expectation, its parsing (R86) and its own match. -/
def takeRead (c : Copy) (s : State) : State :=
  let t := readGap c.sequence s
  let rd := parseRead t.ma.setup c.payload
  matchRead rd.1 { t with rm := { t.rm with
    expectation := some (c.sequence + 1)
    counters := { t.rm.counters with
      readFrames := tally t.rm.counters.readFrames 1
      invalid := if rd.2 then tally t.rm.counters.invalid 1 else t.rm.counters.invalid } } }

end Sys2Proof.Machine
end

