-- ==== Sys2Proof/Machine/Events.lean ====
section
/-!
DEFINITION. The steps of the blocks by themselves: the copies and Window Results they take, the expiries of their timers
(R31), the upload (R177), and the steps of the opcode table that also stand inside others (log 9): each is the very
operation that the step around it makes, under its own condition.
-/

namespace Sys2Proof.Machine

/-! ## Copies taken -/

/-- A confirm frame is taken: its gap, then its own confirm (R116, R117). -/
def takeConfirm (c : Copy) (s : State) : State :=
  confirmOwn (confirmGap c.sequence s)

/-- ENCODER_FRAME (R22). -/
def execEncoderFrame (s : State) : Host.Outcome State Fault Refusal :=
  .next (onHanded .encoder (fun c => takeCount (encoderCount c.payload)) s)

/-- SAMPLE_FRAME (R34). -/
def execSampleFrame (s : State) : Host.Outcome State Fault Refusal :=
  .next (onHanded .samples (fun c => takeSamples c.payload) s)

/-- DISCHARGE_FRAME (R63). -/
def execDischargeFrame (s : State) : Host.Outcome State Fault Refusal :=
  .next (onHanded .discharge takeDischarge s)

/-- SEAM_FRAME (R69). -/
def execSeamFrame (s : State) : Host.Outcome State Fault Refusal :=
  .next (onHanded .seam takeSeam s)

/-- READ_FRAME (R87). -/
def execReadFrame (s : State) : Host.Outcome State Fault Refusal :=
  .next (onHanded .read takeRead s)

/-- CONFIRM_FRAME (R116). -/
def execConfirmFrame (s : State) : Host.Outcome State Fault Refusal :=
  .next (onHanded .confirm takeConfirm s)

/-- The oldest Window Result is taken by the Tracking Queue (R76); with none waiting nothing changes (log 8). -/
def nextResult (s : State) : State :=
  match s.fe.results with
  | [] => s
  | w :: rest => takeResult w (s.withFe { s.fe with results := rest })

/-- WINDOW_RESULT (R76). -/
def execWindowResult (s : State) : Host.Outcome State Fault Refusal :=
  .next (nextResult s)

/-! ## Timers (R31; a stopped timer does not expire, log 5) -/

/-- ENCODER_SILENCE_EXPIRY (R25). -/
def execEncoderSilenceExpiry (s : State) : Host.Outcome State Fault Refusal :=
  .next (if s.pos.timer.isSome then encoderSilence s else s)

/-- DIGITISER_SILENCE_EXPIRY (R47). -/
def execDigitiserSilenceExpiry (s : State) : Host.Outcome State Fault Refusal :=
  .next (if s.fe.timer.isSome then digitiserSilence s else s)

/-- The status interval timer restarted with the status interval of the moment; an interval of 0 runs no timer (R192). -/
def restartStatus (s : State) : State :=
  s.withMa { s.ma with
    statusTimer := if s.ma.setup.statusInterval = 0 then none else some s.ma.setup.statusInterval }

/-- The status interval timer expires (R192). -/
def statusExpiry (s : State) : State :=
  restartStatus (buildStatus s)

/-- STATUS_INTERVAL_EXPIRY (R192). -/
def execStatusIntervalExpiry (s : State) : Host.Outcome State Fault Refusal :=
  .next (if s.ma.statusTimer.isSome then statusExpiry s else s)

/-! ## Upload -/

/-- UPLOAD_START (R177). -/
def execUploadStart (s : State) : Host.Outcome State Fault Refusal :=
  .next (startUpload s)

/-- CAPTURE_SEGMENT (R177). -/
def execCaptureSegment (s : State) : Host.Outcome State Fault Refusal :=
  .next (produceSegment s)

/-! ## Steps that also stand inside others (log 9) -/

/-- MAX_AGE_REMOVAL (R75): at a tick that has raised the ages every record older than the max age is removed; without one
nothing changes (log 9, log 38). -/
def execMaxAgeRemoval (s : State) : Host.Outcome State Fault Refusal :=
  .next (removeAged s)

/-- A PENDING entry whose fire position Line Position has reached. -/
def RejectEntry.isDue (l : Word32) (e : RejectEntry) : Bool :=
  !e.fired && atOrAfter l e.firePos

/-- REJECT_FIRE (R114). -/
def execRejectFire (s : State) : Host.Outcome State Fault Refusal :=
  .next (fireFirst (RejectEntry.isDue s.pos.linePos) s)

/-- A FIRED entry whose confirm deadline Line Position has reached. -/
def RejectEntry.isOverdue (l : Word32) (e : RejectEntry) : Bool :=
  e.fired &&
    match e.deadline with
    | none => false
    | some x => atOrAfter l x

/-- CONFIRM_TIMEOUT (R118). -/
def execConfirmTimeout (s : State) : Host.Outcome State Fault Refusal :=
  .next (timeoutFirst (RejectEntry.isOverdue s.pos.linePos) s)

/-- ZERO_READING_START (R36): a raised belt-clear count is compared; without one nothing changes (log 9, log 38). -/
def execZeroReadingStart (s : State) : Host.Outcome State Fault Refusal :=
  .next (startZeroReading s)

/-- ZERO_READING_COMPLETE (R37). -/
def execZeroReadingComplete (s : State) : Host.Outcome State Fault Refusal :=
  .next (completeZeroReading s)

/-- SETTLE_COMPLETE (R43). -/
def execSettleComplete (s : State) : Host.Outcome State Fault Refusal :=
  .next (completeSettle s)

/-- WINDOW_CLOSE (R44). -/
def execWindowClose (s : State) : Host.Outcome State Fault Refusal :=
  .next (completeWindow s)

/-- CAPTURE_ARM (R174). No valve is above 95. -/
def execCaptureArm (valve : Byte) (s : State) : Host.Outcome State Fault Refusal :=
  .next (if h : valve.toNat < Config.valves then armValve ⟨valve.toNat, h⟩ s else s)

/-- VALVE_FAULT (R139). No valve is above 95. -/
def execValveFault (valve : Byte) (s : State) : Host.Outcome State Fault Refusal :=
  .next (if h : valve.toNat < Config.valves then enterFault ⟨valve.toNat, h⟩ s else s)

/-- TRACKING_SYNCED (R98): a risen clean run is compared; without one nothing changes (log 9, log 35). -/
def execTrackingSynced (s : State) : Host.Outcome State Fault Refusal :=
  .next (becomeSynced s)

/-- TRACKING_LOST (R98): a risen unread run is compared; without one nothing changes (log 9, log 35). -/
def execTrackingLost (s : State) : Host.Outcome State Fault Refusal :=
  .next (becomeLost s)

end Sys2Proof.Machine
end

