-- ==== Sys2Proof/Machine/Resets.lean ====
section
/-!
DEFINITION. POWER_ON (R4) and the five scopes of RESET (R193), each block by its own rules: R20, R56, R81, R82, R102, R125,
R148, R149, R167, R168, R179, R181.
-/

namespace Sys2Proof.Machine

/-! ## Power-on (R4) -/

/-- The number of high straps. -/
def highStraps (straps : BitVec 7) : Nat :=
  ((List.range 7).filter fun i => straps.getLsbD i).length

/-- Whether the parity of the seven straps is odd, as it shall be (R4). -/
def strapsOk (straps : BitVec 7) : Bool :=
  highStraps straps % 2 == 1

/-- The station number of the straps: the six address straps, or 63 when the parity is even (R4). -/
def stationOfStraps (straps : BitVec 7) : Byte :=
  if strapsOk straps then (straps.setWidth 6).setWidth 8 else 63

/-- Power is applied, or RESETn released: every block takes its power-on values and the straps are latched (R4). What waits
in the model's queue is the outside world's and stays. -/
def powerOnState (straps : BitVec 7) (s : State) : State :=
  { State.reset with
    fp := { State.reset.fp with station := stationOfStraps straps, parityFault := !strapsOk straps }
    pending := s.pending }

/-! ## FULL (R193) -/

/-- What a FULL reset leaves of a port: its link, the FORWARD queue and the frame in transmission (Table 1-12). -/
def PortState.keep (ps : PortState) : PortState :=
  { linkUp := ps.linkUp, forward := ps.forward, transmitting := ps.transmitting }

/-- What a FULL reset leaves of the Frame Path before the held stations are released (Table 1-12). Copies handed before the
reset and not yet taken are taken after it (DESIGN CHOICE, unsafe, log 17). -/
def FramePath.keep (fp : FramePath) : FramePath :=
  { station := fp.station, parityFault := fp.parityFault, portA := fp.portA.keep, portB := fp.portB.keep
    held := fp.held, handed := fp.handed }

/-- A FULL reset (R193): the power-on values of every block with the exceptions of Table 1-12, then a RELEASE to every held
station (R20, log 16). -/
def fullReset (s : State) : State :=
  { State.reset with
    fp := s.fp.keep.releaseHeld
    fe := { State.reset.fe with results := s.fe.results }
    ma := { State.reset.ma with executing := s.ma.executing }
    pending := s.pending }

/-! ## TRACKING (R56, R81, R102) -/

/-- The sequence expectations of the Tracking Queue and the Reader Matcher become absent. -/
def forgetSequences (s : State) : State :=
  { s with
    tq := { s.tq with dischargeExp := none, seamExp := none }
    rm := { s.rm with expectation := none } }

/-- A TRACKING reset: the queue is flushed, the expectations become absent, the Tracking State becomes NOT_SYNCED and an
open window is abandoned (R81, R102, R56). -/
def trackingReset (s : State) : State :=
  abandonWindow (loseQueue (forgetSequences (flushRecords s)))

/-! ## STATISTICS (R82, R102, R125, R148) -/

/-- A valve record with its statistics cleared (R148). -/
def ValveRecord.clearStatistics (r : ValveRecord) : ValveRecord :=
  { r.restart with weighed := 0, rejected := 0, trimChanges := 0 }

/-- A STATISTICS reset. -/
def statisticsReset (s : State) : State :=
  ({ s with
    tq := { s.tq with counters := {} }
    rm := { s.rm with counters := {} }
    jr := { s.jr with classes := Vector.replicate 12 0, rejectTotal := 0 } } : State).mapValves
      fun _ r => r.clearStatistics

/-! ## LOAD (R193) -/

/-- A LOAD reset: the load ends, the intake FIFO is emptied, the held stations are released (R193, R20). -/
def loadReset (s : State) : State :=
  let t := abortLoad s
  let u := t.withMa { t.ma with fifo := [] }
  u.withFp u.fp.releaseHeld

/-! ## The rows -/

/-- POWER_ON (R4). -/
def execPowerOn (straps : BitVec 7) (s : State) : Host.Outcome State Fault Refusal :=
  .next (powerOnState straps s)

/-- RESET FULL (R193). -/
def execResetFull (s : State) : Host.Outcome State Fault Refusal :=
  .next (runCommand .resetFull 1 neverBusy (fun _ t => (fullReset t, {})) s)

/-- RESET TRACKING (R81). -/
def execResetTracking (s : State) : Host.Outcome State Fault Refusal :=
  .next (runCommand .resetTracking 1 neverBusy (fun _ t => (trackingReset t, {})) s)

/-- RESET STATISTICS (R193). -/
def execResetStatistics (s : State) : Host.Outcome State Fault Refusal :=
  .next (runCommand .resetStatistics 1 neverBusy (fun _ t => (statisticsReset t, {})) s)

/-- RESET LOAD (R193). -/
def execResetLoad (s : State) : Host.Outcome State Fault Refusal :=
  .next (runCommand .resetLoad 1 neverBusy (fun _ t => (loadReset t, {})) s)

/-- RESET CAPTURE (R179). -/
def execResetCapture (s : State) : Host.Outcome State Fault Refusal :=
  .next (runCommand .resetCapture 1 neverBusy (fun _ t => (resetCaptureState t, {})) s)

end Sys2Proof.Machine
end

