-- ==== Sys2Proof/Machine/Timers.lean ====
section
/-!
DEFINITION. The millisecond step (R30, R31): every running timer of Table 2-2 counts it, and one whose last millisecond it
is expires by the operation of its row. The timers act on different state; the model takes them in the table's order.
-/

namespace Sys2Proof.Machine

/-- The encoder silence timer counts a millisecond (R25). -/
def msEncoder (s : State) : State :=
  match s.pos.timer with
  | none => s
  | some n => if n ≤ 1 then encoderSilence s else s.withPos { s.pos with timer := some (n - 1) }

/-- The digitiser silence timer counts a millisecond (R47). -/
def msDigitiser (s : State) : State :=
  match s.fe.timer with
  | none => s
  | some n => if n ≤ 1 then digitiserSilence s else s.withFe { s.fe with timer := some (n - 1) }

/-- The Hold expiry timer counts a millisecond (R17). -/
def msHold (s : State) : State :=
  match s.fp.holdTimer with
  | none => s
  | some n => if n ≤ 1 then clearHold s else s.withFp { s.fp with holdTimer := some (n - 1) }

/-- The load inactivity timer counts a millisecond (R189). -/
def msLoad (s : State) : State :=
  match s.ma.loadTimer with
  | none => s
  | some n => if n ≤ 1 then loadExpiry s else s.withMa { s.ma with loadTimer := some (n - 1) }

/-- The status interval timer counts a millisecond (R192). -/
def msStatus (s : State) : State :=
  match s.ma.statusTimer with
  | none => s
  | some n => if n ≤ 1 then statusExpiry s else s.withMa { s.ma with statusTimer := some (n - 1) }

/-- One millisecond step is delivered to every running timer (R30). -/
def millisecond (s : State) : State :=
  msStatus (msLoad (msHold (msDigitiser (msEncoder s))))

end Sys2Proof.Machine
end

