-- ==== Sys2Proof/Machine/Dispatch.lean ====
section
/-!
DEFINITION. The dispatch of the commands: one arm per row of spec/opcode_table.json.
-/

namespace Sys2Proof.Machine

def exec (i : Instr) (s : State) : Host.Outcome State Fault Refusal :=
  match i with
  | .powerOn straps => Sys2Proof.Machine.execPowerOn straps s
  | .frameReceived port whole frame => Sys2Proof.Machine.execFrameReceived port whole frame s
  | .holdExpiry => Sys2Proof.Machine.execHoldExpiry s
  | .egressStart port => Sys2Proof.Machine.execEgressStart port s
  | .transmitComplete port => Sys2Proof.Machine.execTransmitComplete port s
  | .linkDown port arriving => Sys2Proof.Machine.execLinkDown port arriving s
  | .linkUp port => Sys2Proof.Machine.execLinkUp port s
  | .intakeDeparture => Sys2Proof.Machine.execIntakeDeparture s
  | .identify => Sys2Proof.Machine.execIdentify s
  | .getStatus => Sys2Proof.Machine.execGetStatus s
  | .loadBegin => Sys2Proof.Machine.execLoadBegin s
  | .loadSegment => Sys2Proof.Machine.execLoadSegment s
  | .loadAbort => Sys2Proof.Machine.execLoadAbort s
  | .loadInactivityExpiry => Sys2Proof.Machine.execLoadInactivityExpiry s
  | .readTable => Sys2Proof.Machine.execReadTable s
  | .selectProduct => Sys2Proof.Machine.execSelectProduct s
  | .setLot => Sys2Proof.Machine.execSetLot s
  | .trimControl => Sys2Proof.Machine.execTrimControl s
  | .releaseValve => Sys2Proof.Machine.execReleaseValve s
  | .readValves => Sys2Proof.Machine.execReadValves s
  | .readQueue => Sys2Proof.Machine.execReadQueue s
  | .readSchedule => Sys2Proof.Machine.execReadSchedule s
  | .readCounters => Sys2Proof.Machine.execReadCounters s
  | .clearCounters => Sys2Proof.Machine.execClearCounters s
  | .clearAlarms => Sys2Proof.Machine.execClearAlarms s
  | .zeroNow => Sys2Proof.Machine.execZeroNow s
  | .ringRead => Sys2Proof.Machine.execRingRead s
  | .ringFreeze => Sys2Proof.Machine.execRingFreeze s
  | .ringThaw => Sys2Proof.Machine.execRingThaw s
  | .captureControl => Sys2Proof.Machine.execCaptureControl s
  | .captureDiscard => Sys2Proof.Machine.execCaptureDiscard s
  | .resetFull => Sys2Proof.Machine.execResetFull s
  | .resetTracking => Sys2Proof.Machine.execResetTracking s
  | .resetStatistics => Sys2Proof.Machine.execResetStatistics s
  | .resetLoad => Sys2Proof.Machine.execResetLoad s
  | .resetCapture => Sys2Proof.Machine.execResetCapture s
  | .encoderFrame => Sys2Proof.Machine.execEncoderFrame s
  | .maxAgeRemoval => Sys2Proof.Machine.execMaxAgeRemoval s
  | .rejectFire => Sys2Proof.Machine.execRejectFire s
  | .confirmTimeout => Sys2Proof.Machine.execConfirmTimeout s
  | .encoderSilenceExpiry => Sys2Proof.Machine.execEncoderSilenceExpiry s
  | .sampleFrame => Sys2Proof.Machine.execSampleFrame s
  | .zeroReadingStart => Sys2Proof.Machine.execZeroReadingStart s
  | .zeroReadingComplete => Sys2Proof.Machine.execZeroReadingComplete s
  | .settleComplete => Sys2Proof.Machine.execSettleComplete s
  | .windowClose => Sys2Proof.Machine.execWindowClose s
  | .digitiserSilenceExpiry => Sys2Proof.Machine.execDigitiserSilenceExpiry s
  | .windowResult => Sys2Proof.Machine.execWindowResult s
  | .captureArm valve => Sys2Proof.Machine.execCaptureArm valve s
  | .dischargeFrame => Sys2Proof.Machine.execDischargeFrame s
  | .valveFault valve => Sys2Proof.Machine.execValveFault valve s
  | .seamFrame => Sys2Proof.Machine.execSeamFrame s
  | .readFrame => Sys2Proof.Machine.execReadFrame s
  | .trackingSynced => Sys2Proof.Machine.execTrackingSynced s
  | .trackingLost => Sys2Proof.Machine.execTrackingLost s
  | .confirmFrame => Sys2Proof.Machine.execConfirmFrame s
  | .uploadStart => Sys2Proof.Machine.execUploadStart s
  | .captureSegment => Sys2Proof.Machine.execCaptureSegment s
  | .statusIntervalExpiry => Sys2Proof.Machine.execStatusIntervalExpiry s

end Sys2Proof.Machine
end

