-- ==== Sys2Proof/Safety.lean ====
section
/-!
DEFINITION. What a run of the CW640 keeps: the invariants of its blocks, each from the rules that bound or tie its state,
and what it is for the device to execute a command or to hold a copy. The statements are written in these terms.
-/

namespace Sys2Proof.Machine

/-! ## What a statement supposes of the state -/

/-- The command `c` has begun and a row of the opcode table executes it: it is of the kind of that row (R182). -/
def State.executes (s : State) (kind : CommandKind) (c : Copy) : Prop :=
  s.ma.executing = some c ∧ commandClass c.payload = .known kind

/-- The arguments of a command: what its payload holds after command code and request tag (R183). -/
def Copy.args (c : Copy) : List Byte :=
  c.payload.drop 2

/-- The state after the reply to a command is offered and its execution has ended, the command's effect having given the
state `t` (R182, R183). -/
def State.replied (t : State) (c : Copy) (r : Reply) : State :=
  finish c r t

/-- The state after a command is answered OK with data and no effect (R183, R185). -/
def State.answered (s : State) (c : Copy) (data : List Byte) : State :=
  s.replied c { data := data }

/-- The oldest copy handed to a role's block is `c`, and `rest` are the copies that stay when it is taken (R8). -/
def State.hands (s : State) (role : Role) (c : Copy) (rest : List (Role × Copy)) : Prop :=
  ∃ before after, s.fp.handed = before ++ (role, c) :: after ∧ (∀ h ∈ before, h.1 ≠ role) ∧ rest = before ++ after

/-- The state in which the block of a role has taken a copy and nothing else has changed yet. -/
def State.taken (s : State) (rest : List (Role × Copy)) : State :=
  s.withFp { s.fp with handed := rest }

/-- The row of the opcode table that executes a command of a kind (Table 11-3). -/
def CommandKind.row : CommandKind → Instr
  | .identify => .identify
  | .getStatus => .getStatus
  | .loadBegin => .loadBegin
  | .loadSegment => .loadSegment
  | .loadAbort => .loadAbort
  | .readTable => .readTable
  | .selectProduct => .selectProduct
  | .setLot => .setLot
  | .trimControl => .trimControl
  | .releaseValve => .releaseValve
  | .readValves => .readValves
  | .readQueue => .readQueue
  | .readSchedule => .readSchedule
  | .readCounters => .readCounters
  | .clearCounters => .clearCounters
  | .clearAlarms => .clearAlarms
  | .zeroNow => .zeroNow
  | .ringRead => .ringRead
  | .ringFreeze => .ringFreeze
  | .ringThaw => .ringThaw
  | .captureControl => .captureControl
  | .captureDiscard => .captureDiscard
  | .resetFull => .resetFull
  | .resetTracking => .resetTracking
  | .resetStatistics => .resetStatistics
  | .resetLoad => .resetLoad
  | .resetCapture => .resetCapture

/-- The bytes of arguments that a command requires (Table 12-4). -/
def CommandKind.need : CommandKind → Nat
  | .loadBegin => 4
  | .loadSegment => 2
  | .readTable => 3
  | .selectProduct => 1
  | .setLot => 8
  | .trimControl => 1
  | .releaseValve => 2
  | .readValves => 2
  | .readQueue => 1
  | .captureControl => 1
  | .identify | .getStatus | .loadAbort | .readSchedule | .readCounters | .clearCounters | .clearAlarms | .zeroNow
  | .ringRead | .ringFreeze | .ringThaw | .captureDiscard | .resetFull | .resetTracking | .resetStatistics | .resetLoad
  | .resetCapture => 0

/-- A load of the table that a command touches, which refuses it with BUSY (R189). -/
def State.loadBars (s : State) : CommandKind → Prop
  | .loadBegin => s.ma.load ≠ none
  | .selectProduct | .setLot => ∃ d, s.ma.load = some d ∧ d.table = .product
  | .releaseValve => ∃ d, s.ma.load = some d ∧ d.table = .valve
  | .captureControl => ∃ d, s.ma.load = some d ∧ d.table = .lineSetup
  | .identify | .getStatus | .loadSegment | .loadAbort | .readTable | .trimControl | .readValves | .readQueue
  | .readSchedule | .readCounters | .clearCounters | .clearAlarms | .zeroNow | .ringRead | .ringFreeze | .ringThaw
  | .captureDiscard | .resetFull | .resetTracking | .resetStatistics | .resetLoad | .resetCapture => False

/-! ## What a statement says of the next state -/

/-- The parts of the state. -/
inductive Block where
  | fp
  | pos
  | fe
  | tq
  | rm
  | jr
  | te
  | rw
  | pu
  | rc
  | ma
  | pending
  deriving DecidableEq, Repr

/-- Two states hold the same in a block. -/
def State.agrees (b : Block) (s t : State) : Prop :=
  match b with
  | .fp => t.fp = s.fp
  | .pos => t.pos = s.pos
  | .fe => t.fe = s.fe
  | .tq => t.tq = s.tq
  | .rm => t.rm = s.rm
  | .jr => t.jr = s.jr
  | .te => t.te = s.te
  | .rw => t.rw = s.rw
  | .pu => t.pu = s.pu
  | .rc => t.rc = s.rc
  | .ma => t.ma = s.ma
  | .pending => t.pending = s.pending

/-- The second state differs from the first in the listed blocks at most. -/
def OnlyChanges (l : List Block) (s t : State) : Prop :=
  ∀ b, b ∉ l → State.agrees b s t

/-- The state with one port changed and nothing else. -/
def State.onPort (s : State) (p : Port) (f : PortState → PortState) : State :=
  s.withFp (s.fp.setPort p (f (s.fp.port p)))

/-- The reception of a frame on a port with its link up passes both checks of R1. -/
def State.accepts (s : State) (p : Port) (frame : Frame) : Prop :=
  (s.fp.port p).linkUp = true ∧ fcsOk frame = true ∧ 64 ≤ frame.length ∧ frame.length ≤ 1518

/-- The state with one more frame received on a port (R1, R16). -/
def State.received (s : State) (p : Port) : State :=
  s.onPort p fun ps => { ps with counters := { ps.counters with received := tally ps.counters.received 1 } }

/-- The state with a frame offered to the FORWARD queue of the opposite port (R2). -/
def State.forwardedTo (s : State) (arrival : Port) (frame : Frame) : State :=
  s.onPort (otherPort arrival) fun ps =>
    if ps.linkUp = true ∧ ps.forward.length < 16 then { ps with forward := ps.forward ++ [frame] }
    else { ps with counters := { ps.counters with dropped := tally ps.counters.dropped 1 } }

/-- A payload that is not malformed for a role: the minimum and the count fields of Table 12-3 (R196). -/
def wellFormedFor (role : Role) (payload : List Byte) : Prop :=
  match role with
  | .none => True
  | .samples =>
    1 ≤ (byteAt payload 2).toNat ∧ (byteAt payload 2).toNat ≤ 16 ∧ 5 + 3 * (byteAt payload 2).toNat ≤ payload.length
  | .encoder => 2 ≤ payload.length
  | .discharge => 3 ≤ payload.length
  | .seam => 1 ≤ payload.length
  | .read => (byteAt payload 1).toNat ≤ 24 ∧ 2 ≤ payload.length ∧ 2 + (byteAt payload 1).toNat ≤ payload.length
  | .dose =>
    1 ≤ (byteAt payload 1).toNat ∧ (byteAt payload 1).toNat ≤ 24 ∧ 2 + 2 * (byteAt payload 1).toNat ≤ payload.length
  | .confirm => True

/-- A Line Position is a pitch boundary of a grid (section 2.3): it leaves the phase as residue. -/
def isBoundary (pitch phase : Nat) (x : Word32) : Bool :=
  ((x.toNat : Int) - phase) % pitch == 0

/-- The boundaries among the `d` positions after `l`, in order along the step (R23). -/
def boundariesPassed (l : Word32) (d pitch phase : Nat) : List Word32 :=
  ((List.range d).map fun i => l + BitVec.ofNat 32 (i + 1)).filter (isBoundary pitch phase)

/-- What `n` ticks in turn leave of the records: each is older by `n`, held at 1,023, and none is older than the max age
(R74, R75). -/
def agedBy (n maxAge : Nat) (q : List CanRecord) : List CanRecord :=
  if n = 0 then q
  else (q.map fun r => { r with age := min (r.age + n) 1023 }).filter fun r => decide (r.age ≤ maxAge)

/-- The ring after entries are written in turn, each pushing the oldest out beyond 32; a frozen ring stays (R170). -/
def RingCapture.ringAfter (rc : RingCapture) (entries : List RingEntry) : List RingEntry :=
  if rc.freeze = .notFrozen then (rc.ring ++ entries).drop ((rc.ring ++ entries).length - 32) else rc.ring

/-- The burst history after one outcome is taken, the oldest dropped beyond 32 (R171). -/
def RingCapture.burstAfter (rc : RingCapture) (weightReject : Bool) : List Bool :=
  (rc.burst ++ [weightReject]).drop ((rc.burst ++ [weightReject]).length - 32)

/-- The newest W outcomes of a history hold K weight rejects or more, and K is not 0 (R171). -/
def LineSetup.burstIn (u : LineSetup) (history : List Bool) : Prop :=
  u.burstK ≠ 0 ∧ u.burstK ≤ (history.drop (history.length - u.burstW)).count true

/-- What the ring's freeze becomes when a JUDGED entry leaves a burst history (R171, R172): a burst makes it ALARM with cause
BURST unless it is ALARM already. -/
def State.burstFreezes (s : State) (history : List Bool) (rc : RingCapture) : Prop :=
  (s.ma.setup.burstIn history ∧ s.rc.freeze ≠ .alarm → rc.freeze = .alarm ∧ rc.cause = some .burst) ∧
    (¬ s.ma.setup.burstIn history ∨ s.rc.freeze = .alarm → rc.freeze = s.rc.freeze ∧ rc.cause = s.rc.cause)

/-- What scheduling a judged can leaves of the Judgement and Reject Unit (R109, R111, R112, R114, R115, R120). Scheduled, its
entry stands after every entry that fires no later: PENDING at its fire position without a deadline, or, when late, FIRED
at the current Line Position with a deadline a confirm window on. Late, fired and lost rejects are counted, and Line Stop
Request rises for a reject that is lost, or that is scheduled while ENCODER_FAULT stands. -/
def State.schedulesInto (s t : State) (number : Option Word32) (cls : CanClass) (entryPos : Word32)
    (rejected late scheduled : Bool) : Prop :=
  t.jr = { s.jr with
    classes := t.jr.classes
    schedule := t.jr.schedule
    rejectTotal := if rejected then tally s.jr.rejectTotal 1 else s.jr.rejectTotal
    lineStop := s.jr.lineStop || (rejected && (!scheduled || s.pos.fault))
    counters := { s.jr.counters with
      late := if late then tally s.jr.counters.late 1 else s.jr.counters.late
      fired := if late && scheduled then tally s.jr.counters.fired 1 else s.jr.counters.fired
      lost := if rejected && !scheduled then tally s.jr.counters.lost 1 else s.jr.counters.lost } } ∧
  (∀ i : Fin 12, t.jr.classes[i] = if i = classIndex cls then tally s.jr.classes[i] 1 else s.jr.classes[i]) ∧
  (scheduled = false → t.jr.schedule = s.jr.schedule) ∧
  (scheduled = true → ∃ (before after : List RejectEntry) (e : RejectEntry),
    s.jr.schedule = before ++ after ∧ t.jr.schedule = before ++ e :: after ∧
    e = { number := number, cls := cls, late := late, fired := late
          firePos := if late then s.pos.linePos else firePosition s.pos s.ma.setup.rejectOffset entryPos
          deadline := if late then some (s.pos.linePos + BitVec.ofNat 32 s.ma.setup.confirmWindow) else none } ∧
    (∀ x ∈ before, isBefore e.firePos x.firePos = false) ∧
    ∀ x, after.head? = some x → isBefore e.firePos x.firePos = true) ∧
  ∀ p : Port, (t.fp.port p).reject = (s.fp.port p).reject ++
    (if late = true ∧ scheduled = true ∧ p = s.ma.setup.rejectorPort then
      [insertedFrame s.fp.station s.ma.setup.rejector 240 s.fp.seqMgmt
        ([0x82, BitVec.ofNat 8 (classIndex cls).val] ++ beBytes 2 s.ma.setup.rejectPulse ++
          beBytes 4 (match number with | none => 4294967295 | some n => n.toNat))]
     else [])

/-- A capture is stored in a slot as the newest one, with the capture number of the moment (R175, R176). -/
def RingCapture.storesAt (rc after : RingCapture) (threshold : Nat) (i : Fin 4) (c : Capture) : Prop :=
  after.slots[i] = .stored c ∧ (∀ j : Fin 4, j ≠ i → after.slots[j] = rc.slots[j]) ∧
    after.order = rc.order.filter (fun j => j != i) ++ [i] ∧ after.captureNumber = rc.captureNumber + 1 ∧
    after.captureReady = decide (threshold ≤ (after.slots.toList.filter Slot.isStored).length)

/-- A judged can is fed to the statistics of its valve: the seven conditions of R141. -/
def State.feedsCan (s : State) (v : Fin Config.valves) (r : CanRecord) (w : WindowResult) (cls : CanClass) : Prop :=
  (s.te.mode = .auto ∧ s.te.trimHold = false) ∧ s.te.valves[v].state = .collecting ∧ r.settled = true ∧
    r.epoch = s.rw.epoch[v] ∧ (cls = .ok ∨ cls = .low ∨ cls = .high) ∧ w.short = false ∧ s.pu.active = some r.product

/-- A running timer stands at its last millisecond. -/
def atLast : Option Nat → Bool
  | none => false
  | some n => decide (n ≤ 1)

/-- A timer after a millisecond that is not its last. -/
def countDown (o : Option Nat) : Option Nat :=
  if atLast o then o else o.map (· - 1)

/-- The state with every running timer that is not at its last millisecond counted down by one (R31). -/
def State.countedDown (s : State) : State :=
  { s with
    pos := { s.pos with timer := countDown s.pos.timer }
    fe := { s.fe with timer := countDown s.fe.timer }
    fp := { s.fp with holdTimer := countDown s.fp.holdTimer }
    ma := { s.ma with loadTimer := countDown s.ma.loadTimer, statusTimer := countDown s.ma.statusTimer } }

/-- The expiries that a millisecond brings about: those of the timers at their last one, in the order of log 4. -/
def State.expiries (s : State) : List Instr :=
  ([(s.pos.timer, Instr.encoderSilenceExpiry), (s.fe.timer, .digitiserSilenceExpiry), (s.fp.holdTimer, .holdExpiry),
    (s.ma.loadTimer, .loadInactivityExpiry), (s.ma.statusTimer, .statusIntervalExpiry)].filter
      fun x => atLast x.1).map Prod.snd

/-- The room that a port has for REPLY frames: none while its link is down (R14). -/
def PortState.replyRoom (ps : PortState) : Nat :=
  if ps.linkUp then 4 - ps.reply.length else 0

/-- The RELEASE frames that join the REPLY queues of the two ports when the held stations are released, oldest first, with the
port of each (R11, R19): a station whose port has no room left is offered one in vain, which takes no number. -/
def releaseFrames (station : Byte) : Byte → Nat → Nat → List (Byte × Port) → List (Port × Frame)
  | _, _, _, [] => []
  | seq, roomA, roomB, (dest, .a) :: rest =>
    if roomA = 0 then releaseFrames station seq roomA roomB rest
    else (.a, insertedFrame station dest 241 seq [2]) :: releaseFrames station (seq + 1) (roomA - 1) roomB rest
  | seq, roomA, roomB, (dest, .b) :: rest =>
    if roomB = 0 then releaseFrames station seq roomA roomB rest
    else (.b, insertedFrame station dest 241 seq [2]) :: releaseFrames station (seq + 1) roomA (roomB - 1) rest

/-- The RELEASE frames of a Frame Path's held stations. -/
def FramePath.releases (fp : FramePath) : List (Port × Frame) :=
  releaseFrames fp.station fp.seqFlow fp.portA.replyRoom fp.portB.replyRoom fp.held

/-- A port after the held stations are released (R14, R19): the RELEASE frames of that port join its REPLY queue in turn, and
those offered in vain are counted as dropped. -/
def FramePath.portReleased (fp : FramePath) (p : Port) : PortState :=
  { fp.port p with
    reply := (fp.port p).reply ++ (fp.releases.filter fun x => x.1 == p).map Prod.snd
    counters := { (fp.port p).counters with
      dropped := tally (fp.port p).counters.dropped
        ((fp.held.filter fun h => h.2 == p).length - (fp.releases.filter fun x => x.1 == p).length) } }

/-- The Frame Path after the held stations are released (R11, R19, R20): the set is empty, and each RELEASE that joined took a
number of channel 241. -/
def FramePath.released (fp : FramePath) : FramePath :=
  { fp with
    portA := fp.portReleased .a
    portB := fp.portReleased .b
    held := []
    seqFlow := fp.seqFlow + BitVec.ofNat 8 fp.releases.length }

/-- The controller port after status frames with the payloads join its STATUS queue in turn (R11, R14): each takes the next
number of channel 240, the oldest frames beyond 2 are lost and counted as dropped; with the link down each new one is. -/
def State.statusPort (s : State) (payloads : List (List Byte)) : PortState :=
  let ps := s.fp.port s.ma.setup.controllerPort
  if ps.linkUp then
    { ps with
      status := (ps.status ++ payloads.mapIdx fun i payload =>
        insertedFrame s.fp.station s.ma.setup.controller 240 (s.fp.seqMgmt + BitVec.ofNat 8 i) payload).drop
          (payloads.length - (2 - ps.status.length))
      counters := { ps.counters with
        dropped := tally ps.counters.dropped (payloads.length - (2 - ps.status.length)) } }
  else { ps with counters := { ps.counters with dropped := tally ps.counters.dropped payloads.length } }

/-- What `n` changes of the status word make of the Frame Path (R191): as many status frames are offered to the controller port
and nothing else differs; without a controller nothing does. -/
def State.buildsStatus (s : State) (n : Nat) (fp : FramePath) : Prop :=
  ∃ payloads : List (List Byte), payloads.length = (if s.ma.setup.controller = 255 then 0 else n) ∧
    fp = { s.fp.setPort s.ma.setup.controllerPort (s.statusPort payloads) with
      seqMgmt := s.fp.seqMgmt +
        BitVec.ofNat 8 (if (s.fp.port s.ma.setup.controllerPort).linkUp then payloads.length else 0) }

/-- The fields of a product record fit the bytes of their entry (Tables 9-2 and 12-6). -/
def Product.fits (p : Product) : Prop :=
  p.name.length = 16 ∧ p.currentLot.length = 8 ∧ (∀ l, p.previousLot = some l → l.length = 8) ∧
    -2147483648 ≤ p.rejectLow ∧ p.rejectHigh ≤ 2147483647 ∧ p.doseMax ≤ 65535 ∧ p.deadband ≤ 65535 ∧
    p.gq ≤ 16777215 ∧ p.settle ≤ 255

/-- The fields of a Line Setup record fit the bytes of its entry (Tables 11-4 and 12-6). -/
def LineSetup.fits (u : LineSetup) : Prop :=
  u.pitch ≤ 65535 ∧ u.digitiserSilence ≤ 255 ∧ u.beltClearSamples ≤ 65535 ∧ u.zeroTrackLimit ≤ 16777215 ∧
    u.zeroCaptureLimit ≤ 16777215 ∧ u.lotGrace ≤ 255 ∧ u.rejectOffset ≤ 16777215 ∧ u.rejectPulse ≤ 65535 ∧
    u.confirmWindow ≤ 65535

/-- Fields laid out one directly after the other, each as its size in bytes and its value, most significant byte first (R194,
R195). -/
def laidOut (fields : List (Nat × Nat)) : List Byte :=
  fields.flatMap fun f => beBytes f.1 f.2

/-- A signed field of a size: its value in two's complement (R194). -/
def signedField (size : Nat) (x : Int) : Nat × Nat :=
  (size, (x % (256 ^ size : Int)).toNat)

/-- A field of flags: the first in bit 0 (Table 12-7). -/
def flagField (size : Nat) (flags : List Bool) : Nat × Nat :=
  (size, ((List.range flags.length).map fun i => (flags.getD i false).toNat * 2 ^ i).sum)

/-! ## Invariants -/

/-- The queues of a port hold no more than Table 1-11 lets them. -/
def PortState.withinCapacity (ps : PortState) : Prop :=
  ps.reject.length ≤ 4 ∧ ps.forward.length ≤ 16 ∧ ps.printTag.length ≤ 4 ∧ ps.reply.length ≤ 4 ∧
    ps.status.length ≤ 2 ∧ ps.capture.length ≤ 2

/-- A port whose link is down holds no frame and sends none (R15). -/
def PortState.silentWhenDown (ps : PortState) : Prop :=
  ps.linkUp = false →
    ps.reject = [] ∧ ps.forward = [] ∧ ps.printTag = [] ∧ ps.reply = [] ∧ ps.status = [] ∧ ps.capture = [] ∧
      ps.transmitting = none

/-- The Frame Path keeps its capacities (R2, R14, R18, R182), a downed port is empty (R15), no station is held twice (R18),
and the Hold stands exactly while its timer runs (R17). -/
def State.frameInv (s : State) : Prop :=
  s.fp.portA.withinCapacity ∧ s.fp.portB.withinCapacity ∧ s.fp.portA.silentWhenDown ∧ s.fp.portB.silentWhenDown ∧
    s.ma.fifo.length ≤ 8 ∧ s.fp.held.length ≤ 8 ∧ (s.fp.held.map Prod.fst).Nodup ∧
    s.fp.holdStanding = s.fp.holdTimer.isSome

/-- The Line Setup record is one that R190 accepts, and the status interval timer runs exactly while the interval is not 0
(R192). -/
def State.setupInv (s : State) : Prop :=
  s.ma.setup.inRange = true ∧ s.ma.setup.related = true ∧
    (s.ma.statusTimer.isSome = true ↔ s.ma.setup.statusInterval ≠ 0)

/-- A load descriptor is one that R187 accepts, with eight entries staged for every segment taken (R188). -/
def LoadDesc.staged (d : LoadDesc) (staging : List (List Byte)) : Prop :=
  1 ≤ d.count ∧ d.first + d.count ≤ tableSize d.table ∧ d.segments = (d.count + 7) / 8 ∧ d.expected < d.segments ∧
    staging.length = 8 * d.expected

/-- The load in progress, or none with nothing staged; the inactivity timer runs exactly while LOADING (R187 to R189). -/
def State.loadInv (s : State) : Prop :=
  s.ma.loadTimer.isSome = s.ma.load.isSome ∧
    match s.ma.load with
    | none => s.ma.staging = []
    | some d => d.staged s.ma.staging

/-- The working grid and the residue of Line Position on it, and a pending grid that is one (R21, R23, R27); the encoder
silence timer is stopped exactly while ENCODER_FAULT is set (R25, R26). -/
def State.positionInv (s : State) : Prop :=
  s.pos.phase < s.pos.pitch ∧ s.pos.residue = gridResidue s.pos.linePos s.pos.pitch s.pos.phase ∧
    (∀ g, s.pos.pendingGrid = some g → g.2 < g.1) ∧ s.pos.timer.isSome = !s.pos.fault

/-- The Front End has an open window exactly in SETTLE and WINDOW (Table 3-3), its silence timer is stopped and
WEIGHER_SILENT set exactly in SILENT (R35, R47), and the accumulator is empty outside a zero reading (R36 to R38). -/
def State.windowInv (s : State) : Prop :=
  (s.fe.window.isSome = true ↔ s.fe.mode = .settle ∨ s.fe.mode = .window) ∧
    (s.fe.weigherSilent = true ↔ s.fe.mode = .silent) ∧ (s.fe.timer = none ↔ s.fe.mode = .silent) ∧
    (s.fe.mode ≠ .zeroReading → s.fe.accSum = 0 ∧ s.fe.accCount = 0) ∧
    (s.fe.mode = .zeroReading → s.fe.accCount < 32)

/-- The window buffer holds the entry sample, the settle samples and the summed samples of the latest window, at most 384
(R48), and an open window has reached neither end of its counts (R43, R44). -/
def State.bufferInv (s : State) : Prop :=
  s.fe.buffer.length ≤ 384 ∧
    ∀ w, s.fe.window = some w →
      w.settle + w.length ≤ 383 ∧ 1 ≤ w.length ∧
        (s.fe.mode = .settle → w.settleCount < w.settle ∧ w.count = 0 ∧ s.fe.buffer.length = 1 + w.settleCount) ∧
        (s.fe.mode = .window → w.count < w.length ∧ s.fe.buffer.length = 1 + w.settle + w.count)

/-- Every product record is one that R159 accepts, and its dose limits are 16-bit values (Table 9-2). -/
def State.tableInv (s : State) : Prop :=
  ∀ (k : Fin 16) (p : Product), s.pu.table[k] = some p → p.inRange = true ∧ p.related = true ∧ p.doseMax ≤ 65535

/-- The active product and the product of every queued record name slots that hold a record (R160, R162). -/
def State.productInv (s : State) : Prop :=
  (∀ k, s.pu.active = some k → s.pu.table[k].isSome = true) ∧ ∀ r ∈ s.tq.queue, s.pu.table[r.product].isSome = true

/-- A Can Record's stage agrees with its tag and its read result (R60, R69, R71, R91, R92), and its age is in range. -/
def CanRecord.wellStaged (r : CanRecord) : Prop :=
  (r.stage = .filled ↔ r.tag = none) ∧ (r.stage = .passed ↔ r.readResult.isSome = true) ∧ r.age ≤ 1023

/-- The Tracking Queue holds at most 128 records (R59), each well staged, and the tag counter is 0 to 4,094 (R79). -/
def State.queueInv (s : State) : Prop :=
  s.tq.queue.length ≤ 128 ∧ (∀ r ∈ s.tq.queue, r.wellStaged) ∧ s.tq.tagCounter.toNat ≤ 4094

/-- How long ago a can number was given, counted in cans: 1 for the newest (R59, R78). -/
def Tracking.cansSince (q : Tracking) (number : Word32) : Nat :=
  (q.canCounter - number).toNat

/-- How long ago a tag was issued, counted in tags: 1 for the newest (R72). -/
def Tracking.tagsSince (q : Tracking) (tag : Tag) : Nat :=
  (q.tagCounter.toNat + 4095 - tag.toNat - 1) % 4095 + 1

/-- The place of a stage in the order FILLED, CODED, PASSED_READER (R60). -/
def Stage.rank : Stage → Nat
  | .filled => 0
  | .coded => 1
  | .passed => 2

/-- The cans that records account for: one each, and eight more for each PASSED_READER record, which a lookahead match may
have removed before it (R93). -/
def cansSpanned (q : List CanRecord) : Nat :=
  q.length + 8 * q.countP CanRecord.isPassed

/-- The order of the Tracking Queue. From head to tail the stages and the ages never increase (R60), can numbers strictly
increase in modular order (R59), and tags other than the null tag are issued ones, each later than those before it, so that
no two are the same (R72). What keeps this so: a record not yet passed has lost no record behind it, a passed one at most
eight for each passed record, and no more tags were issued since a record's own than cans left the FILLED stage behind it. -/
def State.orderInv (s : State) : Prop :=
  s.tq.queue.Pairwise (fun x y =>
    y.stage.rank ≤ x.stage.rank ∧ y.age ≤ x.age ∧ s.tq.cansSince y.number < s.tq.cansSince x.number ∧
      ∀ a b : Tag, x.tag = some a → y.tag = some b → a ≠ 4095 → b ≠ 4095 → s.tq.tagsSince b < s.tq.tagsSince a) ∧
    ∀ (before after : List CanRecord) (r : CanRecord), s.tq.queue = before ++ r :: after →
      1 ≤ s.tq.cansSince r.number ∧ s.tq.cansSince r.number ≤ cansSpanned (r :: after) ∧
        (r.stage ≠ .passed → s.tq.cansSince r.number = (r :: after).length) ∧
        ∀ tag : Tag, r.tag = some tag → tag ≠ 4095 →
          tag.toNat ≤ 4094 ∧ s.tq.tagsSince tag + s.tq.queue.countP CanRecord.isFilled ≤ s.tq.cansSince r.number

/-- ORPHAN and NO_WEIGHT are rejected (R108), the schedule holds at most 32 entries (R110), an entry has a deadline exactly
when it is FIRED (Table 6-3), and only a FIRED entry is LATE (R112). -/
def State.rejectInv (s : State) : Prop :=
  s.jr.policy[0] = true ∧ s.jr.policy[1] = true ∧ s.jr.schedule.length ≤ 32 ∧
    ∀ e ∈ s.jr.schedule, e.fired = e.deadline.isSome ∧ (e.late = true → e.fired = true)

/-- A PENDING entry's fire position lies ahead of Line Position, at most a reject offset and a pitch; a FIRED entry's lies at or
behind it, and its deadline ahead of it, within a confirm window of each other (R110). -/
def RejectEntry.nearLine (l : Word32) (e : RejectEntry) : Prop :=
  (e.fired = false → 1 ≤ (e.firePos - l).toNat ∧ (e.firePos - l).toNat ≤ 33554432) ∧
    (e.fired = true → ∃ x, e.deadline = some x ∧ 1 ≤ (x - l).toNat ∧ (l - e.firePos).toNat + (x - l).toNat ≤ 65535)

/-- The order of the Reject Schedule (R110): fire positions never decrease in modular order, so that the FIRED entries stand
before the PENDING ones; no can number stands in it twice, nor in the Tracking Queue still; and every entry is near Line
Position, by the widths of the fields that set the distances (Table 11-4). -/
def State.scheduleInv (s : State) : Prop :=
  s.ma.setup.fits ∧ s.pos.pitch ≤ 65535 ∧ (∀ g, s.pos.pendingGrid = some g → g.1 ≤ 65535) ∧
    (∀ e ∈ s.jr.schedule, e.nearLine s.pos.linePos) ∧
    s.jr.schedule.Pairwise (fun x y => atOrAfter y.firePos x.firePos = true ∧ (x.fired = false → y.fired = false)) ∧
    (s.jr.schedule.filterMap (fun e => e.number)).Nodup ∧
    ∀ e ∈ s.jr.schedule, ∀ r ∈ s.tq.queue, e.number ≠ some r.number

/-- A valve's state agrees with its mode and the valve count (R128, R129). -/
def State.valveStateOk (s : State) (v : Fin Config.valves) : Prop :=
  if v.val < s.ma.setup.valveCount then
    match s.te.table[v].mode with
    | .auto => s.te.valves[v].state = .settling ∨ s.te.valves[v].state = .collecting ∨ s.te.valves[v].state = .fault
    | .fixed => s.te.valves[v].state = .fixed
    | .excluded => s.te.valves[v].state = .excluded
  else s.te.valves[v].state = .excluded

/-- A trim lies within the trim limits of the active product, and is 0 without one (R136). -/
def trimOk (p : Option Product) (t : Int) : Prop :=
  match p with
  | none => t = 0
  | some p => p.trimMin ≤ t ∧ t ≤ p.trimMax

/-- Every valve's state agrees with its mode, an EXCLUDED valve has trim 0, every trim is within the limits (R128, R129,
R136), and the unsettled run of a valve that follows is below 32 (R139). -/
def State.valveInv (s : State) : Prop :=
  ∀ v : Fin Config.valves, s.valveStateOk v ∧ (s.te.valves[v].state = .excluded → s.te.valves[v].trim = 0) ∧
    trimOk s.activeProduct s.te.valves[v].trim ∧ s.te.valves[v].unsettledRun ≤ 32 ∧
    (s.te.valves[v].follows = true → s.te.valves[v].unsettledRun < 32)

/-- n and e_avg of every valve are held in their bounds (R142): n is at most 65,535 and e_avg at most 16 times the larger
distance of a reject limit of the active product from its target, 0 without one; a valve that does not collect has both 0. -/
def State.averageInv (s : State) : Prop :=
  ∀ v : Fin Config.valves, s.te.valves[v].n ≤ 65535 ∧
    (s.te.valves[v].state ≠ .collecting → s.te.valves[v].n = 0 ∧ s.te.valves[v].eAvg = 0) ∧
    (s.te.valves[v].eAvg.natAbs : Int) ≤
      (match s.activeProduct with
        | none => 0
        | some p => 16 * max (p.target - p.rejectLow) (p.rejectHigh - p.target))

/-- The condition flags that follow other state do follow it: TRIM_HOLD (R133), VALVE_ATTENTION (R139), CAPTURE_READY
(R176). -/
def State.flagInv (s : State) : Prop :=
  s.te.trimHold = s.holdsTrim ∧
    (s.te.attention = true ↔ ∃ v : Fin Config.valves, s.te.valves[v].state = .fault) ∧
    (s.rc.captureReady = true ↔ s.ma.setup.captureThreshold ≤ (s.rc.slots.toList.filter Slot.isStored).length)

/-- The slot holds a capture in upload. -/
def Slot.isUploading : Slot → Bool
  | .uploading _ => true
  | .empty | .stored _ => false

/-- The ring and the burst history hold at most 32 (R170, R171), a freeze cause is present exactly while the ring is frozen
(R172, R173), exactly the slot of the upload engine is UPLOADING (R177), and the capture time order names exactly the
slots that hold a capture (R175). -/
def State.ringInv (s : State) : Prop :=
  s.rc.ring.length ≤ 32 ∧ s.rc.burst.length ≤ 32 ∧ (s.rc.cause = none ↔ s.rc.freeze = .notFrozen) ∧
    (∀ i : Fin 4, s.rc.slots[i].isUploading = true ↔ ∃ n m, s.rc.engine = .uploading i n m) ∧
    s.rc.order.Nodup ∧ ∀ i : Fin 4, i ∈ s.rc.order ↔ s.rc.slots[i] ≠ .empty

end Sys2Proof.Machine
end

