-- ==== Sys2Proof/Certificates/Slice0/Obligations.lean ====
section
/-!
DEFINITION. The statements for the provers, in the order of the chapters of spec/. Each says of a command, of a family of
commands or of every step what a rule of spec/ says of it.
-/

open Sys2Proof Sys2Proof.Machine

/-! ## The block and its queue of commands -/

/-- A step with a command at the front of the queue is that command, on the state with the queue's rest. -/
def Obligations.StepRunsFrontCommand : Prop :=
  ∀ (c : Instr) (rest : List Instr) (s : State), step { s with pending := c :: rest } = exec c { s with pending := rest }

/-- Every command is answered by a next state, one whose condition does not stand too (log 8: the model's choice), and none
touches the commands that wait behind it (log 30: that queue, and that no command changes it, are the model's choice). -/
def Obligations.EveryCommandAnswers : Prop :=
  ∀ (c : Instr) (s : State), ∃ t : State, exec c s = .next t ∧ t.pending = s.pending

/-- With no command waiting a step is one millisecond (R30, R31; log 4: that the empty queue lets a millisecond pass is the
model's choice). Where no running timer stands at its last millisecond, each running one counts it, each stopped one stays
stopped, and nothing else changes. In every case the step is the expiries of the timers that stand at their last millisecond,
each the row of its own in the order of log 4, after the other running timers have counted it. -/
def Obligations.IdleStepCountsTimers : Prop :=
  (∀ s : State, s.pending = [] → ∃ t : State, step s = .next t ∧
    Host.Core.run Sys2Proof.core s.expiries.length { s.countedDown with pending := s.expiries } = .next t) ∧
  ∀ s : State, s.pending = [] →
    (∀ n, s.pos.timer = some n → 2 ≤ n) → (∀ n, s.fe.timer = some n → 2 ≤ n) → (∀ n, s.fp.holdTimer = some n → 2 ≤ n) →
    (∀ n, s.ma.loadTimer = some n → 2 ≤ n) → (∀ n, s.ma.statusTimer = some n → 2 ≤ n) →
    step s = .next { s with
      pos := { s.pos with timer := s.pos.timer.map (· - 1) }
      fe := { s.fe with timer := s.fe.timer.map (· - 1) }
      fp := { s.fp with holdTimer := s.fp.holdTimer.map (· - 1) }
      ma := { s.ma with loadTimer := s.ma.loadTimer.map (· - 1), statusTimer := s.ma.statusTimer.map (· - 1) } }

/-- An encoder silence timer started with N ms expires at the N-th millisecond step after its start and not before it (R25,
R31), while no command comes: ENCODER_FAULT rises, is counted, the timer is stopped, Line Position has not moved, and Line
Stop Request stands over a non-empty Reject Schedule (log 4: a step on an empty queue is a millisecond). -/
def Obligations.EncoderSilenceExpiresOnTime : Prop :=
  ∀ (s : State) (n : Nat), s.pending = [] → s.pos.timer = some (n + 1) →
    ∃ u t, Host.Core.run Sys2Proof.core n s = .next u ∧ u.pos.fault = s.pos.fault ∧ u.pos.counters = s.pos.counters ∧
      step u = .next t ∧ t.pos.fault = true ∧ t.pos.timer = none ∧ t.pos.linePos = s.pos.linePos ∧
      t.pos.counters.faults = tally s.pos.counters.faults 1 ∧ t.jr.schedule = s.jr.schedule ∧
      (s.jr.schedule ≠ [] → t.jr.lineStop = true)

/-! ## Power-on and the station number -/

/-- POWER_ON latches the straps and gives every block its power-on values (R4, R5, R21, R55, R62, R84, R107, R135, R149,
R158, R168, R181), the Line Setup record its defaults (Table 11-4). By the model's reading the transmitters are idle (log
29), no run, belt-clear count or age waits for a comparison (logs 35, 38), no copy and no Window Result is under way (log
17), and what waits in the queue of commands stays (log 30). The station number and the address-parity fault then hold: no other command changes them, nor
does a millisecond (R4). -/
def Obligations.PowerOnLatchesStraps : Prop :=
  (∀ (straps : BitVec 7) (s : State), ∃ t : State, exec (.powerOn straps) s = .next t ∧
    (((List.range 7).map fun i => (straps.getLsbD i).toNat).sum % 2 = 1 →
      t.fp.station.toNat = straps.toNat % 64 ∧ t.fp.parityFault = false) ∧
    (((List.range 7).map fun i => (straps.getLsbD i).toNat).sum % 2 = 0 →
      t.fp.station = 63 ∧ t.fp.parityFault = true) ∧
    (∀ i : Fin 32, roleOfCode t.fp.channels[i].role = .none) ∧ t.fp.portA = {} ∧ t.fp.portB = {} ∧
    (∀ i : Fin 7, t.fp.malformed[i] = 0) ∧ t.fp.seqMgmt = 0 ∧ t.fp.seqFlow = 0 ∧ t.fp.holdStanding = false ∧
    t.fp.holdTimer = none ∧ t.fp.held = [] ∧ t.fp.handed = [] ∧
    t.pos = { linePos := 0, lastCount := none, pitch := 1000, phase := 0, pendingGrid := none, residue := 0,
              fault := false, timer := some 50, counters := { reverse := 0, ticks := 0, faults := 0 } } ∧
    t.fe.mode = .clear ∧ t.fe.beltClear = 0 ∧ t.fe.counted = false ∧ t.fe.accCount = 0 ∧ t.fe.window = none ∧ t.fe.buffer = [] ∧
    t.fe.expected = none ∧ t.fe.calZero = 0 ∧ t.fe.calSpan = 0 ∧ t.fe.workingZero = 0 ∧ t.fe.manualZero = false ∧
    t.fe.zeroFault = false ∧ t.fe.weigherSilent = false ∧ t.fe.zeroDone = false ∧ t.fe.timer = some 20 ∧
    t.fe.counters = {} ∧ t.fe.accSum = 0 ∧ t.fe.results = [] ∧
    t.tq = { queue := [], ticked := none, canCounter := 0, tagCounter := 0, dischargeExp := none, seamExp := none
             counters := {} } ∧
    t.rm.tracking = .notSynced ∧ t.rm.cleanRun = 0 ∧ t.rm.unreadRun = 0 ∧ t.rm.expectation = none ∧
    t.rm.risen = none ∧ (∀ k : Fin 16, t.rm.lotBoundary[k] = 0) ∧ t.rm.counters = {} ∧
    (∀ i : Fin 12, t.jr.policy[i] = decide (i.val ≤ 8) ∧ t.jr.classes[i] = 0) ∧ t.jr.schedule = [] ∧
    t.jr.confirmExp = none ∧ t.jr.lineStop = false ∧ t.jr.unexpected = false ∧ t.jr.rejectTotal = 0 ∧ t.jr.counters = {} ∧
    t.te.mode = .off ∧ t.te.trimHold = false ∧ t.te.attention = false ∧
    (∀ v : Fin Config.valves, t.te.table[v] = { mode := .auto, fixedTrim := 0, captureInterval := 0 } ∧
      t.te.valves[v] = { state := .settling, trim := 0, n := 0, eAvg := 0, limit := false, unsettledRun := 0, weighed := 0,
                         rejected := 0, trimChanges := 0, lastChange := none, countdown := 0, armed := false } ∧
      t.rw.expected[v] = none ∧ t.rw.epoch[v] = 0) ∧
    t.rw.counters = {} ∧ (∀ k : Fin 16, t.pu.table[k] = none) ∧ t.pu.active = none ∧
    t.rc.ring = [] ∧ t.rc.freeze = .notFrozen ∧ t.rc.cause = none ∧ t.rc.burst = [] ∧
    (∀ i : Fin 4, t.rc.slots[i] = .empty) ∧ t.rc.order = [] ∧ t.rc.captureNumber = 0 ∧ t.rc.engine = .idle ∧
    t.rc.captureReady = false ∧
    t.rc.counters = {} ∧ t.ma.fifo = [] ∧ t.ma.executing = none ∧ t.ma.load = none ∧ t.ma.staging = [] ∧
    t.ma.loadTimer = none ∧ t.ma.statusTimer = some 100 ∧ t.ma.overrun = false ∧ t.ma.counters = {} ∧
    t.ma.setup = {
      coder := 255, rejector := 255, controller := 255, collector := 255
      coderPort := .b, rejectorPort := .b, controllerPort := .a, collectorPort := .a
      statusInterval := 100, pitch := 1000, phase := 0, encoderSilence := 50, digitiserSilence := 20
      beltClearSamples := 200, zeroTrackLimit := 2000, zeroCaptureLimit := 200000, valveCount := 96, headCount := 12
      maxAge := 200, lookahead := 3, unreadLimit := 4, syncReads := 8, codeLength := 12, lotStart := 0, lotLength := 8
      tagStart := 9, lotGrace := 64, rejectOffset := 10000, rejectPulse := 200, confirmWindow := 2000
      burstK := 0, burstW := 8, freezeOnLost := true, freezeOnUnconfirmed := true, holdTrimOnFreeze := true
      captureWrap := false, captureThreshold := 1, upload := false } ∧
    t.pending = s.pending) ∧
  (∀ (c : Instr) (s t : State), (∀ straps, c ≠ .powerOn straps) → exec c s = .next t →
    t.fp.station = s.fp.station ∧ t.fp.parityFault = s.fp.parityFault) ∧
  ∀ s t : State, s.pending = [] → step s = .next t →
    t.fp.station = s.fp.station ∧ t.fp.parityFault = s.fp.parityFault

/-! ## Line frames and forwarding (01_line_frames_and_forwarding.md) -/

/-- A frame whose FCS fails or that ended early is counted received and bad, one that passes and is too short or too long is
counted received and in length, and neither does anything else; a port whose link is down receives nothing (R1, R15,
R16). -/
def Obligations.DiscardedFramesOnlyCounted : Prop :=
  ∀ (s : State) (p : Port) (whole : Bool) (frame : List Byte),
    ((s.fp.port p).linkUp = false → exec (.frameReceived p whole frame) s = .next s) ∧
    ((s.fp.port p).linkUp = true → whole = false ∨ fcsOk frame = false →
      exec (.frameReceived p whole frame) s = .next (s.onPort p fun ps => { ps with counters := { ps.counters with
        received := tally ps.counters.received 1, badFcs := tally ps.counters.badFcs 1 } })) ∧
    ((s.fp.port p).linkUp = true → whole = true → fcsOk frame = true → frame.length < 64 ∨ 1518 < frame.length →
      exec (.frameReceived p whole frame) s = .next (s.onPort p fun ps => { ps with counters := { ps.counters with
        received := tally ps.counters.received 1, badLength := tally ps.counters.badLength 1 } }))

/-- An accepted frame that is no line frame of version 1, or comes from the device's own number, or matches no entry, or is
a management or flow frame for another station, is offered with every byte as received to the FORWARD queue of the opposite
port, and nothing else changes but the received counter (R2, R3, R7, R8). -/
def Obligations.FramesForwardedUntouched : Prop :=
  ∀ (s : State) (p : Port) (frame : List Byte), s.accepts p frame →
    (¬ (fieldAt frame 12 2 = 0xB6E2 ∧ 26 ≤ frame.length ∧ byteAt frame 14 = 1 ∧ fieldAt frame 20 2 ≤ 1490 ∧
          fieldAt frame 20 2 + 26 ≤ frame.length) ∨
      ∃ c, lineFrame p frame = some c ∧
        (c.source = s.fp.station ∨
         (c.channel.toNat < 240 ∧ ∀ i : Fin 32, entryMatches s.fp.channels[i] c = false) ∨
         (c.channel.toNat = 240 ∧ c.dest ≠ s.fp.station ∧ (c.dest.toNat ≠ 254 ∨ c.payload.head? ≠ some 1)) ∨
         (c.channel.toNat = 241 ∧ c.dest ≠ s.fp.station))) →
    exec (.frameReceived p true frame) s = .next ((s.received p).forwardedTo p frame)

/-- A frame that matches one entry of the Channel Table (R8, R9). Well formed for a role other than DOSE, its copy joins the
tail of those handed to the role's block and it is forwarded unless consumed. Malformed, it is counted for its role alone and
handed to no block; it is forwarded unless consumed, a DOSE frame always. A DOSE frame under Trim Mode OFF or with no product active is forwarded as
it is (R10, R150). -/
def Obligations.StationFramesHandedOver : Prop :=
  ∀ (s : State) (p : Port) (frame : List Byte) (c : Copy) (i : Fin 32), s.accepts p frame → lineFrame p frame = some c →
    c.source ≠ s.fp.station → c.channel.toNat < 240 → entryMatches s.fp.channels[i] c = true →
    (∀ j : Fin 32, entryMatches s.fp.channels[j] c = true → j = i) →
    (∀ t : State, wellFormedFor (roleOfCode s.fp.channels[i].role) c.payload →
      roleOfCode s.fp.channels[i].role ≠ .dose →
      t = (s.received p).withFp { (s.received p).fp with
        handed := s.fp.handed ++ [(roleOfCode s.fp.channels[i].role, c)] } →
      exec (.frameReceived p true frame) s = .next
        (if s.fp.channels[i].consume = 1 then t else t.forwardedTo p frame)) ∧
    (∀ (t : State) (malformed : Vector Counter 7), ¬ wellFormedFor (roleOfCode s.fp.channels[i].role) c.payload →
      (∀ j : Fin 7, malformed[j] =
        if j.val + 1 = s.fp.channels[i].role.toNat then tally s.fp.malformed[j] 1 else s.fp.malformed[j]) →
      t = (s.received p).withFp { (s.received p).fp with malformed := malformed } →
      exec (.frameReceived p true frame) s = .next
        (if s.fp.channels[i].consume = 1 ∧ roleOfCode s.fp.channels[i].role ≠ .dose then t
         else t.forwardedTo p frame)) ∧
    (wellFormedFor .dose c.payload → roleOfCode s.fp.channels[i].role = .dose → s.te.mode = .off ∨ s.pu.active = none →
      exec (.frameReceived p true frame) s = .next ((s.received p).forwardedTo p frame))

/-- A management frame for the device, or a broadcast IDENTIFY, joins the intake FIFO, or is lost to a full one with
INTAKE_OVERRUN set and counted (R7, R182). At 6 frames or more a station that is not held joins the held stations and is
offered a HOLD; else none is (R18). Only the broadcast is forwarded. -/
def Obligations.ManagementFramesTaken : Prop :=
  ∀ (s : State) (p : Port) (frame : List Byte) (c : Copy), s.accepts p frame → lineFrame p frame = some c →
    c.source ≠ s.fp.station → c.channel.toNat = 240 →
    c.dest = s.fp.station ∨ (c.dest.toNat = 254 ∧ c.payload.head? = some 1) →
    ∃ t : State, exec (.frameReceived p true frame) s = .next t ∧ OnlyChanges [.fp, .ma] s t ∧
      (s.ma.fifo.length < 8 → t.ma = { s.ma with fifo := s.ma.fifo ++ [c] }) ∧
      (8 ≤ s.ma.fifo.length → t.ma = { s.ma with
        overrun := true, counters := { s.ma.counters with overruns := tally s.ma.counters.overruns 1 } }) ∧
      (6 ≤ t.ma.fifo.length ∧ c.source ∉ s.fp.held.map Prod.fst ∧ s.fp.held.length < 8 →
        t.fp.held = s.fp.held ++ [(c.source, p)] ∧
        ((s.fp.port p).reply.length < 4 →
          (t.fp.port p).reply = (s.fp.port p).reply ++ [insertedFrame s.fp.station c.source 241 s.fp.seqFlow [1]] ∧
          t.fp.seqFlow = s.fp.seqFlow + 1) ∧
        (4 ≤ (s.fp.port p).reply.length →
          (t.fp.port p).reply = (s.fp.port p).reply ∧ t.fp.seqFlow = s.fp.seqFlow)) ∧
      (¬ (6 ≤ t.ma.fifo.length ∧ c.source ∉ s.fp.held.map Prod.fst ∧ s.fp.held.length < 8) →
        t.fp.held = s.fp.held ∧ (t.fp.port p).reply = (s.fp.port p).reply ∧ t.fp.seqFlow = s.fp.seqFlow) ∧
      (t.fp.port (otherPort p)).forward =
        (if c.dest ≠ s.fp.station ∧ (s.fp.port (otherPort p)).linkUp = true ∧
              (s.fp.port (otherPort p)).forward.length < 16 then
            (s.fp.port (otherPort p)).forward ++ [frame]
         else (s.fp.port (otherPort p)).forward) ∧
      t.fp.handed = s.fp.handed ∧ t.fp.channels = s.fp.channels ∧ t.fp.holdTimer = s.fp.holdTimer ∧
      t.fp.holdStanding = s.fp.holdStanding

/-- A flow frame addressed to the device is consumed (R17). HOLD of the collector lets the Hold stand for 500 ms, RELEASE of
the collector ends it, any other is without effect; the expiry of the running timer ends the Hold. That a collector of 255
(none) obeys no frame is the model's reading (log 20): the clauses that obey suppose another value. -/
def Obligations.FlowFramesObeyed : Prop :=
  (∀ (s : State) (p : Port) (frame : List Byte) (c : Copy), s.accepts p frame → lineFrame p frame = some c →
    c.source ≠ s.fp.station → c.channel.toNat = 241 → c.dest = s.fp.station →
    (s.ma.setup.collector ≠ 255 → c.source = s.ma.setup.collector → c.payload.head? = some 1 →
      exec (.frameReceived p true frame) s = .next
        ((s.received p).withFp { (s.received p).fp with holdStanding := true, holdTimer := some 500 })) ∧
    (s.ma.setup.collector ≠ 255 → c.source = s.ma.setup.collector → c.payload.head? = some 2 →
      exec (.frameReceived p true frame) s = .next
        ((s.received p).withFp { (s.received p).fp with holdStanding := false, holdTimer := none })) ∧
    (c.source ≠ s.ma.setup.collector ∨ (c.payload.head? ≠ some 1 ∧ c.payload.head? ≠ some 2) →
      exec (.frameReceived p true frame) s = .next (s.received p))) ∧
  ∀ (s : State) (n : Nat), s.fp.holdTimer = some n →
    exec .holdExpiry s = .next (s.withFp { s.fp with holdStanding := false, holdTimer := none })

/-- The egress arbiter (R13). With the link up and the transmitter idle it takes the oldest frame of the first class that
holds one and sends it; with the link down, a frame in transmission or nothing queued it takes none. A transmission that
completes is counted as forwarded or inserted by its class, and the transmitter is idle. That EGRESS_START with nothing to
send, and TRANSMIT_COMPLETE with nothing in transmission, leave the state as it is: log 8, the model's choice. -/
def Obligations.EgressArbitration : Prop :=
  (∀ (s : State) (p : Port) (above below : List EgressClass) (cls : EgressClass) (frame : Frame) (rest : List Frame),
    above ++ cls :: below = [.reject, .forward, .printTag, .reply, .status, .capture] →
    (s.fp.port p).linkUp = true → (s.fp.port p).transmitting = none → (∀ k ∈ above, (s.fp.port p).queue k = []) →
    (s.fp.port p).queue cls = frame :: rest →
    exec (.egressStart p) s = .next (s.onPort p fun ps => { ps.setQueue cls rest with transmitting := some (cls, frame) })) ∧
  (∀ (s : State) (p : Port),
    (s.fp.port p).linkUp = false ∨ (s.fp.port p).transmitting ≠ none ∨ (∀ k, (s.fp.port p).queue k = []) →
    exec (.egressStart p) s = .next s) ∧
  (∀ (s : State) (p : Port) (cls : EgressClass) (frame : Frame), (s.fp.port p).transmitting = some (cls, frame) →
    exec (.transmitComplete p) s = .next (s.onPort p fun ps => { ps with
      transmitting := none
      counters := { ps.counters with
        forwarded := if cls = .forward then tally ps.counters.forwarded 1 else ps.counters.forwarded
        inserted := if cls = .forward then ps.counters.inserted else tally ps.counters.inserted 1 } })) ∧
  ∀ (s : State) (p : Port), (s.fp.port p).transmitting = none → exec (.transmitComplete p) s = .next s

/-- A link that goes down empties the six queues and the transmitter of its port, each frame lost counted as dropped (R15);
a frame cut short by it fails as R1 says (counted as received too, log 11). A link that is down stays as it is. A link that
comes up changes the link state alone. -/
def Obligations.LinkChanges : Prop :=
  (∀ (s : State) (p : Port) (arriving : Bool), (s.fp.port p).linkUp = true →
    exec (.linkDown p arriving) s = .next (s.onPort p fun ps => {
      linkUp := false, reject := [], forward := [], printTag := [], reply := [], status := [], capture := []
      transmitting := none
      counters := { ps.counters with
        received := if arriving then tally ps.counters.received 1 else ps.counters.received
        badFcs := if arriving then tally ps.counters.badFcs 1 else ps.counters.badFcs
        dropped := tally ps.counters.dropped (ps.reject.length + ps.forward.length + ps.printTag.length +
          ps.reply.length + ps.status.length + ps.capture.length + (if ps.transmitting = none then 0 else 1)) } })) ∧
  (∀ (s : State) (p : Port) (arriving : Bool), (s.fp.port p).linkUp = false →
    exec (.linkDown p arriving) s = .next s) ∧
  ∀ (s : State) (p : Port), exec (.linkUp p) s = .next (s.onPort p fun ps => { ps with linkUp := true })

/-- A frame the device inserts is a line frame of version 1 that a receiver accepts and reads back field by field (R11, R1,
R3, R194): its destination address is all ones, its source address 02-00-00-00-00-nn, its type 0xB6E2, its FCS verifies (by
the CRC of log 3), its length is within the limits, flags are 0, and what stands between payload and FCS is 0. -/
def Obligations.InsertedFrameReadsBack : Prop :=
  ∀ (p : Port) (station dest channel seq : Byte) (payload : List Byte), payload.length ≤ 1490 →
    lineFrame p (insertedFrame station dest channel seq payload) = some {
      port := p, dest := dest, source := station, channel := channel, sequence := seq, flags := 0, payload := payload } ∧
    (insertedFrame station dest channel seq payload).take 14 =
      [0xFF, 0xFF, 0xFF, 0xFF, 0xFF, 0xFF, 0x02, 0, 0, 0, 0, station, 0xB6, 0xE2] ∧
    (∀ n : Nat, 22 + payload.length ≤ n → n + 4 < (insertedFrame station dest channel seq payload).length →
      byteAt (insertedFrame station dest channel seq payload) n = 0) ∧
    (insertedFrame station dest channel seq payload).length = max 64 (26 + payload.length) ∧
    fcsOk (insertedFrame station dest channel seq payload) = true ∧
    64 ≤ (insertedFrame station dest channel seq payload).length ∧
    (insertedFrame station dest channel seq payload).length ≤ 1518

/-- Every step keeps the capacities of queues, FIFO and held stations, the emptiness of a port whose link is down, the tie
of the Hold to its timer (R2, R14, R15, R17, R18, R182), and the Agent's: a Line Setup record that R190 accepts, a load in
progress that R187 accepts with what is staged of it, and the timers that run with them (R187 to R189, R192). -/
def Obligations.FrameAndAgentInvKept : Prop :=
  (∀ s t : State, s.frameInv → step s = .next t → t.frameInv) ∧
  (∀ s t : State, s.setupInv → step s = .next t → t.setupInv) ∧
  ∀ s t : State, s.loadInv → step s = .next t → t.loadInv

/-! ## Dose frames (08_dose_frame_rewriting.md) -/

/-- A well-formed dose frame under HOLD or AUTO with a product active (R10, R138, R150 to R153, R157). Every entry of a valve below
the valve count and not EXCLUDED carries afterwards base plus trim held within the dose limits, which becomes E with a new
epoch when it differs; every other entry, and every byte outside set-points, flags and FCS, is as received. A frame with a
written entry has TRIMMED set, a good FCS (by the CRC of log 3) and is counted; any other leaves as it came. The clamps
counter rises by the written entries whose sum was held at a limit, the set-point changes counter by those that gave E a new
value. -/
def Obligations.DoseFramesRewritten : Prop :=
  ∀ (s : State) (p : Port) (frame : List Byte) (c : Copy) (i : Fin 32) (k : Fin 16) (pr : Product) (first count : Nat),
    s.accepts p frame → lineFrame p frame = some c → c.source ≠ s.fp.station → c.channel.toNat < 240 →
    entryMatches s.fp.channels[i] c = true → (∀ j : Fin 32, entryMatches s.fp.channels[j] c = true → j = i) →
    roleOfCode s.fp.channels[i].role = .dose → wellFormedFor .dose c.payload →
    first = (byteAt c.payload 0).toNat → count = (byteAt c.payload 1).toNat →
    s.te.mode ≠ .off → s.pu.active = some k → s.pu.table[k] = some pr → pr.doseMin ≤ pr.doseMax → pr.doseMax ≤ 65535 →
    ∃ (t : State) (out : Frame), exec (.frameReceived p true frame) s = .next (t.forwardedTo p out) ∧
      OnlyChanges [.fp, .te, .rw] s t ∧ t.fp = (s.received p).fp ∧ out.length = frame.length ∧
      (∀ (j : Nat) (v : Fin Config.valves), j < count → first + j = v.val → v.val < s.ma.setup.valveCount →
        s.te.valves[v].state ≠ .excluded →
        (fieldAt out (24 + 2 * j) 2 : Int) =
          max (pr.doseMin : Int) (min ((fieldAt frame (24 + 2 * j) 2 : Int) + s.te.valves[v].trim) pr.doseMax) ∧
        t.rw.expected[v] = some (BitVec.ofNat 16 (fieldAt out (24 + 2 * j) 2)) ∧
        (s.rw.expected[v] = t.rw.expected[v] → t.rw.epoch[v] = s.rw.epoch[v] ∧ t.te.valves[v] = s.te.valves[v]) ∧
        (s.rw.expected[v] ≠ t.rw.expected[v] → t.rw.epoch[v] = s.rw.epoch[v] + 1 ∧
          t.te.valves[v] =
            (if s.te.table[v].mode = .auto ∧
                (s.te.valves[v].state = .settling ∨ s.te.valves[v].state = .collecting) then
               { s.te.valves[v] with state := .settling, n := 0, eAvg := 0 }
             else s.te.valves[v]))) ∧
      (∀ j : Nat, j < count →
        (∀ v : Fin Config.valves, first + j = v.val → s.ma.setup.valveCount ≤ v.val ∨ s.te.valves[v].state = .excluded) →
        fieldAt out (24 + 2 * j) 2 = fieldAt frame (24 + 2 * j) 2) ∧
      (∀ v : Fin Config.valves,
        (v.val < first ∨ first + count ≤ v.val ∨ s.ma.setup.valveCount ≤ v.val ∨ s.te.valves[v].state = .excluded) →
        t.rw.expected[v] = s.rw.expected[v] ∧ t.rw.epoch[v] = s.rw.epoch[v] ∧ t.te.valves[v] = s.te.valves[v]) ∧
      (∀ n : Nat, n + 4 < frame.length → n ≠ 19 → n < 24 ∨ 24 + 2 * count ≤ n → byteAt out n = byteAt frame n) ∧
      ((∃ v : Fin Config.valves, first ≤ v.val ∧ v.val < first + count ∧ v.val < s.ma.setup.valveCount ∧
          s.te.valves[v].state ≠ .excluded) →
        byteAt out 19 = byteAt frame 19 ||| 1 ∧ fcsOk out = true ∧
        t.rw.counters.framesRewritten = tally s.rw.counters.framesRewritten 1) ∧
      (∀ written : List (Fin Config.valves),
        written = (List.finRange Config.valves).filter (fun v => decide (first ≤ v.val ∧ v.val < first + count ∧
          v.val < s.ma.setup.valveCount ∧ s.te.valves[v].state ≠ .excluded)) →
        t.rw.counters.changes = tally s.rw.counters.changes
          (written.countP fun v => decide (s.rw.expected[v] ≠ t.rw.expected[v])) ∧
        t.rw.counters.clamps = tally s.rw.counters.clamps (written.countP fun v =>
          decide ((fieldAt frame (24 + 2 * (v.val - first)) 2 : Int) + s.te.valves[v].trim < pr.doseMin ∨
            (pr.doseMax : Int) < (fieldAt frame (24 + 2 * (v.val - first)) 2 : Int) + s.te.valves[v].trim))) ∧
      ((∀ v : Fin Config.valves, first ≤ v.val → v.val < first + count →
          s.ma.setup.valveCount ≤ v.val ∨ s.te.valves[v].state = .excluded) →
        out = frame ∧ t.rw = s.rw ∧ t.te = s.te)

/-! ## Line Position and pitch (02_line_position_and_pitch.md) -/

/-- The ticks of a step are exactly the pitch boundaries among the positions L+1 to L+d, each taken modulo 2^32, in order
along the step, with or without the wrap (R23); and the residue kept afterwards is that of the new Line Position. -/
def Obligations.TicksAreTheBoundaries : Prop :=
  ∀ (pos : Position) (d : Nat), pos.phase < pos.pitch → pos.residue = gridResidue pos.linePos pos.pitch pos.phase →
    1 ≤ d → d ≤ 32767 →
    ticksOf pos d = boundariesPassed pos.linePos d pos.pitch pos.phase ∧
    (pos.step d).residue = gridResidue (pos.linePos + BitVec.ofNat 32 d) pos.pitch pos.phase

/-- An encoder frame taken (R22 to R24, R26, R27, R29, R74, R75): the timer restarts, the fault ends, a pending grid comes
into force, last count follows; a forward step moves Line Position, counts one tick per boundary passed on the grid in force
and ages the records by as many; a step of 0 or a reverse step moves nothing. -/
def Obligations.EncoderFrameAdvances : Prop :=
  ∀ (s : State) (c : Copy) (rest : List (Role × Copy)) (d : Nat) (moved : Bool) (grid : Nat × Nat) (passed : List Word32),
    s.positionInv → s.hands .encoder c rest →
    d = (match s.pos.lastCount with | none => 0 | some l => (encoderCount c.payload - l).toNat) →
    moved = decide (1 ≤ d ∧ d ≤ 32767) → grid = s.pos.pendingGrid.getD (s.pos.pitch, s.pos.phase) →
    passed = (if moved then boundariesPassed s.pos.linePos d grid.1 grid.2 else []) →
    ∃ t : State, exec .encoderFrame s = .next t ∧ OnlyChanges [.fp, .pos, .tq, .jr, .te, .rc] s t ∧
      t.fp.handed = rest ∧ t.pos.timer = some s.ma.setup.encoderSilence ∧ t.pos.fault = false ∧
      t.pos.lastCount = some (encoderCount c.payload) ∧ t.pos.pendingGrid = none ∧ (t.pos.pitch, t.pos.phase) = grid ∧
      t.pos.linePos = (if moved then s.pos.linePos + BitVec.ofNat 32 d else s.pos.linePos) ∧
      t.pos.residue = gridResidue t.pos.linePos grid.1 grid.2 ∧
      t.pos.counters.ticks = tally s.pos.counters.ticks passed.length ∧
      t.pos.counters.reverse = (if 32768 ≤ d then tally s.pos.counters.reverse 1 else s.pos.counters.reverse) ∧
      t.pos.counters.faults = s.pos.counters.faults ∧
      t.tq.queue = agedBy passed.length s.ma.setup.maxAge s.tq.queue ∧
      (moved = false → OnlyChanges [.fp, .pos] s t)

/-! ## The Weighing Front End (03_the_weighing_front_end.md) -/

/-- The index test of a sample frame (R34, R35): one that lies behind the stream is discarded and counted stale, with no
other effect; any other is taken: the expected index follows its samples, the missing samples are counted, the silence timer
restarts and SILENT is left. A gap of 1 to 32,767 acts before the first sample, after which the frame is taken as one without
a gap: in CLEAR and OCCUPIED the belt-clear count becomes 0 (R36), a zero reading is abandoned for CLEAR with the count at 0
(R38), and an open window has its GAP flag set (R46). -/
def Obligations.SampleFrameIndexTest : Prop :=
  ∀ (s : State) (c : Copy) (rest : List (Role × Copy)), s.hands .samples c rest →
    (∀ e, s.fe.expected = some e → 32768 ≤ (sampleFirst c.payload - e).toNat →
      exec .sampleFrame s = .next ((s.taken rest).withFe { s.fe with
        counters := { s.fe.counters with stale := tally s.fe.counters.stale 1 } })) ∧
    ((∀ e, s.fe.expected = some e → (sampleFirst c.payload - e).toNat ≤ 32767) →
      ∃ t : State, exec .sampleFrame s = .next t ∧ OnlyChanges [.fp, .fe] s t ∧ t.fp.handed = rest ∧
        t.fe.expected = some (sampleFirst c.payload + BitVec.ofNat 16 (byteAt c.payload 2).toNat) ∧
        t.fe.timer = some s.ma.setup.digitiserSilence ∧ t.fe.mode ≠ .silent ∧
        (s.fe.mode = .silent → t.fe.weigherSilent = false) ∧
        t.fe.counters.missing = tally s.fe.counters.missing
          (match s.fe.expected with | none => 0 | some e => (sampleFirst c.payload - e).toNat) ∧
        t.fe.counters.stale = s.fe.counters.stale ∧ t.fe.counters.silences = s.fe.counters.silences ∧
        t.fe.calZero = s.fe.calZero ∧ t.fe.calSpan = s.fe.calSpan) ∧
    ∀ (e : Word16) (g : Nat) (fe : FrontEnd), s.fe.expected = some e → g = (sampleFirst c.payload - e).toNat → 1 ≤ g →
      g ≤ 32767 →
      fe = { s.fe with
        expected := some (sampleFirst c.payload)
        counters := { s.fe.counters with missing := tally s.fe.counters.missing g } } →
      (s.fe.mode = .clear ∨ s.fe.mode = .occupied →
        exec .sampleFrame s = exec .sampleFrame (s.withFe { fe with beltClear := 0 })) ∧
      (s.fe.mode = .zeroReading →
        exec .sampleFrame s = exec .sampleFrame (s.withFe { fe with
          mode := .clear, beltClear := 0, accSum := 0, accCount := 0 })) ∧
      ∀ w, s.fe.mode = .settle ∨ s.fe.mode = .window → s.fe.window = some w →
        exec .sampleFrame s = exec .sampleFrame (s.withFe { fe with window := some { w with gap := true } })

/-- What one sample does in each state, seen on a frame of one sample that continues the stream (R35 to R37, R41 to R45). The
32nd sample of a zero reading is taken and completes it; the last summed sample of a window is summed and closes it (what
these completions do is said of their rows). An entry sample opens a window with the active product's parameters, or with
0, 4, 4 and 0; it cuts an open one first. A sample in SILENT is handled as in CLEAR, WEIGHER_SILENT having fallen. A frame of
several samples is its first sample as a frame by itself, then the rest of them as the next frame (R34), at one Line Position. -/
def Obligations.SamplesActByState : Prop :=
  (∀ (s : State) (c first others : Copy) (rest : List (Role × Copy)) (x : Word16 × Int × Bool)
    (more : List (Word16 × Int × Bool)), s.hands .samples c rest → samplesOf c.payload = x :: more → more ≠ [] →
    samplesOf first.payload = [x] → samplesOf others.payload = more → s.fe.expected = none ∨ s.fe.expected = some x.1 →
    ∃ u t : State, exec .sampleFrame (s.taken ((.samples, first) :: rest)) = .next u ∧ u.fp.handed = rest ∧
      u.pos = s.pos ∧ exec .sampleFrame (u.taken ((.samples, others) :: rest)) = .next t ∧
      exec .sampleFrame s = .next t) ∧
  ∀ (s : State) (c : Copy) (rest : List (Role × Copy)) (index : Word16) (x : Int) (mark : Bool) (fe : FrontEnd),
    s.hands .samples c rest → samplesOf c.payload = [(index, x, mark)] →
    s.fe.expected = none ∨ s.fe.expected = some index →
    fe = { s.fe with expected := some (index + 1), timer := some s.ma.setup.digitiserSilence } →
    (mark = false → s.fe.mode = .clear ∨ s.fe.mode = .occupied →
      exec .sampleFrame s = .next ((s.taken rest).withFe
        (if s.ma.setup.beltClearSamples ≤ min (s.fe.beltClear + 1) 65535 then
           { fe with
             mode := .zeroReading, beltClear := min (s.fe.beltClear + 1) 65535, counted := false, accSum := 0, accCount := 0 }
         else { fe with beltClear := min (s.fe.beltClear + 1) 65535, counted := false }))) ∧
    (mark = false → s.fe.mode = .zeroReading → s.fe.accCount + 1 < 32 →
      exec .sampleFrame s = .next ((s.taken rest).withFe
        { fe with accSum := s.fe.accSum + x, accCount := s.fe.accCount + 1 })) ∧
    (mark = false → s.fe.mode = .zeroReading → 32 ≤ s.fe.accCount + 1 →
      exec .sampleFrame s = exec .zeroReadingComplete ((s.taken rest).withFe
        { fe with accSum := s.fe.accSum + x, accCount := s.fe.accCount + 1 })) ∧
    (s.fe.mode = .silent → exec .sampleFrame s = exec .sampleFrame
      (report s (s.withFe { s.fe with weigherSilent := false, mode := .clear, beltClear := 0 }))) ∧
    (∀ w, mark = false → s.fe.mode = .settle → s.fe.window = some w →
      exec .sampleFrame s = .next ((s.taken rest).withFe { fe with
        buffer := s.fe.buffer ++ [x]
        window := some { w with settleCount := w.settleCount + 1 }
        mode := if w.settle ≤ w.settleCount + 1 then .window else .settle })) ∧
    (∀ w, mark = false → s.fe.mode = .window → s.fe.window = some w → w.count + 1 < w.length →
      exec .sampleFrame s = .next ((s.taken rest).withFe { fe with
        buffer := s.fe.buffer ++ [x]
        window := some { w with
          sum := w.sum + x
          count := w.count + 1
          range := some (match w.range with | none => (x, x) | some r => (min r.1 x, max r.2 x)) } })) ∧
    (∀ w, mark = false → s.fe.mode = .window → s.fe.window = some w → w.length ≤ w.count + 1 →
      exec .sampleFrame s = exec .windowClose ((s.taken rest).withFe { fe with
        buffer := s.fe.buffer ++ [x]
        window := some { w with
          sum := w.sum + x
          count := w.count + 1
          range := some (match w.range with | none => (x, x) | some r => (min r.1 x, max r.2 x)) } })) ∧
    (mark = true → s.fe.mode = .clear ∨ s.fe.mode = .occupied ∨ s.fe.mode = .zeroReading → s.pu.active = none →
      exec .sampleFrame s = .next ((s.taken rest).withFe { fe with
        accSum := 0, accCount := 0, buffer := [x]
        window := some {
          entryIndex := index, entryPos := s.pos.linePos, zero := s.fe.workingZero, span := s.fe.calSpan
          settle := 0, length := 4, minSamples := 4, band := 0
          settleCount := 0, count := 0, sum := 0, range := none, gap := false }
        mode := .window })) ∧
    (∀ k p, mark = true → s.fe.mode = .clear ∨ s.fe.mode = .occupied ∨ s.fe.mode = .zeroReading →
      s.pu.active = some k → s.pu.table[k] = some p →
      exec .sampleFrame s = .next ((s.taken rest).withFe { fe with
        accSum := 0, accCount := 0, buffer := [x]
        window := some {
          entryIndex := index, entryPos := s.pos.linePos, zero := s.fe.workingZero, span := s.fe.calSpan
          settle := p.settle, length := p.length, minSamples := p.minSamples, band := p.band
          settleCount := 0, count := 0, sum := 0, range := none, gap := false }
        mode := if p.settle = 0 then .window else .settle })) ∧
    (∀ w k p, mark = true → s.fe.mode = .settle ∨ s.fe.mode = .window → s.fe.window = some w → s.pu.active = some k →
      s.pu.table[k] = some p →
      exec .sampleFrame s = .next ((s.taken rest).withFe { fe with
        accSum := 0, accCount := 0, buffer := [x]
        results := s.fe.results ++ [{
          entryIndex := w.entryIndex, entryPos := w.entryPos, count := w.count
          gross := if w.span ≠ 0 ∧ w.minSamples ≤ w.count then some w.grossValue else none
          short := decide (w.minSamples ≤ w.count), gap := w.gap, unstable := decide (w.band < w.rawRange)
          silent := false, uncalibrated := decide (w.span = 0), zeroFault := s.fe.zeroFault
          rawRange := w.rawRange, samples := s.fe.buffer }]
        counters := { s.fe.counters with windowsClosed := tally s.fe.counters.windowsClosed 1 }
        window := some {
          entryIndex := index, entryPos := s.pos.linePos, zero := s.fe.workingZero, span := s.fe.calSpan
          settle := p.settle, length := p.length, minSamples := p.minSamples, band := p.band
          settleCount := 0, count := 0, sum := 0, range := none, gap := false }
        mode := if p.settle = 0 then .window else .settle })) ∧
    ∀ w, mark = true → s.fe.mode = .settle ∨ s.fe.mode = .window → s.fe.window = some w → s.pu.active = none →
      exec .sampleFrame s = .next ((s.taken rest).withFe { fe with
        accSum := 0, accCount := 0, buffer := [x]
        results := s.fe.results ++ [{
          entryIndex := w.entryIndex, entryPos := w.entryPos, count := w.count
          gross := if w.span ≠ 0 ∧ w.minSamples ≤ w.count then some w.grossValue else none
          short := decide (w.minSamples ≤ w.count), gap := w.gap, unstable := decide (w.band < w.rawRange)
          silent := false, uncalibrated := decide (w.span = 0), zeroFault := s.fe.zeroFault
          rawRange := w.rawRange, samples := s.fe.buffer }]
        counters := { s.fe.counters with windowsClosed := tally s.fe.counters.windowsClosed 1 }
        window := some {
          entryIndex := index, entryPos := s.pos.linePos, zero := s.fe.workingZero, span := s.fe.calSpan
          settle := 0, length := 4, minSamples := 4, band := 0
          settleCount := 0, count := 0, sum := 0, range := none, gap := false }
        mode := .window })

/-- Zero readings (R36, R37, R39, R40, R53, R57): a belt-clear count that a sample has raised to the belt-clear samples starts
one with the accumulator empty; a count below them is compared in vain, and without such a sample nothing is compared. The
32nd sample completes it: zero tracking moves the working zero by a sixteenth of the difference, a manual zero takes the
reading, and a reading beyond its limit leaves the working zero and sets ZERO_FAULT. That the rows are commands by themselves
is logs 8 and 9, and how the model keeps that a sample has raised the count (set and compared within one step, so that a
step from a state without one leaves none) is log 38: the model's choices. -/
def Obligations.ZeroReadings : Prop :=
  (∀ s : State, s.fe.counted = true → s.fe.mode = .clear ∨ s.fe.mode = .occupied →
    s.ma.setup.beltClearSamples ≤ s.fe.beltClear →
    exec .zeroReadingStart s = .next (s.withFe { s.fe with
      mode := .zeroReading, counted := false, accSum := 0, accCount := 0 })) ∧
  (∀ s : State, s.fe.counted = true →
    (s.fe.mode ≠ .clear ∧ s.fe.mode ≠ .occupied) ∨ s.fe.beltClear < s.ma.setup.beltClearSamples →
    exec .zeroReadingStart s = .next (s.withFe { s.fe with counted := false })) ∧
  (∀ s : State, s.fe.counted = false → exec .zeroReadingStart s = .next s) ∧
  (∀ s t : State, s.fe.counted = false → step s = .next t → t.fe.counted = false) ∧
  ∀ (s : State) (reading diff : Int), s.fe.mode = .zeroReading → 32 ≤ s.fe.accCount →
    reading = roundDiv s.fe.accSum 32 → diff = reading - s.fe.workingZero →
    ∃ t : State, exec .zeroReadingComplete s = .next t ∧ OnlyChanges [.fp, .fe] s t ∧
      t.fe.mode = .clear ∧ t.fe.beltClear = 0 ∧ t.fe.accSum = 0 ∧ t.fe.accCount = 0 ∧ t.fe.manualZero = false ∧
      t.fe.counters.zeroReadings = tally s.fe.counters.zeroReadings 1 ∧ t.fe.window = s.fe.window ∧
      t.fe.expected = s.fe.expected ∧ t.fe.timer = s.fe.timer ∧ t.fe.calSpan = s.fe.calSpan ∧
      (s.fe.manualZero = false → t.fe.zeroDone = s.fe.zeroDone ∧
        (diff.natAbs ≤ s.ma.setup.zeroTrackLimit →
          t.fe.workingZero = s.fe.workingZero + roundDiv diff 16 ∧ t.fe.zeroFault = false ∧
          t.fe.counters.zeroRejections = s.fe.counters.zeroRejections) ∧
        (s.ma.setup.zeroTrackLimit < diff.natAbs →
          t.fe.workingZero = s.fe.workingZero ∧ t.fe.zeroFault = true ∧
          t.fe.counters.zeroRejections = tally s.fe.counters.zeroRejections 1)) ∧
      (s.fe.manualZero = true →
        (diff.natAbs ≤ s.ma.setup.zeroCaptureLimit →
          t.fe.workingZero = reading ∧ t.fe.zeroFault = false ∧ t.fe.zeroDone = true ∧
          t.fe.counters.zeroRejections = s.fe.counters.zeroRejections) ∧
        (s.ma.setup.zeroCaptureLimit < diff.natAbs →
          t.fe.workingZero = s.fe.workingZero ∧ t.fe.zeroFault = true ∧ t.fe.zeroDone = s.fe.zeroDone ∧
          t.fe.counters.zeroRejections = tally s.fe.counters.zeroRejections 1))

/-- The settle count that has reached the settle samples opens the summing (R43); the summed count that has reached the
window length closes the window normally, with its Window Result handed on and the belt OCCUPIED (R44, R49 to R51). That
the rows act when commanded by themselves is log 9, and that below these counts they change nothing is log 8: the model's
choices. -/
def Obligations.WindowSteps : Prop :=
  (∀ (s : State) (w : OpenWindow), s.fe.mode = .settle → s.fe.window = some w →
    (w.settle ≤ w.settleCount → exec .settleComplete s = .next (s.withFe { s.fe with mode := .window })) ∧
    (w.settleCount < w.settle → exec .settleComplete s = .next s)) ∧
  ∀ (s : State) (w : OpenWindow), s.fe.mode = .window → s.fe.window = some w →
    (w.count < w.length → exec .windowClose s = .next s) ∧
    (w.length ≤ w.count → exec .windowClose s = .next (s.withFe { s.fe with
      mode := .occupied
      beltClear := 0
      window := none
      counters := { s.fe.counters with windowsClosed := tally s.fe.counters.windowsClosed 1 }
      results := s.fe.results ++ [{
        entryIndex := w.entryIndex, entryPos := w.entryPos, count := w.count
        gross :=
          if w.span ≠ 0 ∧ w.minSamples ≤ w.count then
            some (max (-2147483648)
              (min (roundDiv ((w.sum - w.count * w.zero) * w.span) (65536 * w.count)) 2147483647))
          else none
        short := false, gap := w.gap
        unstable := decide (w.band < (match w.range with | none => 0 | some r => (r.2 - r.1).toNat))
        silent := false, uncalibrated := decide (w.span = 0), zeroFault := s.fe.zeroFault
        rawRange := (match w.range with | none => 0 | some r => (r.2 - r.1).toNat), samples := s.fe.buffer }] }))

/-- A quotient rounded to nearest lies within half a unit of the exact one, and a tie goes away from zero (00_scope.md 1.7);
gross weights, zero readings and trims are rounded by it. -/
def Obligations.RoundingIsToNearest : Prop :=
  ∀ (a : Int) (b : Nat), 0 < b →
    2 * (a - roundDiv a b * b).natAbs ≤ b ∧ (2 * (a - roundDiv a b * b).natAbs = b → a.natAbs ≤ (roundDiv a b * b).natAbs)

/-- The encoder silence timer expires (R25, R120): ENCODER_FAULT is set, counted and reported, the timer stops, and Line Stop
Request is raised and reported exactly over a non-empty Reject Schedule; that the status frame of ENCODER_FAULT is built before
the request rises is the model's choice (log 39). The digitiser silence timer expires (R47): an open
window closes without a gross and SILENT, a zero reading is abandoned; in every state the Front End is SILENT afterwards, the
expected index absent, the timer stopped, the silence counted and WEIGHER_SILENT set and reported. -/
def Obligations.SilenceExpiries : Prop :=
  (∀ (s u : State) (n : Nat), s.pos.timer = some n →
    u = report s { s with pos := { s.pos with
      fault := true, timer := none, counters := { s.pos.counters with faults := tally s.pos.counters.faults 1 } } } →
    (s.jr.schedule = [] → exec .encoderSilenceExpiry s = .next u) ∧
    (s.jr.schedule ≠ [] →
      exec .encoderSilenceExpiry s = .next (report u { u with jr := { u.jr with lineStop := true } }))) ∧
  ∀ (s : State) (n : Nat) (fe : FrontEnd), s.fe.timer = some n →
    fe = { s.fe with
      mode := .silent, expected := none, timer := none, weigherSilent := true
      counters := { s.fe.counters with silences := tally s.fe.counters.silences 1 } } →
    (s.fe.mode = .clear ∨ s.fe.mode = .occupied →
      exec .digitiserSilenceExpiry s = .next (report s (s.withFe fe))) ∧
    (s.fe.mode = .zeroReading →
      exec .digitiserSilenceExpiry s = .next (report s (s.withFe { fe with accSum := 0, accCount := 0 }))) ∧
    (∀ w, s.fe.mode = .settle ∨ s.fe.mode = .window → s.fe.window = some w →
      exec .digitiserSilenceExpiry s = .next (report s (s.withFe { fe with
        window := none
        counters := { fe.counters with windowsClosed := tally s.fe.counters.windowsClosed 1 }
        results := s.fe.results ++ [{
          entryIndex := w.entryIndex, entryPos := w.entryPos, count := w.count, gross := none
          short := false, gap := w.gap, unstable := decide (w.band < w.rawRange), silent := true
          uncalibrated := decide (w.span = 0), zeroFault := s.fe.zeroFault
          rawRange := w.rawRange, samples := s.fe.buffer }] })))

/-- Every step keeps the working grid a grid, the residue that of Line Position on it, a pending grid a grid, and the encoder
silence timer stopped exactly while ENCODER_FAULT is set (R21 to R27). Every step keeps the window state machine: a window is
open exactly in SETTLE and WINDOW, SILENT goes with WEIGHER_SILENT and a stopped timer, the accumulator is empty outside a
zero reading, and the window buffer holds the entry sample and the samples counted since, 384 at most (R35 to R48); the last
part rests on the second and on the product records. -/
def Obligations.PositionAndWindowInvKept : Prop :=
  (∀ s t : State, s.positionInv → step s = .next t → t.positionInv) ∧
  (∀ s t : State, s.windowInv → step s = .next t → t.windowInv) ∧
  ∀ s t : State, s.tableInv → s.windowInv → s.bufferInv → step s = .next t → t.bufferInv

/-! ## The Tracking Queue (04_the_can_tracking_queue.md) -/

/-- A discharge frame (R63 to R67, R155). With no product active it is unadmitted, and a gap of up to 16 makes no
placeholder: only the expectation and the unadmitted counter follow it; a gap of 17 to 255 is a restart there too, which
breaks the tracking (R65, R66, R97, R98) and makes no record either. With one active and no gap its record joins the tail
with the next can number, the active product and the current Line Position, stamped from E and epoch of its valve, or
VALVE_RANGE when the valve is out of range. -/
def Obligations.DischargeCreatesRecord : Prop :=
  ∀ (s : State) (c : Copy) (rest : List (Role × Copy)) (v : Nat) (setPoint : Word16), s.hands .discharge c rest →
    v = dischargeValve c.payload → setPoint = dischargeSetPoint c.payload →
    (∀ tq : Tracking, s.pu.active = none →
      tq = { s.tq with
        dischargeExp := some (c.sequence + 1)
        counters := { s.tq.counters with unadmitted := tally s.tq.counters.unadmitted 1 } } →
      ((∀ e, s.tq.dischargeExp = some e → (c.sequence - e).toNat ≤ 16) →
        exec .dischargeFrame s = .next { s.taken rest with tq := tq }) ∧
      ∀ e, s.tq.dischargeExp = some e → 17 ≤ (c.sequence - e).toNat →
        (s.rm.tracking ≠ .synced →
          exec .dischargeFrame s = .next { s.taken rest with tq := tq, rm := { s.rm with cleanRun := 0 } }) ∧
        (s.rm.tracking = .synced →
          ∃ t : State, exec .dischargeFrame s = .next t ∧ OnlyChanges [.fp, .tq, .rm, .te, .rc] s t ∧ t.tq = tq ∧
            t.fp.handed = rest ∧ t.rm = { s.rm with cleanRun := 0, tracking := .lost } ∧ t.rc.ring = s.rc.ring)) ∧
    ∀ k : Fin 16, s.pu.active = some k → s.tq.dischargeExp = none ∨ s.tq.dischargeExp = some c.sequence →
      s.tq.queue.length < 128 →
      ∃ (t : State) (r : CanRecord), exec .dischargeFrame s = .next t ∧ OnlyChanges [.fp, .tq, .te] s t ∧
        t.fp.handed = rest ∧
        t.tq = { s.tq with
          queue := s.tq.queue ++ [r]
          canCounter := s.tq.canCounter + 1
          dischargeExp := some (c.sequence + 1)
          counters := { s.tq.counters with created := tally s.tq.counters.created 1 } } ∧
        (s.ma.setup.valveCount ≤ v ∨ 95 < v → t.te = s.te ∧
          r = { number := s.tq.canCounter, product := k, valve := none, setPoint := some setPoint, settled := false
                epoch := 0, dischargePos := s.pos.linePos, age := 0, stage := .filled, head := none, tag := none
                readResult := none, lotOk := false, result := none, placeholder := false, valveRange := true
                headRange := false }) ∧
        ∀ w : Fin Config.valves, w.val = v → v < s.ma.setup.valveCount →
          r = { number := s.tq.canCounter, product := k, valve := some w, setPoint := some setPoint
                settled := decide (s.rw.expected[w] = some setPoint), epoch := s.rw.epoch[w]
                dischargePos := s.pos.linePos, age := 0, stage := .filled, head := none, tag := none
                readResult := none, lotOk := false, result := none, placeholder := false, valveRange := false
                headRange := false }

/-- A discharge frame with a gap or into a full queue (R63 to R66, R68). A gap of 1 to 16 makes as many placeholders before
the frame's own record; one of 17 to 255 makes none and breaks the tracking; a queue of 128 is flushed into the ring and
the tracking is NOT_SYNCED, after a restart too, whose LOST may have frozen the ring before the flush (R99, R172); placeholders that reach 128 are flushed with what is queued, and the rest of them stand before
the frame's own record. The clauses with a flush suppose the ring within its 32 entries (ringInv). -/
def Obligations.DischargeGaps : Prop :=
  ∀ (s : State) (c : Copy) (rest : List (Role × Copy)) (k : Fin 16), s.hands .discharge c rest → s.pu.active = some k →
    (∀ (e : Byte) (m : Nat), s.tq.dischargeExp = some e → m = (c.sequence - e).toNat → 1 ≤ m → m ≤ 16 →
      s.tq.queue.length + m < 128 →
      ∃ (t : State) (r : CanRecord), exec .dischargeFrame s = .next t ∧ OnlyChanges [.fp, .tq, .te] s t ∧
        t.tq.queue = s.tq.queue ++ (List.range m).map (fun i => {
          number := s.tq.canCounter + BitVec.ofNat 32 i, product := k, valve := none, setPoint := none, settled := false
          epoch := 0, dischargePos := s.pos.linePos, age := 0, stage := .filled, placeholder := true }) ++ [r] ∧
        r.number = s.tq.canCounter + BitVec.ofNat 32 m ∧ r.placeholder = false ∧
        t.tq.canCounter = s.tq.canCounter + BitVec.ofNat 32 (m + 1) ∧
        t.tq.dischargeExp = some (c.sequence + 1) ∧
        t.tq.counters = { s.tq.counters with
          created := tally s.tq.counters.created (m + 1), placeholders := tally s.tq.counters.placeholders m }) ∧
    (∀ (e : Byte) (m : Nat), s.tq.dischargeExp = some e → m = (c.sequence - e).toNat → 17 ≤ m →
      s.tq.queue.length < 128 →
      ∃ (t : State) (r : CanRecord), exec .dischargeFrame s = .next t ∧
        OnlyChanges [.fp, .tq, .rm, .te, .rc] s t ∧ t.tq.queue = s.tq.queue ++ [r] ∧ r.number = s.tq.canCounter ∧
        t.tq.dischargeExp = some (c.sequence + 1) ∧ t.tq.counters.placeholders = s.tq.counters.placeholders ∧
        t.rm = { s.rm with
          cleanRun := 0, tracking := if s.rm.tracking = .synced then .lost else s.rm.tracking }) ∧
    (s.tq.dischargeExp = none ∨ s.tq.dischargeExp = some c.sequence → s.tq.queue.length = 128 → s.rc.ring.length ≤ 32 →
      ∃ (t : State) (r : CanRecord), exec .dischargeFrame s = .next t ∧
        OnlyChanges [.fp, .tq, .rm, .te, .rc] s t ∧ t.tq.queue = [r] ∧ r.number = s.tq.canCounter ∧
        t.tq.counters = { s.tq.counters with
          created := tally s.tq.counters.created 1, flushed := tally s.tq.counters.flushed 128
          flushEvents := tally s.tq.counters.flushEvents 1 } ∧
        t.rm = { s.rm with cleanRun := 0, unreadRun := 0, tracking := .notSynced } ∧
        t.rc = { s.rc with
          ring := s.rc.ringAfter (s.tq.queue.map fun x => removalEntry x .flushed s.pos.linePos) }) ∧
    (∀ e : Byte, s.tq.dischargeExp = some e → 17 ≤ (c.sequence - e).toNat → s.tq.queue.length = 128 →
      ∃ (t : State) (r : CanRecord), exec .dischargeFrame s = .next t ∧ OnlyChanges [.fp, .tq, .rm, .te, .rc] s t ∧
        t.tq = { s.tq with
          queue := [r]
          canCounter := s.tq.canCounter + 1
          dischargeExp := some (c.sequence + 1)
          counters := { s.tq.counters with
            created := tally s.tq.counters.created 1, flushed := tally s.tq.counters.flushed 128
            flushEvents := tally s.tq.counters.flushEvents 1 } } ∧
        r.number = s.tq.canCounter ∧ r.placeholder = false ∧
        t.rm = { s.rm with cleanRun := 0, unreadRun := 0, tracking := .notSynced } ∧
        (s.rm.tracking = .synced → s.ma.setup.freezeOnLost = true →
          t.rc.ring = s.rc.ring ∧ t.rc.freeze = .alarm ∧
          t.rc.cause = (if s.rc.freeze = .alarm then s.rc.cause else some .lost)) ∧
        (s.rm.tracking ≠ .synced ∨ s.ma.setup.freezeOnLost = false → s.rc.ring.length ≤ 32 →
          t.rc = { s.rc with
            ring := s.rc.ringAfter (s.tq.queue.map fun x => removalEntry x .flushed s.pos.linePos) })) ∧
    ∀ (e : Byte) (m : Nat) (made : Nat → CanRecord), s.tq.dischargeExp = some e → m = (c.sequence - e).toNat → 1 ≤ m →
      m ≤ 16 → s.tq.queue.length ≤ 128 → 128 ≤ s.tq.queue.length + m → s.rc.ring.length ≤ 32 →
      made = (fun i => {
        number := s.tq.canCounter + BitVec.ofNat 32 i, product := k, valve := none, setPoint := none, settled := false
        epoch := 0, dischargePos := s.pos.linePos, age := 0, stage := .filled, placeholder := true }) →
      ∃ (t : State) (r : CanRecord), exec .dischargeFrame s = .next t ∧ OnlyChanges [.fp, .tq, .rm, .te, .rc] s t ∧
        t.tq = { s.tq with
          queue := ((List.range m).map made).drop (128 - s.tq.queue.length) ++ [r]
          canCounter := s.tq.canCounter + BitVec.ofNat 32 (m + 1)
          dischargeExp := some (c.sequence + 1)
          counters := { s.tq.counters with
            created := tally s.tq.counters.created (m + 1), placeholders := tally s.tq.counters.placeholders m
            flushed := tally s.tq.counters.flushed 128, flushEvents := tally s.tq.counters.flushEvents 1 } } ∧
        r.number = s.tq.canCounter + BitVec.ofNat 32 m ∧ r.placeholder = false ∧
        t.rm = { s.rm with cleanRun := 0, unreadRun := 0, tracking := .notSynced } ∧
        t.rc = { s.rc with
          ring := s.rc.ringAfter ((s.tq.queue ++ ((List.range m).map made).take (128 - s.tq.queue.length)).map
            fun x => removalEntry x .flushed s.pos.linePos) }

/-- A seam frame (R69 to R73, R79). Its own seam makes the oldest FILLED record CODED with the head and a tag; the tag counter
advances; the print-tag frame joins its queue, or the record takes the null tag; without a coder no frame is built. A gap of
1 to 16 codes as many oldest FILLED records with the null tag; one of 17 to 255 breaks the tracking. A seam that finds no
FILLED record, the frame's own or a lost one, is an orphan: it is counted, no tag is issued and no print-tag frame is
offered. -/
def Obligations.SeamCodesOldestFilled : Prop :=
  ∀ (s : State) (c : Copy) (rest : List (Role × Copy)) (head : Byte) (m : Nat), s.hands .seam c rest →
    head = seamHead c.payload →
    m = (match s.tq.seamExp with | none => 0 | some e => (c.sequence - e).toNat) →
    (∀ (a lost b : List CanRecord) (r : CanRecord), s.tq.queue = a ++ lost ++ r :: b → (∀ x ∈ a, x.stage ≠ .filled) →
      m ≤ 16 → lost.length = m → (∀ x ∈ lost, x.stage = .filled) → r.stage = .filled →
      ∃ (t : State) (tag : Tag), exec .seamFrame s = .next t ∧ OnlyChanges [.fp, .tq] s t ∧
        t.fp.handed = rest ∧
        t.tq = { s.tq with
          queue := a ++ lost.map (fun x => { x with stage := .coded, head := none, tag := some 4095 }) ++
            { r with stage := .coded, head := some head, tag := some tag
                     headRange := decide (s.ma.setup.headCount ≤ head.toNat) } :: b
          tagCounter := if s.tq.tagCounter = 4094 then 0 else s.tq.tagCounter + 1
          seamExp := some (c.sequence + 1) } ∧
        (s.ma.setup.coder = 255 → tag = s.tq.tagCounter ∧ t.fp = (s.taken rest).fp) ∧
        (s.ma.setup.coder ≠ 255 → (s.fp.port s.ma.setup.coderPort).linkUp = true →
          (s.fp.port s.ma.setup.coderPort).printTag.length < 4 →
          tag = s.tq.tagCounter ∧ t.fp.seqMgmt = s.fp.seqMgmt + 1 ∧
          (t.fp.port s.ma.setup.coderPort).printTag = (s.fp.port s.ma.setup.coderPort).printTag ++
            [insertedFrame s.fp.station s.ma.setup.coder 240 s.fp.seqMgmt
              ([0x81, 0] ++ beBytes 2 s.tq.tagCounter.toNat ++ beBytes 4 r.number.toNat)]) ∧
        (s.ma.setup.coder ≠ 255 →
          (s.fp.port s.ma.setup.coderPort).linkUp = false ∨ 4 ≤ (s.fp.port s.ma.setup.coderPort).printTag.length →
          tag = 4095 ∧ t.fp = ((s.taken rest).onPort s.ma.setup.coderPort fun ps => { ps with
            counters := { ps.counters with dropped := tally ps.counters.dropped 1 } }).fp)) ∧
    (m = 0 → (∀ x ∈ s.tq.queue, x.stage ≠ .filled) →
      ∃ t : State, exec .seamFrame s = .next t ∧ OnlyChanges [.fp, .tq, .rm, .te, .rc] s t ∧ t.fp.handed = rest ∧
        t.tq = { s.tq with
          seamExp := some (c.sequence + 1)
          counters := { s.tq.counters with orphanSeams := tally s.tq.counters.orphanSeams 1 } } ∧
        t.rm = { s.rm with
          cleanRun := 0, tracking := if s.rm.tracking = .synced then .lost else s.rm.tracking } ∧
        ∀ p : Port, (t.fp.port p).printTag = (s.fp.port p).printTag) ∧
    (∀ a lost b : List CanRecord, s.tq.queue = a ++ lost ++ b → (∀ x ∈ a, x.stage ≠ .filled) →
      (∀ x ∈ lost, x.stage = .filled) → (∀ x ∈ b, x.stage ≠ .filled) → lost.length ≤ m → m ≤ 16 →
      ∃ t : State, exec .seamFrame s = .next t ∧ OnlyChanges [.fp, .tq, .rm, .te, .rc] s t ∧ t.fp.handed = rest ∧
        t.tq = { s.tq with
          queue := a ++ lost.map (fun x => { x with stage := .coded, head := none, tag := some 4095 }) ++ b
          seamExp := some (c.sequence + 1)
          counters := { s.tq.counters with orphanSeams := tally s.tq.counters.orphanSeams (m - lost.length + 1) } } ∧
        t.rm = { s.rm with
          cleanRun := 0, tracking := if s.rm.tracking = .synced then .lost else s.rm.tracking } ∧
        ∀ p : Port, (t.fp.port p).printTag = (s.fp.port p).printTag) ∧
    (17 ≤ m → (∀ x ∈ s.tq.queue, x.stage ≠ .filled) →
      ∃ t : State, exec .seamFrame s = .next t ∧ OnlyChanges [.fp, .tq, .rm, .te, .rc] s t ∧ t.fp.handed = rest ∧
        t.tq = { s.tq with
          seamExp := some (c.sequence + 1)
          counters := { s.tq.counters with orphanSeams := tally s.tq.counters.orphanSeams 1 } } ∧
        t.rm = { s.rm with
          cleanRun := 0, tracking := if s.rm.tracking = .synced then .lost else s.rm.tracking } ∧
        ∀ p : Port, (t.fp.port p).printTag = (s.fp.port p).printTag) ∧
    ∀ (a b : List CanRecord) (r : CanRecord), s.tq.queue = a ++ r :: b → (∀ x ∈ a, x.stage ≠ .filled) →
      r.stage = .filled → 17 ≤ m →
      ∃ (t : State) (tag : Tag), exec .seamFrame s = .next t ∧ OnlyChanges [.fp, .tq, .rm, .te, .rc] s t ∧
        t.fp.handed = rest ∧
        t.tq = { s.tq with
          queue := a ++ { r with stage := .coded, head := some head, tag := some tag
                                 headRange := decide (s.ma.setup.headCount ≤ head.toNat) } :: b
          tagCounter := if s.tq.tagCounter = 4094 then 0 else s.tq.tagCounter + 1
          seamExp := some (c.sequence + 1) } ∧
        (tag = s.tq.tagCounter ∨ tag = 4095) ∧
        t.rm = { s.rm with
          cleanRun := 0, tracking := if s.rm.tracking = .synced then .lost else s.rm.tracking }

/-- At a pitch tick that has raised the ages every record older than the max age is removed MISSING, oldest first, counted and
written to the ring unless it is frozen; the others stay in their order and nothing else changes (R61, R75, R170). Without
such a tick no record is removed (R75). That the row is a command by itself is log 9, how the model keeps that a tick has
raised the ages (set and consumed within one step, so that a step from a state without one leaves none) is log 38, and
that the entries carry the Line Position of its boundary is log 13: the model's choices. The ring is supposed within its 32
entries (ringInv). -/
def Obligations.AgedRecordsRemoved : Prop :=
  (∀ (s : State) (boundary : Word32) (old : List CanRecord), s.tq.ticked = some boundary → s.rc.ring.length ≤ 32 →
    old = s.tq.queue.filter (fun r => decide (s.ma.setup.maxAge < r.age)) →
    exec .maxAgeRemoval s = .next { s with
      tq := { s.tq with
        queue := s.tq.queue.filter fun r => decide (r.age ≤ s.ma.setup.maxAge)
        ticked := none
        counters := { s.tq.counters with missing := tally s.tq.counters.missing old.length } }
      rc := { s.rc with ring := s.rc.ringAfter (old.map fun r => removalEntry r .missing boundary) } }) ∧
  (∀ s : State, s.tq.ticked = none → exec .maxAgeRemoval s = .next s) ∧
  ∀ s t : State, s.tq.ticked = none → step s = .next t → t.tq.ticked = none

/-- A Window Result taken (R76, R77, R103, R106, R109 to R112, R120). The oldest PASSED_READER record is judged into its class,
counted and removed; without one the result is an orphan weigh of class ORPHAN and the queue stays. A can of a rejected
class leaves its entry in the Reject Schedule, in its place: PENDING at the fire position with no deadline, or, where Line
Position has reached that, LATE and FIRED at Line Position with a deadline a confirm window on, its reject command sent. Where
the schedule is full or the command is not taken it is a lost reject. Late, fired and lost rejects are counted, and Line Stop
Request rises for a lost reject and for an entry that joins while ENCODER_FAULT stands, and for no other; a can of an accepted
class leaves all this as it was. The can's valve is counted (R140), and under the seven conditions of R141 fed and decided; an armed valve's can is
captured, and the countdown arms the valve (R174, R175). The JUDGED entry joins the ring and its outcome the burst
history, which may freeze the ring (R169 to R172). Where they matter, ring and history are supposed within 32 (ringInv)
and TRIM_HOLD as R133 says (flagInv). By the model's choice a fire position exactly 2^31 counts away is not yet reached
(log 34), and an empty product slot, which no run has under a queued can, gives NO_WEIGHT (log 18). -/
def Obligations.WindowResultJudged : Prop :=
  ∀ (s : State) (w : WindowResult) (more : List WindowResult), s.fe.results = w :: more →
    (∀ (a b : List CanRecord) (r : CanRecord) (cls : CanClass) (net : Option Int) (rejected late scheduled : Bool),
      s.tq.queue = a ++ r :: b → (∀ x ∈ a, x.stage ≠ .passed) → r.stage = .passed →
      cls = classOf s.pu.table[r.product] s.rm.tracking r.readResult w → net = netWeight s.pu.table[r.product] w →
      rejected = s.jr.policy[classIndex cls] →
      late = decide (rejected = true ∧ s.jr.schedule.length < 32 ∧
        atOrAfter s.pos.linePos (firePosition s.pos s.ma.setup.rejectOffset w.entryPos) = true) →
      scheduled = decide (rejected = true ∧ s.jr.schedule.length < 32 ∧ (late = false ∨
        (s.ma.setup.rejector ≠ 255 ∧ (s.fp.port s.ma.setup.rejectorPort).linkUp = true ∧
          (s.fp.port s.ma.setup.rejectorPort).reject.length < 4))) →
      ∃ t : State, exec .windowResult s = .next t ∧ OnlyChanges [.fp, .fe, .tq, .jr, .te, .rw, .rc] s t ∧
        t.fe = { s.fe with results := more } ∧ t.tq = { s.tq with queue := a ++ b } ∧
        s.schedulesInto t (some r.number) cls w.entryPos rejected late scheduled ∧
        t.te = { s.te with valves := t.te.valves, trimHold := t.te.trimHold } ∧
        (s.te.trimHold = s.holdsTrim → t.te.trimHold = t.holdsTrim) ∧
        (r.valve = none → s.te.trimHold = s.holdsTrim → t.te.valves = s.te.valves ∧ t.rw = s.rw ∧ t.rc.slots = s.rc.slots ∧ t.rc.order = s.rc.order ∧
          t.rc.captureNumber = s.rc.captureNumber ∧ t.rc.captureReady = s.rc.captureReady ∧
          t.rc.counters = s.rc.counters) ∧
        (∀ (v : Fin Config.valves) (counted : ValveRecord) (cap : Capture) (interval : Nat), r.valve = some v →
          s.te.trimHold = s.holdsTrim → counted = { s.te.valves[v] with
            weighed := tally s.te.valves[v].weighed 1
            rejected := if rejected then tally s.te.valves[v].rejected 1 else s.te.valves[v].rejected } →
          cap = { captureNumber := s.rc.captureNumber, record := { r with result := some w }, cls := cls, net := net
                  late := late, scheduled := scheduled, result := w } →
          interval = s.te.table[v].captureInterval →
          (∀ x : Fin Config.valves, x ≠ v → t.te.valves[x] = s.te.valves[x] ∧
            t.rw.expected[x] = s.rw.expected[x] ∧ t.rw.epoch[x] = s.rw.epoch[x]) ∧
          t.rw.counters = s.rw.counters ∧
          (¬ s.feedsCan v r w cls →
            t.te.valves[v] = { counted with countdown := t.te.valves[v].countdown, armed := t.te.valves[v].armed } ∧
            t.rw = s.rw) ∧
          (∀ (p : Product) (g : Int) (d : ValveRecord) (clear : Bool), s.feedsCan v r w cls →
            s.pu.table[r.product] = some p → net = some g → (d, clear) = trimDecision p r.number (fedRecord p g counted) →
            t.te.valves[v] = { d with countdown := t.te.valves[v].countdown, armed := t.te.valves[v].armed } ∧
            t.rw.expected[v] = (if clear then none else s.rw.expected[v]) ∧
            t.rw.epoch[v] = (if clear then s.rw.epoch[v] + 1 else s.rw.epoch[v])) ∧
          (interval = 0 →
            t.te.valves[v].countdown = s.te.valves[v].countdown ∧ t.te.valves[v].armed = s.te.valves[v].armed) ∧
          (interval ≠ 0 → s.te.valves[v].countdown = 1 →
            t.te.valves[v].countdown = interval ∧ t.te.valves[v].armed = true) ∧
          (interval ≠ 0 → 2 ≤ s.te.valves[v].countdown → t.te.valves[v].countdown = s.te.valves[v].countdown - 1 ∧
            (s.te.valves[v].armed = false → t.te.valves[v].armed = false)) ∧
          (interval = 0 ∨ s.te.valves[v].armed = false →
            t.rc.slots = s.rc.slots ∧ t.rc.order = s.rc.order ∧ t.rc.captureNumber = s.rc.captureNumber ∧
            t.rc.captureReady = s.rc.captureReady ∧ t.rc.counters = s.rc.counters) ∧
          (interval ≠ 0 → s.te.valves[v].armed = true →
            (∀ i : Fin 4, s.rc.slots[i] = .empty → (∀ j : Fin 4, j < i → s.rc.slots[j] ≠ .empty) →
              s.rc.storesAt t.rc s.ma.setup.captureThreshold i cap ∧
              t.rc.counters = { s.rc.counters with stored := tally s.rc.counters.stored 1 } ∧
              (2 ≤ s.te.valves[v].countdown → t.te.valves[v].armed = false)) ∧
            (∀ (before after : List (Fin 4)) (i : Fin 4), (∀ j : Fin 4, s.rc.slots[j] ≠ .empty) →
              s.ma.setup.captureWrap = true → s.rc.order = before ++ i :: after →
              (∀ j ∈ before, s.rc.slots[j].isStored = false) → s.rc.slots[i].isStored = true →
              s.rc.storesAt t.rc s.ma.setup.captureThreshold i cap ∧
              t.rc.counters = { s.rc.counters with
                stored := tally s.rc.counters.stored 1, overwritten := tally s.rc.counters.overwritten 1 } ∧
              (2 ≤ s.te.valves[v].countdown → t.te.valves[v].armed = false)) ∧
            ((∀ j : Fin 4, s.rc.slots[j] ≠ .empty) → s.ma.setup.captureWrap = false →
              t.rc.slots = s.rc.slots ∧ t.rc.order = s.rc.order ∧ t.rc.captureNumber = s.rc.captureNumber ∧
              t.rc.captureReady = s.rc.captureReady ∧ t.te.valves[v].armed = true ∧
              t.rc.counters = { s.rc.counters with missed := tally s.rc.counters.missed 1 }))) ∧
        t.rc.engine = s.rc.engine ∧ s.burstFreezes t.rc.burst t.rc ∧
        (s.rc.burst.length ≤ 32 → t.rc.burst = s.rc.burstAfter (decide (cls = .rejLow ∨ cls = .rejHigh))) ∧
        (s.rc.ring.length ≤ 32 → t.rc.ring = s.rc.ringAfter [{
          number := some r.number, product := some r.product, valve := r.valve, head := r.head, tag := r.tag
          readResult := r.readResult, gross := w.gross, net := net, cls := some cls, fate := .judged, short := w.short
          gap := w.gap, late := late, settled := r.settled, scheduled := scheduled, linePos := s.pos.linePos }])) ∧
    ∀ late scheduled : Bool, (∀ x ∈ s.tq.queue, x.stage ≠ .passed) →
      late = decide (s.jr.policy[0] = true ∧ s.jr.schedule.length < 32 ∧
        atOrAfter s.pos.linePos (firePosition s.pos s.ma.setup.rejectOffset w.entryPos) = true) →
      scheduled = decide (s.jr.policy[0] = true ∧ s.jr.schedule.length < 32 ∧ (late = false ∨
        (s.ma.setup.rejector ≠ 255 ∧ (s.fp.port s.ma.setup.rejectorPort).linkUp = true ∧
          (s.fp.port s.ma.setup.rejectorPort).reject.length < 4))) →
      ∃ t : State, exec .windowResult s = .next t ∧ OnlyChanges [.fp, .fe, .tq, .jr, .te, .rc] s t ∧
        t.fe = { s.fe with results := more } ∧
        t.tq = { s.tq with counters := { s.tq.counters with orphanWeighs := tally s.tq.counters.orphanWeighs 1 } } ∧
        s.schedulesInto t none .orphan w.entryPos s.jr.policy[0] late scheduled ∧
        (s.te.trimHold = s.holdsTrim →
          t.te = { s.te with trimHold := t.te.trimHold } ∧ t.te.trimHold = t.holdsTrim) ∧
        t.rc = { s.rc with ring := t.rc.ring, burst := t.rc.burst, freeze := t.rc.freeze, cause := t.rc.cause } ∧
        s.burstFreezes t.rc.burst t.rc ∧ (s.rc.burst.length ≤ 32 → t.rc.burst = s.rc.burstAfter false) ∧
        (s.rc.ring.length ≤ 32 → t.rc.ring = s.rc.ringAfter [{
          number := none, product := none, valve := none, head := none, tag := none, readResult := none
          gross := w.gross, net := none, cls := some .orphan, fate := .judged, short := w.short, gap := w.gap
          late := late, settled := false, scheduled := scheduled, linePos := s.pos.linePos }])

/-- Every step keeps the product records ones that R159 accepts, the active product and the products of queued records slots
that hold one (R160, R162), at most 128 records whose stage, tag and read result agree (R59, R60), the tag counter within 0 to
4,094 (R72, R79), the order of stages, ages, can numbers and tags of the queue (R59, R60, R72; with the Line Setup record and
the queue in order), ORPHAN and NO_WEIGHT rejected (R108), at most 32 entries in the Reject Schedule (R110), and a deadline
exactly on the FIRED ones (Table 6-3). -/
def Obligations.QueueAndRejectInvKept : Prop :=
  (∀ s t : State, s.tableInv → step s = .next t → t.tableInv) ∧
  (∀ s t : State, s.productInv → step s = .next t → t.productInv) ∧
  (∀ s t : State, s.queueInv → step s = .next t → t.queueInv) ∧
  (∀ s t : State, s.setupInv → s.queueInv → s.orderInv → step s = .next t → t.orderInv) ∧
  ∀ s t : State, s.rejectInv → step s = .next t → t.rejectInv

/-! ## The Reader Matcher (05_code_reading_and_resynchronisation.md) -/

/-- The parsing of a read frame (R86): NO_READ whatever the text, the three kinds of invalid read, the NULL read and the TAG
read with the value of its three upper-case hexadecimal characters and its lot text. -/
def Obligations.ReadsParsed : Prop :=
  ∀ (setup : LineSetup) (payload text : List Byte), text = bytesAt payload 2 (byteAt payload 1).toNat →
    ((byteAt payload 0).toNat = 0 → parseRead setup payload = (.noRead, false)) ∧
    (2 ≤ (byteAt payload 0).toNat → parseRead setup payload = (.noRead, true)) ∧
    ((byteAt payload 0).toNat = 1 → text.length ≠ setup.codeLength → parseRead setup payload = (.noRead, true)) ∧
    ((byteAt payload 0).toNat = 1 → text.length = setup.codeLength →
      (∃ b ∈ bytesAt text setup.tagStart 3, ¬ (0x30 ≤ b.toNat ∧ b.toNat ≤ 0x39) ∧ ¬ (0x41 ≤ b.toNat ∧ b.toNat ≤ 0x46)) →
      parseRead setup payload = (.noRead, true)) ∧
    ∀ (t : Tag) (digit : Nat → Byte), (byteAt payload 0).toNat = 1 → text.length = setup.codeLength →
      (digit = fun d => if d < 10 then BitVec.ofNat 8 (0x30 + d) else BitVec.ofNat 8 (0x41 + (d - 10))) →
      bytesAt text setup.tagStart 3 = [digit (t.toNat / 256), digit (t.toNat / 16 % 16), digit (t.toNat % 16)] →
      parseRead setup payload =
        if t = 4095 then (.null, false) else (.tag t (bytesAt text setup.lotStart setup.lotLength), false)

/-- A read frame without a gap that finds CODED records (R87, R89, R91 to R93, R97): an exact match, an unread mark of the
expected record, or a lookahead match that removes the records it passes over. A gap of 1 to 16 handles as many lost reads
first, each marking the oldest CODED record UNREAD or, without one, an orphan read; a gap of 17 to 255 is a restart, which
breaks the tracking (R87, R88, R98). After either, the frame is read as one without a gap. A match is READ where the lot text
is the current lot of the record's product, or its previous lot for a can number before lot boundary plus lot grace, and
MISMATCH otherwise (R95; an empty product slot, which no run has there, gives MISMATCH: log 18; at a distance of exactly 2^31 a
number is not before: log 34). That no risen run is left is
log 35, the model's own field. -/
def Obligations.ReadsMatched : Prop :=
  (∀ (s : State) (c : Copy) (rest : List (Role × Copy)) (e : Byte) (m : Nat), s.hands .read c rest →
    s.rm.expectation = some e → m = (c.sequence - e).toNat →
    (∀ a lost b : List CanRecord, s.tq.queue = a ++ lost ++ b → (∀ x ∈ a, x.stage ≠ .coded) →
      (∀ x ∈ lost, x.stage = .coded) → 1 ≤ m → m ≤ 16 →
      lost.length = m ∨ (lost.length < m ∧ ∀ x ∈ b, x.stage ≠ .coded) →
      ∃ u : State, exec .readFrame s = exec .readFrame u ∧ OnlyChanges [.fp, .tq, .rm, .te, .rc] s u ∧
        u.fp.handed = s.fp.handed ∧
        u.tq = { s.tq with
          queue := a ++ lost.map (fun x => { x with readResult := some .unread, lotOk := false, stage := .passed }) ++ b } ∧
        u.rm = { s.rm with
          expectation := some c.sequence
          cleanRun := if lost = [] then s.rm.cleanRun else 0
          unreadRun := if lost = [] then s.rm.unreadRun else min (s.rm.unreadRun + lost.length) 255
          risen := if lost = [] then s.rm.risen else none
          tracking :=
            if s.rm.tracking = .synced ∧ lost ≠ [] ∧ s.ma.setup.unreadLimit ≤ min (s.rm.unreadRun + lost.length) 255 then
              .lost
            else s.rm.tracking
          counters := { s.rm.counters with
            lostReads := tally s.rm.counters.lostReads m, unread := tally s.rm.counters.unread lost.length
            orphan := tally s.rm.counters.orphan (m - lost.length) } } ∧
        (u.rm.tracking = s.rm.tracking → u.fp = s.fp ∧ u.te = s.te ∧ u.rc = s.rc)) ∧
    (17 ≤ m →
      ∃ u : State, exec .readFrame s = exec .readFrame u ∧ OnlyChanges [.fp, .rm, .te, .rc] s u ∧
        u.fp.handed = s.fp.handed ∧
        u.rm = { s.rm with
          expectation := some c.sequence, cleanRun := 0
          tracking := if s.rm.tracking = .synced then .lost else s.rm.tracking
          counters := { s.rm.counters with restarts := tally s.rm.counters.restarts 1 } } ∧
        (u.rm.tracking = s.rm.tracking → u.fp = s.fp ∧ u.te = s.te ∧ u.rc = s.rc))) ∧
  ∀ (s : State) (c : Copy) (rest : List (Role × Copy)) (rd : CodeRead) (invalid : Bool) (a b : List CanRecord)
    (r : CanRecord) (base : ReaderCounters) (agrees : CanRecord → List Byte → Prop),
    s.hands .read c rest → s.rm.expectation = none ∨ s.rm.expectation = some c.sequence →
    parseRead s.ma.setup c.payload = (rd, invalid) →
    base = { s.rm.counters with
      readFrames := tally s.rm.counters.readFrames 1
      invalid := if invalid then tally s.rm.counters.invalid 1 else s.rm.counters.invalid } →
    s.tq.queue = a ++ r :: b → (∀ x ∈ a, x.stage ≠ .coded) → r.stage = .coded →
    (agrees = fun x lot => ∃ p : Product, s.pu.table[x.product] = some p ∧
      (lot = p.currentLot.take s.ma.setup.lotLength ∨
        ∃ (prev : List Byte) (ahead : Nat), p.previousLot = some prev ∧ lot = prev.take s.ma.setup.lotLength ∧
          ahead = (s.rm.lotBoundary[x.product] + BitVec.ofNat 32 s.ma.setup.lotGrace - x.number).toNat ∧
          1 ≤ ahead ∧ ahead < 2147483648)) →
    (∀ (tag : Tag) (lot : List Byte) (good : Bool), rd = .tag tag lot → r.tag = some tag →
      (good = true ↔ agrees r lot) →
      ∃ t : State, exec .readFrame s = .next t ∧ OnlyChanges [.fp, .tq, .rm, .te] s t ∧
        t.tq = { s.tq with queue := a ++ { r with
          readResult := some (if good then .read else .mismatch), lotOk := good, stage := .passed } :: b } ∧
        t.rm = { s.rm with
          expectation := some (c.sequence + 1), cleanRun := min (s.rm.cleanRun + 1) 255, unreadRun := 0, risen := none
          tracking := if s.ma.setup.syncReads ≤ min (s.rm.cleanRun + 1) 255 then .synced else s.rm.tracking
          counters := { base with
            exact := tally base.exact 1
            mismatches := if good then base.mismatches else tally base.mismatches 1 } }) ∧
    ((rd = .noRead ∨ rd = .null ∨ ∃ tag lot, rd = .tag tag lot ∧ r.tag ≠ some tag ∧
        (∀ y ∈ (b.filter fun y => y.stage == .coded).take s.ma.setup.lookahead, y.tag ≠ some tag) ∧
        ∀ x ∈ s.tq.queue, x.stage = .passed → x.tag ≠ some tag) →
      ∃ t : State, exec .readFrame s = .next t ∧ OnlyChanges [.fp, .tq, .rm, .te, .rc] s t ∧
        t.tq = { s.tq with queue := a ++ { r with
          readResult := some .unread, lotOk := false, stage := .passed } :: b } ∧
        t.rm = { s.rm with
          expectation := some (c.sequence + 1), cleanRun := 0, unreadRun := min (s.rm.unreadRun + 1) 255, risen := none
          tracking :=
            if s.rm.tracking = .synced ∧ s.ma.setup.unreadLimit ≤ min (s.rm.unreadRun + 1) 255 then .lost
            else s.rm.tracking
          counters := { base with unread := tally base.unread 1 } }) ∧
    ∀ (tag : Tag) (lot : List Byte) (mid later : List CanRecord) (x : CanRecord) (good : Bool), rd = .tag tag lot →
      b = mid ++ x :: later → (∀ y ∈ mid, y.stage = .coded) → x.stage = .coded → x.tag = some tag → r.tag ≠ some tag →
      (∀ y ∈ mid, y.tag ≠ some tag) → mid.length + 1 ≤ s.ma.setup.lookahead → s.rc.ring.length ≤ 32 →
      (good = true ↔ agrees x lot) →
      exec .readFrame s = .next { s.taken rest with
        tq := { s.tq with
          queue := a ++ { x with
            readResult := some (if good then .read else .mismatch), lotOk := good, stage := .passed } :: later
          counters := { s.tq.counters with missing := tally s.tq.counters.missing (mid.length + 1) } }
        rm := { s.rm with
          expectation := some (c.sequence + 1), cleanRun := 0, unreadRun := 0
          counters := { base with
            slips := tally base.slips 1
            mismatches := if good then base.mismatches else tally base.mismatches 1 } }
        rc := { s.rc with
          ring := s.rc.ringAfter ((r :: mid).map fun y => removalEntry y .missing s.pos.linePos) } }

/-- A read that finds no CODED record is an orphan read (R90); a TAG read whose tag neither the expected record nor one within
the lookahead carries, but a PASSED_READER record does, is a duplicate read (R94). Neither changes a record. -/
def Obligations.OrphanAndDuplicateReads : Prop :=
  ∀ (s : State) (c : Copy) (rest : List (Role × Copy)) (rd : CodeRead) (invalid : Bool) (base : ReaderCounters),
    s.hands .read c rest → s.rm.expectation = none ∨ s.rm.expectation = some c.sequence →
    parseRead s.ma.setup c.payload = (rd, invalid) →
    base = { s.rm.counters with
      readFrames := tally s.rm.counters.readFrames 1
      invalid := if invalid then tally s.rm.counters.invalid 1 else s.rm.counters.invalid } →
    ((∀ x ∈ s.tq.queue, x.stage ≠ .coded) →
      exec .readFrame s = .next { s.taken rest with rm := { s.rm with
        expectation := some (c.sequence + 1)
        cleanRun := (match rd with | .tag _ _ => 0 | .noRead | .null => s.rm.cleanRun)
        counters := { base with orphan := tally base.orphan 1 } } }) ∧
    ∀ (tag : Tag) (lot : List Byte) (r : CanRecord) (b : List CanRecord), rd = .tag tag lot →
      s.tq.queue.filter (fun x => x.stage == .coded) = r :: b → r.tag ≠ some tag →
      (∀ y ∈ b.take s.ma.setup.lookahead, y.tag ≠ some tag) →
      (∃ x ∈ s.tq.queue, x.stage = .passed ∧ x.tag = some tag) →
      exec .readFrame s = .next { s.taken rest with rm := { s.rm with
        expectation := some (c.sequence + 1), counters := { base with duplicate := tally base.duplicate 1 } } }

/-- The thresholds of Table 5-3 (R98, R99, R133, R172). A risen clean run at or above sync reads makes the state SYNCED, a
risen unread run at or above the unread limit makes SYNCED LOST, and LOST freezes the ring where the Line Setup asks for it;
Trim Hold follows. A risen run below its limit is compared in vain, and without a risen run nothing changes. That the rows are
commands by themselves is log 9, and how the model keeps a risen run (set and compared within one step, so that a step from
a state without one leaves none) is log 35: the model's choices. -/
def Obligations.TrackingThresholds : Prop :=
  (∀ s : State, s.rm.risen = some .clean → s.rm.tracking ≠ .synced → s.ma.setup.syncReads ≤ s.rm.cleanRun →
    ∃ t : State, exec .trackingSynced s = .next t ∧ OnlyChanges [.fp, .rm, .te] s t ∧
      t.rm = { s.rm with tracking := .synced, risen := none } ∧ t.te.trimHold = t.holdsTrim) ∧
  (∀ s : State, s.rm.risen = some .clean → s.rm.tracking = .synced ∨ s.rm.cleanRun < s.ma.setup.syncReads →
    exec .trackingSynced s = .next { s with rm := { s.rm with risen := none } }) ∧
  (∀ s : State, s.rm.risen ≠ some .clean → exec .trackingSynced s = .next s) ∧
  (∀ s : State, s.rm.risen = some .unread → s.rm.tracking = .synced → s.ma.setup.unreadLimit ≤ s.rm.unreadRun →
    ∃ t : State, exec .trackingLost s = .next t ∧ OnlyChanges [.fp, .rm, .te, .rc] s t ∧
      t.rm = { s.rm with tracking := .lost, risen := none } ∧ t.te.trimHold = t.holdsTrim ∧
      (s.ma.setup.freezeOnLost = true → s.rc.freeze ≠ .alarm →
        t.rc = { s.rc with freeze := .alarm, cause := some .lost }) ∧
      (s.ma.setup.freezeOnLost = false ∨ s.rc.freeze = .alarm → t.rc = s.rc)) ∧
  (∀ s : State, s.rm.risen = some .unread → s.rm.tracking ≠ .synced ∨ s.rm.unreadRun < s.ma.setup.unreadLimit →
    exec .trackingLost s = .next { s with rm := { s.rm with risen := none } }) ∧
  (∀ s : State, s.rm.risen ≠ some .unread → exec .trackingLost s = .next s) ∧
  ∀ s t : State, s.rm.risen = none → step s = .next t → t.rm.risen = none

/-! ## Judgement and rejection (06_judgement_and_rejection.md) -/

/-- The class of a can judged with a record is the first of Table 6-2 whose condition holds (R104, R105). -/
def Obligations.ClassFollowsTable : Prop :=
  ∀ (p : Product) (tracking : TrackingState) (read : Option ReadResult) (w : WindowResult) (net : Int),
    net = max (-2147483648) (min (w.gross.getD 0 - p.tare) 2147483647) →
    some (classOf (some p) tracking read w) = (([
      (.noWeight, decide (w.gross = none ∨ w.count < p.minSamples)),
      (.zeroFault, w.zeroFault),
      (.unstable, w.unstable || w.gap),
      (.mismatch, decide (read = some .mismatch)),
      (.unread, decide (read = some .unread)),
      (.rejLow, decide (net < p.rejectLow)),
      (.rejHigh, decide (p.rejectHigh < net)),
      (.unverified, decide (tracking ≠ .synced)),
      (.low, decide (net < p.warnLow)),
      (.high, decide (p.warnHigh < net)),
      (.ok, true)] : List (CanClass × Bool)).find? (·.2)).map (·.1)

/-- The fire position is the first pitch boundary of the working grid at or after the sum of entry position and reject offset;
where no boundary follows before the wrap of Line Position it is the phase (R111). -/
def Obligations.FirePositionIsNextBoundary : Prop :=
  ∀ (pos : Position) (offset : Nat) (entry sum : Word32), pos.phase < pos.pitch → pos.pitch ≤ 65535 →
    sum = entry + BitVec.ofNat 32 offset →
    isBoundary pos.pitch pos.phase (firePosition pos offset entry) = true ∧
    (sum.toNat ≤ (firePosition pos offset entry).toNat →
      ∀ x : Word32, sum.toNat ≤ x.toNat → x.toNat < (firePosition pos offset entry).toNat →
        isBoundary pos.pitch pos.phase x = false) ∧
    ((firePosition pos offset entry).toNat < sum.toNat →
      (firePosition pos offset entry).toNat = pos.phase ∧
      ∀ x : Word32, sum.toNat ≤ x.toNat → isBoundary pos.pitch pos.phase x = false)

/-- A due entry fires or times out (R114, R115, R118). Firing offers the reject command: joined, the entry is FIRED with
its deadline; refused, or without a rejector, the entry is removed REJECT_LOST and Line Stop Request raised. A FIRED entry
past its deadline is removed REJECT_UNCONFIRMED, Line Stop Request raised, and the ring frozen where the Line Setup asks.
That REJECT_FIRE and CONFIRM_TIMEOUT act on a due entry when commanded by themselves is log 9, the model's choice. -/
def Obligations.RejectFires : Prop :=
  ∀ (s : State) (a b : List RejectEntry) (e : RejectEntry) (port : Port), s.jr.schedule = a ++ e :: b →
    port = s.ma.setup.rejectorPort →
    ((∀ x ∈ a, x.fired = true ∨ atOrAfter s.pos.linePos x.firePos = false) → e.fired = false →
      atOrAfter s.pos.linePos e.firePos = true →
      (s.ma.setup.rejector ≠ 255 → (s.fp.port port).linkUp = true → (s.fp.port port).reject.length < 4 →
        exec .rejectFire s = .next { s with
          fp := { s.fp.setPort port { s.fp.port port with
              reject := (s.fp.port port).reject ++ [insertedFrame s.fp.station s.ma.setup.rejector 240 s.fp.seqMgmt
                ([0x82, BitVec.ofNat 8 (classIndex e.cls).val] ++ beBytes 2 s.ma.setup.rejectPulse ++
                  beBytes 4 (match e.number with | none => 4294967295 | some n => n.toNat))] } with
            seqMgmt := s.fp.seqMgmt + 1 }
          jr := { s.jr with
            schedule := a ++ { e with
              fired := true, deadline := some (e.firePos + BitVec.ofNat 32 s.ma.setup.confirmWindow) } :: b
            counters := { s.jr.counters with fired := tally s.jr.counters.fired 1 } } }) ∧
      (s.ma.setup.rejector = 255 ∨ (s.fp.port port).linkUp = false ∨ 4 ≤ (s.fp.port port).reject.length →
        ∃ t : State, exec .rejectFire s = .next t ∧ OnlyChanges [.fp, .jr] s t ∧
          t.jr = { s.jr with
            schedule := a ++ b, lineStop := true
            counters := { s.jr.counters with lost := tally s.jr.counters.lost 1 } } ∧
          (t.fp.port port).reject = (s.fp.port port).reject)) ∧
    ∀ x : Word32, (∀ y ∈ a, y.fired = false ∨ ∀ z, y.deadline = some z → atOrAfter s.pos.linePos z = false) →
      e.fired = true → e.deadline = some x → atOrAfter s.pos.linePos x = true →
      ∃ t : State, exec .confirmTimeout s = .next t ∧ OnlyChanges [.fp, .jr, .te, .rc] s t ∧
        t.jr = { s.jr with
          schedule := a ++ b, lineStop := true
          counters := { s.jr.counters with unconfirmed := tally s.jr.counters.unconfirmed 1 } } ∧
        (s.ma.setup.freezeOnUnconfirmed = true → s.rc.freeze ≠ .alarm →
          t.rc = { s.rc with freeze := .alarm, cause := some .unconfirmed }) ∧
        (s.ma.setup.freezeOnUnconfirmed = false ∨ s.rc.freeze = .alarm → t.rc = s.rc)

/-- After the advance of an encoder frame no PENDING entry's fire position and no FIRED entry's deadline is left among the
positions the advance reached, deadlines given within it included (R24, R113, R118); and every entry that stands afterwards
stood before it, FIRED since or not. Every step keeps the order of the schedule (R110): fire positions, FIRED before PENDING,
no can number twice. It is supposed that the windows judged began less than 2^30 counts back and that the cans scheduled are
at most 2^31 cans old, within which the modular order is one. -/
def Obligations.AdvanceLeavesNothingDue : Prop :=
  (∀ s t : State, s.setupInv → s.positionInv → s.queueInv → s.orderInv → s.rejectInv → s.scheduleInv →
    (∀ w ∈ s.fe.results, (s.pos.linePos - w.entryPos).toNat < 1073741824) →
    (∀ e ∈ s.jr.schedule, ∀ n, e.number = some n → 1 ≤ s.tq.cansSince n ∧ s.tq.cansSince n ≤ 2147483648) →
    step s = .next t → t.scheduleInv) ∧
  ∀ (s t : State) (c : Copy) (rest : List (Role × Copy)) (last : Word16) (d : Nat), s.hands .encoder c rest →
    s.pos.lastCount = some last → d = (encoderCount c.payload - last).toNat → 1 ≤ d → d ≤ 32767 →
    exec .encoderFrame s = .next t →
    ∀ e ∈ t.jr.schedule,
      (e.fired = false → ¬ (1 ≤ (e.firePos - s.pos.linePos).toNat ∧ (e.firePos - s.pos.linePos).toNat ≤ d)) ∧
      (e.fired = true → ∀ x, e.deadline = some x →
        ¬ (1 ≤ (x - s.pos.linePos).toNat ∧ (x - s.pos.linePos).toNat ≤ d)) ∧
      (e ∈ s.jr.schedule ∨ ∃ f ∈ s.jr.schedule, f.fired = false ∧ e = { f with
        fired := true, deadline := some (f.firePos + BitVec.ofNat 32 s.ma.setup.confirmWindow) })

/-- A confirm frame (R116, R117). A gap of 1 to 16 removes as many oldest FIRED entries as stand, one of 17 to 255 none; then
the frame's own confirm removes the oldest FIRED entry left, or, when none is, is an unexpected reject. The PENDING entries
stay, and the order of the entries with them. -/
def Obligations.ConfirmRemovesOldestFired : Prop :=
  ∀ (s : State) (c : Copy) (rest : List (Role × Copy)) (m lost : Nat) (fired : List RejectEntry),
    s.hands .confirm c rest → m = (match s.jr.confirmExp with | none => 0 | some e => (c.sequence - e).toNat) →
    fired = s.jr.schedule.filter (fun e => e.fired) → lost = (if m ≤ 16 then min m fired.length else 0) →
    ∃ (left : List RejectEntry) (jr : Judge), left.Sublist s.jr.schedule ∧
      left.filter (fun e => e.fired) = fired.drop (lost + 1) ∧
      left.filter (fun e => !e.fired) = s.jr.schedule.filter (fun e => !e.fired) ∧
      jr = { s.jr with
        schedule := left, confirmExp := some (c.sequence + 1)
        counters := { s.jr.counters with
          lostConfirms := tally s.jr.counters.lostConfirms lost
          restarts := if 17 ≤ m then tally s.jr.counters.restarts 1 else s.jr.counters.restarts } } ∧
      (lost < fired.length → exec .confirmFrame s = .next { s.taken rest with jr := { jr with
        counters := { jr.counters with confirms := tally s.jr.counters.confirms 1 } } }) ∧
      (lost = fired.length → exec .confirmFrame s = .next (report (s.taken rest) { s.taken rest with jr := { jr with
        unexpected := true
        counters := { jr.counters with unexpected := tally s.jr.counters.unexpected 1 } } }))

/-- Line Stop Request is sticky (R119): no command but CLEAR_ALARMS, RESET FULL and POWER_ON clears it, nor does a
millisecond. -/
def Obligations.LineStopHolds : Prop :=
  (∀ (c : Instr) (s t : State), c ≠ .clearAlarms → c ≠ .resetFull → (∀ straps, c ≠ .powerOn straps) →
    s.jr.lineStop = true → exec c s = .next t → t.jr.lineStop = true) ∧
  ∀ s t : State, s.pending = [] → s.jr.lineStop = true → step s = .next t → t.jr.lineStop = true

/-! ## Valve statistics and dose trim (07_valve_statistics_and_dose_trim.md) -/

/-- Feeding and deciding (R142 to R145) under a product that R159 accepts, from a trim within its limits. A fed average moves
by a 2^k-th of the difference and lies between the old one and the new error. A decision below N_min changes nothing; within
the deadband, or with a step of 0, it clears LIMIT alone; else the trim becomes the candidate held within its limits. A trim
that changes moves by at most max step, against the average, with a clear request, SETTLING, and a trim change counted; one
that does not is at its limit: LIMIT is set and collection restarts. -/
def Obligations.TrimDecisions : Prop :=
  ∀ (p : Product) (can : Word32) (r q : ValveRecord) (clear : Bool) (step candidate : Int),
    p.inRange = true → p.related = true → p.trimMin ≤ r.trim → r.trim ≤ p.trimMax →
    (q, clear) = trimDecision p can r →
    step = min (roundDiv ((r.eAvg.natAbs : Int) * p.g * 2) p.gq) p.maxStep →
    candidate = (if 0 < r.eAvg then r.trim - step else r.trim + step) →
    (∀ net : Int, r.n ≤ 65535 →
      (fedRecord p net r).n = min (r.n + 1) 65535 ∧
      (r.n = 0 → (fedRecord p net r).eAvg = 16 * (net - p.target)) ∧
      (1 ≤ r.n → (fedRecord p net r).eAvg = r.eAvg + roundDiv (16 * (net - p.target) - r.eAvg) (2 ^ p.k) ∧
        min r.eAvg (16 * (net - p.target)) ≤ (fedRecord p net r).eAvg ∧
        (fedRecord p net r).eAvg ≤ max r.eAvg (16 * (net - p.target)))) ∧
    (r.n < p.nMin → q = r ∧ clear = false) ∧
    (p.nMin ≤ r.n → r.eAvg.natAbs ≤ 16 * p.deadband ∨ step = 0 → q = { r with limit := false } ∧ clear = false) ∧
    (p.nMin ≤ r.n → 16 * p.deadband < r.eAvg.natAbs → step ≠ 0 →
      q.trim = max p.trimMin (min candidate p.trimMax) ∧
      (q.trim = r.trim → q = { r with n := 0, eAvg := 0, limit := true } ∧ clear = false) ∧
      (q.trim ≠ r.trim → clear = true ∧ q = { r with
        trim := q.trim, state := .settling, n := 0, eAvg := 0, trimChanges := tally r.trimChanges 1, lastChange := some can
        limit := decide (candidate < p.trimMin ∨ p.trimMax < candidate) })) ∧
    p.trimMin ≤ q.trim ∧ q.trim ≤ p.trimMax ∧ (q.trim - r.trim).natAbs ≤ p.maxStep ∧
    (q.trim ≠ r.trim → (q.trim < r.trim ↔ 0 < r.eAvg))

/-- The follow check of a discharge in range, without a gap or a full queue (R137, R139): an AUTO valve below the valve count
that settles or collects, outside Trim Mode OFF, becomes COLLECTING at a settled discharge, counts an unsettled one against
an expected set-point and is FAULT at the 32nd; nothing else of the Trim Engine changes but VALVE_ATTENTION with it. -/
def Obligations.FollowCheckActs : Prop :=
  ∀ (s : State) (c : Copy) (rest : List (Role × Copy)) (k : Fin 16) (w : Fin Config.valves) (r : ValveRecord) (acts : Prop),
    s.hands .discharge c rest → s.tq.dischargeExp = none ∨ s.tq.dischargeExp = some c.sequence →
    s.pu.active = some k → s.tq.queue.length < 128 → w.val = dischargeValve c.payload →
    w.val < s.ma.setup.valveCount → r = s.te.valves[w] →
    acts = (s.te.mode ≠ .off ∧ s.te.table[w].mode = .auto ∧ (r.state = .settling ∨ r.state = .collecting)) →
    ∃ t : State, exec .dischargeFrame s = .next t ∧ t.rw = s.rw ∧
      (∀ v : Fin Config.valves, v ≠ w → t.te.valves[v] = s.te.valves[v]) ∧
      t.te = { s.te with valves := t.te.valves, attention := t.te.attention } ∧
      (¬ acts ∨ s.rw.expected[w] = none → t.te = s.te) ∧
      (acts → s.rw.expected[w] = some (dischargeSetPoint c.payload) →
        t.te.attention = s.te.attention ∧
        (r.state = .settling →
          t.te.valves[w] = { r with state := .collecting, n := 0, eAvg := 0, unsettledRun := 0 }) ∧
        (r.state = .collecting → t.te.valves[w] = { r with unsettledRun := 0 })) ∧
      ∀ x : Word16, acts → s.rw.expected[w] = some x → x ≠ dischargeSetPoint c.payload →
        (r.unsettledRun + 1 < 32 →
          t.te.valves[w] = { r with unsettledRun := r.unsettledRun + 1 } ∧ t.te.attention = s.te.attention) ∧
        (32 ≤ r.unsettledRun + 1 →
          t.te.valves[w] = { r with unsettledRun := r.unsettledRun + 1, state := .fault, n := 0, eAvg := 0 } ∧
          t.te.attention = true)

/-- TRIM_CONTROL with a mode (R131, R133): the mode in force changes nothing; another one is set with its effect on the AUTO
valves and Trim Hold following; a code that names no mode is refused. RELEASE_VALVE (R132): a FAULT valve settles afresh with
a clear request, any other is left, a valve above 95 is refused. That both refusals carry entry index 0 is the model's choice
(log 37). TRIM_HOLD is supposed to stand as R133 says. -/
def Obligations.TrimCommands : Prop :=
  (∀ (s : State) (c : Copy) (code : Byte) (more : List Byte), s.executes .trimControl c → c.args = code :: more →
    s.te.trimHold = s.holdsTrim →
    (3 < code.toNat → exec .trimControl s = .next (s.replied c { status := .badArgument })) ∧
    ∀ m : TrimMode, code = trimModeCode m →
      (m = s.te.mode → exec .trimControl s = .next (s.replied c {})) ∧
      (m ≠ s.te.mode → ∃ u : State, exec .trimControl s = .next (u.replied c {}) ∧ OnlyChanges [.fp, .te] s u ∧
        u.te.mode = m ∧ u.te.table = s.te.table ∧ u.te.attention = s.te.attention ∧ u.te.trimHold = u.holdsTrim ∧
        ∀ v : Fin Config.valves, u.te.valves[v] =
          if v.val < s.ma.setup.valveCount ∧ s.te.table[v].mode = .auto then
            if s.te.mode = .off ∧ s.te.valves[v].state ≠ .fault then
              { s.te.valves[v] with state := .settling, n := 0, eAvg := 0, unsettledRun := 0 }
            else if s.te.mode = .hold ∧ m = .auto then { s.te.valves[v] with n := 0, eAvg := 0 }
            else s.te.valves[v]
          else s.te.valves[v])) ∧
  ∀ (s : State) (c : Copy) (action valve : Byte) (more : List Byte), s.executes .releaseValve c →
    c.args = action :: valve :: more → ¬ s.loadBars .releaseValve →
    (95 < valve.toNat → exec .releaseValve s = .next (s.replied c { status := .badArgument })) ∧
    ∀ v : Fin Config.valves, v.val = valve.toNat →
      (s.te.valves[v].state ≠ .fault → exec .releaseValve s = .next (s.replied c {})) ∧
      (s.te.valves[v].state = .fault →
        ∃ u : State, exec .releaseValve s = .next (u.replied c {}) ∧ OnlyChanges [.fp, .te, .rw] s u ∧
          u.te.valves[v] = { s.te.valves[v] with
            state := .settling, n := 0, eAvg := 0, unsettledRun := 0, limit := false } ∧
          u.rw.expected[v] = none ∧ u.rw.epoch[v] = s.rw.epoch[v] + 1 ∧ u.rw.counters = s.rw.counters ∧
          (u.te.attention = true ↔ ∃ x : Fin Config.valves, u.te.valves[x].state = .fault) ∧
          ∀ x : Fin Config.valves, x ≠ v → u.te.valves[x] = s.te.valves[x] ∧ u.rw.expected[x] = s.rw.expected[x] ∧
            u.rw.epoch[x] = s.rw.epoch[x])

/-- VALVE_FAULT (R139): an AUTO valve below the valve count that settles or collects with an unsettled run of 32 or more
becomes FAULT, trim held, and VALVE_ATTENTION is set; any other is left. CAPTURE_ARM (R174): a countdown that stands at 0
with capture on arms the valve and is reloaded; any other is left. That they are commands by themselves is log 9, and that
they leave a valve whose condition does not stand is log 8: the model's choices. -/
def Obligations.ValveEvents : Prop :=
  ∀ (s : State) (v : Fin Config.valves) (code : Byte), code.toNat = v.val →
    (v.val < s.ma.setup.valveCount → s.te.table[v].mode = .auto →
      s.te.valves[v].state = .settling ∨ s.te.valves[v].state = .collecting → 32 ≤ s.te.valves[v].unsettledRun →
      ∃ t : State, exec (.valveFault code) s = .next t ∧ OnlyChanges [.fp, .te] s t ∧ t.te.attention = true ∧
        t.te.valves[v] = { s.te.valves[v] with state := .fault, n := 0, eAvg := 0 } ∧
        ∀ x : Fin Config.valves, x ≠ v → t.te.valves[x] = s.te.valves[x]) ∧
    (s.ma.setup.valveCount ≤ v.val ∨ s.te.table[v].mode ≠ .auto ∨
      (s.te.valves[v].state ≠ .settling ∧ s.te.valves[v].state ≠ .collecting) ∨ s.te.valves[v].unsettledRun < 32 →
      exec (.valveFault code) s = .next s) ∧
    (s.te.table[v].captureInterval ≠ 0 → s.te.valves[v].countdown = 0 →
      exec (.captureArm code) s = .next (s.setValve v { s.te.valves[v] with
        armed := true, countdown := s.te.table[v].captureInterval })) ∧
    (s.te.table[v].captureInterval = 0 ∨ s.te.valves[v].countdown ≠ 0 → exec (.captureArm code) s = .next s)

/-- Every step keeps each valve's state in accord with its mode and the valve count, an EXCLUDED valve's trim 0, every
trim within the limits of the active product, and the unsettled run of a valve that follows below 32 (R128, R129, R136,
R139), given the product records and slots in order (QueueAndRejectInvKept); n and e_avg within the bounds of R142; and
TRIM_HOLD, VALVE_ATTENTION and CAPTURE_READY in accord with the state they show (R133, R139, R176). -/
def Obligations.ValveInvKept : Prop :=
  (∀ s t : State, s.tableInv → s.productInv → s.valveInv → step s = .next t → t.valveInv) ∧
  (∀ s t : State, s.tableInv → s.productInv → s.valveInv → s.averageInv → step s = .next t → t.averageInv) ∧
  ∀ s t : State, s.flagInv → step s = .next t → t.flagInv

/-! ## Products and changeover (09_products_and_changeover.md) -/

/-- SELECT_PRODUCT of a slot that holds a record, or of none (R146, R154, R163): the active product follows, every AUTO valve
below the valve count starts over from trim 0 with a clear request (under none too, as R146 and R154 say and R156 does not:
log 32, the model's choice), FIXED ones are clamped afresh, and VALVE_ATTENTION and TRIM_HOLD follow; an empty slot or one out
of range is refused. SET_LOT (R96, R166): the active product's current lot becomes the previous one, the text its current one,
and the lot boundary of its slot the can number counter; with no product active it is refused. That the refusals of both
carry entry index 0 is the model's choice (log 37). -/
def Obligations.ProductCommands : Prop :=
  (∀ (s : State) (c : Copy) (slot : Byte) (more : List Byte), s.executes .selectProduct c → c.args = slot :: more →
    ¬ s.loadBars .selectProduct →
    (16 ≤ slot.toNat → slot ≠ 255 → exec .selectProduct s = .next (s.replied c { status := .badArgument })) ∧
    (∀ k : Fin 16, k.val = slot.toNat → s.pu.table[k] = none →
      exec .selectProduct s = .next (s.replied c { status := .badArgument })) ∧
    ∀ (active : Option (Fin 16)) (p : Option Product),
      (active = none ∧ slot = 255 ∧ p = none) ∨
        (∃ k : Fin 16, active = some k ∧ k.val = slot.toNat ∧ p = s.pu.table[k] ∧ p ≠ none) →
      ∃ u : State, exec .selectProduct s = .next (u.replied c {}) ∧ OnlyChanges [.fp, .te, .rw, .pu] s u ∧
        u.pu = { s.pu with active := active } ∧ u.te.mode = s.te.mode ∧ u.te.table = s.te.table ∧
        u.te.trimHold = u.holdsTrim ∧
        (u.te.attention = true ↔ ∃ x : Fin Config.valves, u.te.valves[x].state = .fault) ∧
        ∀ v : Fin Config.valves,
          (v.val < s.ma.setup.valveCount → s.te.table[v].mode = .auto →
            u.te.valves[v] = { s.te.valves[v] with
              trim := 0, state := .settling, n := 0, eAvg := 0, unsettledRun := 0, limit := false } ∧
            u.rw.expected[v] = none ∧ u.rw.epoch[v] = s.rw.epoch[v] + 1) ∧
          (v.val < s.ma.setup.valveCount → s.te.table[v].mode = .fixed →
            u.te.valves[v] = { s.te.valves[v] with
              trim := (match p with
                | none => 0
                | some q => max q.trimMin (min s.te.table[v].fixedTrim q.trimMax)) }) ∧
          (s.ma.setup.valveCount ≤ v.val ∨ s.te.table[v].mode = .excluded → u.te.valves[v] = s.te.valves[v]) ∧
          (s.ma.setup.valveCount ≤ v.val ∨ s.te.table[v].mode ≠ .auto →
            u.rw.expected[v] = s.rw.expected[v] ∧ u.rw.epoch[v] = s.rw.epoch[v])) ∧
  ∀ (s : State) (c : Copy), s.executes .setLot c → 8 ≤ c.args.length → ¬ s.loadBars .setLot →
    (s.pu.active = none → exec .setLot s = .next (s.replied c { status := .badArgument })) ∧
    ∀ (k : Fin 16) (p : Product), s.pu.active = some k → s.pu.table[k] = some p →
      ∃ u : State, exec .setLot s = .next (u.replied c {}) ∧ OnlyChanges [.rm, .pu] s u ∧ u.pu.active = some k ∧
        u.pu.table[k] = some { p with previousLot := some p.currentLot, currentLot := c.args.take 8 } ∧
        (∀ j : Fin 16, j ≠ k → u.pu.table[j] = s.pu.table[j]) ∧
        u.rm = { s.rm with lotBoundary := u.rm.lotBoundary } ∧ u.rm.lotBoundary[k] = s.tq.canCounter ∧
        ∀ j : Fin 16, j ≠ k → u.rm.lotBoundary[j] = s.rm.lotBoundary[j]

/-! ## Recent-can ring and window capture (10_recent_can_ring_and_window_capture.md) -/

/-- RING_FREEZE freezes a ring that is not frozen, by command, and reports it; a frozen one stays (R172). RING_THAW ends a
freeze, empties the burst history and keeps the ring; Trim Hold follows, and its end under AUTO restarts the collection of
the AUTO valves (R134, R173); TRIM_HOLD is supposed to stand as R133 says. CAPTURE_CONTROL sets the upload field, or refuses
another value, with entry index 0 by the model's choice (log 37); CAPTURE_DISCARD empties every STORED slot, lets an upload go
on, and CAPTURE_READY falls (R176, R178). -/
def Obligations.RingAndCaptureCommands : Prop :=
  ((∀ (s : State) (c : Copy), s.executes .ringFreeze c → s.te.trimHold = s.holdsTrim →
    (s.rc.freeze = .notFrozen → exec .ringFreeze s = .next
      ((report s { s with rc := { s.rc with freeze := .command, cause := some .command } }).replied c {})) ∧
    (s.rc.freeze ≠ .notFrozen → exec .ringFreeze s = .next (s.replied c {}))) ∧
  ∀ (s : State) (c : Copy), s.executes .ringThaw c →
    (s.rc.freeze = .notFrozen → exec .ringThaw s = .next (s.replied c {})) ∧
    (s.rc.freeze ≠ .notFrozen → s.te.trimHold = s.holdsTrim →
      ∃ u : State, exec .ringThaw s = .next (u.replied c {}) ∧ OnlyChanges [.fp, .te, .rc] s u ∧
        u.rc = { s.rc with freeze := .notFrozen, cause := none, burst := [] } ∧
        u.te.trimHold = u.holdsTrim ∧ u.te.mode = s.te.mode ∧
        ∀ v : Fin Config.valves, u.te.valves[v] =
          if s.te.trimHold = true ∧ u.te.trimHold = false ∧ v.val < s.ma.setup.valveCount ∧
              s.te.table[v].mode = .auto then
            { s.te.valves[v] with n := 0, eAvg := 0 }
          else s.te.valves[v])) ∧
  (∀ (s : State) (c : Copy) (value : Byte) (more : List Byte), s.executes .captureControl c → c.args = value :: more →
    ¬ s.loadBars .captureControl →
    (1 < value.toNat → exec .captureControl s = .next (s.replied c { status := .badArgument })) ∧
    (value.toNat ≤ 1 → exec .captureControl s = .next (State.replied { s with ma := { s.ma with
      setup := { s.ma.setup with upload := decide (value.toNat = 1) } } } c {}))) ∧
  ∀ (s : State) (c : Copy), s.executes .captureDiscard c → 1 ≤ s.ma.setup.captureThreshold →
    ∃ u : State, exec .captureDiscard s = .next (u.replied c {}) ∧ OnlyChanges [.fp, .rc] s u ∧
      u.rc = { s.rc with slots := u.rc.slots, order := u.rc.order, captureReady := false } ∧
      (∀ i : Fin 4, u.rc.slots[i] = if s.rc.slots[i].isStored then .empty else s.rc.slots[i]) ∧
      ∀ i : Fin 4, i ∈ u.rc.order ↔ i ∈ s.rc.order ∧ s.rc.slots[i].isStored = false

/-- The upload engine (R177). It starts with the oldest STORED slot when idle, switched on and given a collector. It
offers its next segment while the Hold is clear: joined, the next segment follows, and the last one empties the slot and
counts the upload; refused, or under a Hold, nothing changes. The header of segment 0 is laid out as section 12.4 lists it. That
UPLOAD_START without its conditions, and
CAPTURE_SEGMENT with nothing it may send, leave the state as it is: log 8, the model's choice. -/
def Obligations.UploadSteps : Prop :=
  (∀ (cap : Capture) (r : CanRecord) (w : WindowResult), r = cap.record → w = cap.result → captureHeader cap = laidOut [
    (4, r.number.toNat), (1, r.product.val), (1, r.valve.elim 0 (·.val)), (1, r.head.elim 0 (·.toNat)),
    (2, r.tag.elim 0 (·.toNat)),
    (1, match r.readResult with | some .mismatch => 1 | some .unread => 2 | some .read => 0 | none => 0),
    (2, r.setPoint.elim 0 (·.toNat)), (2, r.epoch.toNat), (1, (classIndex cap.cls).val), signedField 4 (cap.net.getD 0),
    signedField 4 (w.gross.getD 0),
    flagField 2 [w.short, w.gap, w.unstable, w.silent, w.uncalibrated, w.zeroFault, cap.late, r.settled, cap.scheduled],
    flagField 2 [true, true, r.valve.isSome, r.head.isSome, r.tag.isSome, r.readResult.isSome, r.setPoint.isSome,
      cap.net.isSome, w.gross.isSome],
    (2, w.entryIndex.toNat), (4, w.entryPos.toNat), (1, w.count), (3, w.rawRange), (2, w.samples.length), (1, 0)]) ∧
  (∀ (s : State) (i : Fin 4) (a b : List (Fin 4)) (cap : Capture), s.rc.engine = .idle → s.ma.setup.upload = true →
    s.ma.setup.collector ≠ 255 → s.rc.order = a ++ i :: b → (∀ j ∈ a, s.rc.slots[j].isStored = false) →
    s.rc.slots[i] = .stored cap →
    ∃ t : State, exec .uploadStart s = .next t ∧ OnlyChanges [.fp, .rc] s t ∧ t.rc.slots[i] = .uploading cap ∧
      (∀ j : Fin 4, j ≠ i → t.rc.slots[j] = s.rc.slots[j]) ∧
      t.rc = { s.rc with
        slots := t.rc.slots, captureReady := t.rc.captureReady
        engine := .uploading i 0 (max 1 ((cap.result.samples.length + 63) / 64)) }) ∧
  (∀ s : State, s.rc.engine ≠ .idle ∨ s.ma.setup.upload = false ∨ s.ma.setup.collector = 255 ∨
      (∀ j ∈ s.rc.order, s.rc.slots[j].isStored = false) → exec .uploadStart s = .next s) ∧
  ∀ (s : State) (i : Fin 4) (cap : Capture) (next count : Nat) (port : Port), port = s.ma.setup.collectorPort →
    s.rc.engine = .uploading i next count → s.rc.slots[i] = .uploading cap →
    (s.fp.holdStanding = true ∨ (s.fp.port port).linkUp = false ∨ 2 ≤ (s.fp.port port).capture.length →
      exec .captureSegment s = .next s) ∧
    (s.fp.holdStanding = false → (s.fp.port port).linkUp = true → (s.fp.port port).capture.length < 2 →
      ∃ t : State, exec .captureSegment s = .next t ∧ OnlyChanges [.fp, .rc] s t ∧
        (t.fp.port port).capture = (s.fp.port port).capture ++
          [insertedFrame s.fp.station s.ma.setup.collector 240 s.fp.seqMgmt
            ([0x83, 0] ++ beBytes 2 cap.captureNumber.toNat ++ beBytes 1 next ++ beBytes 1 count ++
              (if next = 0 then captureHeader cap else []) ++
              ((cap.result.samples.drop (64 * next)).take 64).flatMap (beSigned 3))] ∧
        (next + 1 < count → t.rc = { s.rc with engine := .uploading i (next + 1) count } ∧
          t.fp.seqMgmt = s.fp.seqMgmt + 1) ∧
        (count ≤ next + 1 → t.rc.slots[i] = .empty ∧ i ∉ t.rc.order ∧
          t.rc.counters.completed = tally s.rc.counters.completed 1 ∧ t.rc.ring = s.rc.ring ∧
          t.rc.captureNumber = s.rc.captureNumber))

/-- Every step keeps the ring and the burst history within 32, a freeze cause exactly while the ring is frozen, UPLOADING the
one slot of the upload engine, and the capture time order the slots that hold a capture, each once (R170 to R177). The
contents of a frozen ring change only by a FULL or CAPTURE reset, or a power-on (R170, R168). -/
def Obligations.RingInvKept : Prop :=
  (∀ s t : State, s.ringInv → step s = .next t → t.ringInv) ∧
  (∀ (c : Instr) (s t : State), c ≠ .resetFull → c ≠ .resetCapture → (∀ straps, c ≠ .powerOn straps) →
    s.rc.freeze ≠ .notFrozen → exec c s = .next t → t.rc.ring = s.rc.ring) ∧
  ∀ s t : State, s.pending = [] → s.rc.freeze ≠ .notFrozen → step s = .next t → t.rc.ring = s.rc.ring

/-! ## The Management Channel (11_management_channel.md, 12_frame_and_record_layouts.md) -/

/-- The departure of a command (R19, R182, R183, R193): with none executing the oldest frame leaves the intake FIFO and
begins, a malformed one is counted and discarded without a reply, an unknown code or a RESET without a listed scope is
answered and has no effect (log 12: that a RESET of those kinds ends here; log 37: that the refusal of an unlisted scope carries
entry index 0, the model's choices). A departure that leaves 2 frames or fewer offers a RELEASE to each held station in turn,
the oldest first, those in vain counted as dropped, and empties the set. Without a frame, or with a command executing,
nothing changes (log 8: the model's choice). Which command a payload is, is said code by code (Table 11-3), with the actions of TRIM_CONTROL (Table 12-4) and
the scopes of RESET (Table 12-1). -/
def Obligations.IntakeDeparture : Prop :=
  (∀ (tag : Byte) (args : List Byte) (codes : List (Byte × CommandKind)),
    codes = [(0x01, .identify), (0x02, .getStatus), (0x10, .loadBegin), (0x11, .loadSegment), (0x12, .loadAbort),
      (0x13, .readTable), (0x20, .selectProduct), (0x21, .setLot), (0x30, .readValves), (0x31, .readQueue),
      (0x32, .readSchedule), (0x33, .readCounters), (0x34, .clearCounters), (0x35, .clearAlarms), (0x36, .zeroNow),
      (0x40, .ringRead), (0x41, .ringFreeze), (0x42, .ringThaw), (0x43, .captureControl), (0x44, .captureDiscard)] →
    (∀ k ∈ codes, commandClass (k.1 :: tag :: args) = .known k.2) ∧
    commandClass (0x22 :: tag :: args) =
      (if args.head? = some 3 then .known .releaseValve else .known .trimControl) ∧
    commandClass [0x50, tag] = .resetShort ∧
    (∀ k ∈ ([(0, .resetFull), (1, .resetTracking), (2, .resetStatistics), (3, .resetLoad), (4, .resetCapture)] :
        List (Byte × CommandKind)), commandClass (0x50 :: tag :: k.1 :: args) = .known k.2) ∧
    (∀ scope : Byte, 4 < scope.toNat → commandClass (0x50 :: tag :: scope :: args) = .resetBad) ∧
    ∀ code : Byte, code ≠ 0x22 → code ≠ 0x50 → code ∉ codes.map Prod.fst →
      commandClass (code :: tag :: args) = .unknown) ∧
  (∀ s : State, s.ma.executing ≠ none ∨ s.ma.fifo = [] → exec .intakeDeparture s = .next s) ∧
  ∀ (s u : State) (c : Copy) (more : List Copy), s.ma.executing = none → s.ma.fifo = c :: more →
    u = { s with
      ma := { s.ma with fifo := more, executing := some c }
      fp := if more.length ≤ 2 then s.fp.released else s.fp } →
    (∀ kind, commandClass c.payload = .known kind → exec .intakeDeparture s = .next u) ∧
    (c.payload.length < 2 → exec .intakeDeparture s = .next { u with ma := { u.ma with
      executing := none, counters := { s.ma.counters with malformed := tally s.ma.counters.malformed 1 } } }) ∧
    (commandClass c.payload = .unknown → exec .intakeDeparture s = .next (u.replied c { status := .unknownCommand })) ∧
    (commandClass c.payload = .resetShort → exec .intakeDeparture s = .next (u.replied c { status := .length })) ∧
    (commandClass c.payload = .resetBad → exec .intakeDeparture s = .next (u.replied c { status := .badArgument }))

/-- The end of an execution (R12, R14, R182, R183): the reply, with command code and tag as received, its status, entry index
and data, joins the REPLY queue of the arrival port, addressed to the sender, or is dropped; nothing else changes. The tests
before a command's own rule: arguments shorter than required give LENGTH, then a conflict with a load gives BUSY, neither
with an effect (R183, R189). A row whose command is not the executing one changes nothing (log 8). The status codes are those of
Table 12-1. -/
def Obligations.RepliesAnswerTheSender : Prop :=
  (∀ k ∈ ([(.ok, 0), (.busy, 1), (.unknownCommand, 2), (.badArgument, 3), (.inUse, 4), (.sequence, 5), (.notLoading, 6),
      (.length, 7)] : List (ReplyStatus × Byte)), replyCode k.1 = k.2) ∧
  (∀ (t : State) (c : Copy) (r : Reply),
    ((t.fp.port c.port).linkUp = true → (t.fp.port c.port).reply.length < 4 →
      t.replied c r = { t with
        fp := { t.fp.setPort c.port { t.fp.port c.port with
            reply := (t.fp.port c.port).reply ++ [insertedFrame t.fp.station c.source 240 t.fp.seqMgmt
              ([byteAt c.payload 0, byteAt c.payload 1, replyCode r.status, 0] ++ beBytes 2 r.index ++
                beBytes 2 r.data.length ++ r.data)] } with seqMgmt := t.fp.seqMgmt + 1 }
        ma := { t.ma with executing := none } }) ∧
    ((t.fp.port c.port).linkUp = false ∨ 4 ≤ (t.fp.port c.port).reply.length →
      t.replied c r = { t with
        fp := t.fp.setPort c.port { t.fp.port c.port with counters := { (t.fp.port c.port).counters with
          dropped := tally (t.fp.port c.port).counters.dropped 1 } }
        ma := { t.ma with executing := none } })) ∧
  (∀ (s : State) (c : Copy) (kind : CommandKind), s.executes kind c →
    (c.args.length < kind.need → exec kind.row s = .next (s.replied c { status := .length })) ∧
    (kind.need ≤ c.args.length → s.loadBars kind → exec kind.row s = .next (s.replied c { status := .busy }))) ∧
  ∀ (s : State) (kind : CommandKind), (∀ c, ¬ s.executes kind c) → exec kind.row s = .next s

/-- The read commands are answered OK with the data of their layout, taken from the state as it stands, and change nothing
else (R83, R123, R147, R173, R184, R185, R197); an argument out of range is refused, with entry index 0, which for READ_VALVES
and READ_QUEUE is the model's choice (log 37). The data have the lengths that R197
gives. The summaries, schedule entries, valve records and ring entries are laid out field by field as Table 12-7 lists them, an
absent field as 0 (R194), the counters in the order of R197, and the status word bit by bit (section 12.4). -/
def Obligations.ReadCommandsAnswer : Prop :=
  ((∀ r : CanRecord, summaryBytes r = laidOut [(4, r.number.toNat), (1, r.product.val), (1, r.valve.elim 0 (·.val)),
      (2, r.setPoint.elim 0 (·.toNat)), (2, r.epoch.toNat), (4, r.dischargePos.toNat), (2, r.age),
      (1, match r.stage with | .filled => 0 | .coded => 1 | .passed => 2), (1, r.head.elim 0 (·.toNat)),
      (2, r.tag.elim 0 (·.toNat)),
      (1, match r.readResult with | some .mismatch => 1 | some .unread => 2 | some .read => 0 | none => 0),
      flagField 1 [r.settled, r.lotOk, r.placeholder, r.valveRange, r.headRange],
      flagField 1 [r.valve.isSome, r.setPoint.isSome, r.head.isSome, r.tag.isSome, r.readResult.isSome], (1, 0)]) ∧
    (∀ e : RejectEntry, scheduleEntryBytes e = laidOut [(4, e.number.elim 0 (·.toNat)), (1, (classIndex e.cls).val),
      (1, if e.fired then 1 else 0), (4, e.firePos.toNat), (4, e.deadline.elim 0 (·.toNat)),
      flagField 1 [e.late, e.number.isSome, e.deadline.isSome], (1, 0)]) ∧
    (∀ (s : State) (v : Fin Config.valves) (r : ValveRecord), r = s.te.valves[v] → s.valveRecordBytes v = laidOut [(1, v.val),
      (1, match s.te.table[v].mode with | .auto => 0 | .fixed => 1 | .excluded => 2),
      (1, match r.state with | .excluded => 0 | .fixed => 1 | .settling => 2 | .collecting => 3 | .fault => 4),
      flagField 1 [r.limit, s.rw.expected[v].isSome, r.lastChange.isSome, r.armed], signedField 2 r.trim, (2, r.n),
      signedField 5 r.eAvg, (1, r.unsettledRun), (4, r.weighed.toNat), (4, r.rejected.toNat), (4, r.trimChanges.toNat),
      (4, r.lastChange.elim 0 (·.toNat)), (2, s.rw.expected[v].elim 0 (·.toNat)), (2, s.rw.epoch[v].toNat),
      (2, r.countdown)]) ∧
    (∀ (s : State) (first count : Nat), first + count ≤ 96 → ∃ records : List (List Byte), records.length = count ∧
      s.valvesBytes first count = records.flatten ∧
      ∀ (i : Nat) (v : Fin Config.valves), i < count → v.val = first + i → records[i]? = some (s.valveRecordBytes v)) ∧
    (∀ e : RingEntry, ringEntryBytes e = laidOut [(4, e.number.elim 0 (·.toNat)),
      flagField 2 [e.number.isSome, e.product.isSome, e.valve.isSome, e.head.isSome, e.tag.isSome, e.readResult.isSome,
        e.gross.isSome, e.net.isSome, e.cls.isSome],
      (1, e.product.elim 0 (·.val)), (1, e.valve.elim 0 (·.val)), (1, e.head.elim 0 (·.toNat)),
      (2, e.tag.elim 0 (·.toNat)),
      (1, match e.readResult with | some .mismatch => 1 | some .unread => 2 | some .read => 0 | none => 0),
      signedField 4 (e.gross.getD 0), signedField 4 (e.net.getD 0), (1, e.cls.elim 0 fun c => (classIndex c).val),
      (1, match e.fate with | .judged => 0 | .missing => 1 | .flushed => 2),
      flagField 1 [e.short, e.gap, e.late, e.settled, e.scheduled], (4, e.linePos.toNat), (1, 0)]) ∧
    (∀ k ∈ ([(.orphan, 0), (.noWeight, 1), (.zeroFault, 2), (.unstable, 3), (.mismatch, 4), (.unread, 5), (.rejLow, 6),
        (.rejHigh, 7), (.unverified, 8), (.low, 9), (.high, 10), (.ok, 11)] : List (CanClass × Fin 12)),
      classIndex k.1 = k.2) ∧
    (∀ s : State, s.entryBytes .lineSetup 0 = setupBytes s.ma.setup ∧
      s.entryBytes .calibration 0 = calibrationBytes s.fe.calZero s.fe.calSpan ∧
      (∀ i : Fin 32, s.entryBytes .channel i.val = channelBytes s.fp.channels[i]) ∧
      (∀ i : Fin 16, s.entryBytes .product i.val = productBytes s.pu.table[i]) ∧
      (∀ i : Fin Config.valves, s.entryBytes .valve i.val = valveBytes s.te.table[i]) ∧
      ∀ i : Fin 12, s.entryBytes .policy i.val = [if s.jr.policy[i] then 1 else 0]) ∧
    (∀ s : State, s.statusWord.toNat = (flagField 2 [s.jr.lineStop, decide (s.rm.tracking = .synced),
      decide (s.rm.tracking = .lost), s.te.trimHold, s.fe.zeroFault, s.fe.weigherSilent, s.pos.fault, s.rc.captureReady,
      decide (s.rc.freeze ≠ .notFrozen), s.ma.load.isSome, s.ma.overrun, s.te.attention, s.jr.unexpected,
      s.fe.zeroDone]).2) ∧
    ∀ (s : State) (counters : List Counter → List Byte) (port : Port → List Counter),
      (counters = fun l => laidOut (l.map fun c => (4, c.toNat))) →
      (port = fun p => [(s.fp.port p).counters.received, (s.fp.port p).counters.forwarded, (s.fp.port p).counters.badFcs,
        (s.fp.port p).counters.badLength, (s.fp.port p).counters.dropped, (s.fp.port p).counters.inserted]) →
      s.countersData = counters (port .a) ++ counters (port .b) ++ counters s.fp.malformed.toList ++
        counters [s.pos.counters.reverse, s.pos.counters.ticks, s.pos.counters.faults] ++
        counters [s.fe.counters.stale, s.fe.counters.missing, s.fe.counters.windowsClosed, s.fe.counters.zeroReadings,
          s.fe.counters.zeroRejections, s.fe.counters.silences] ++
        laidOut [signedField 4 s.fe.workingZero] ++
        counters [s.tq.counters.created, s.tq.counters.placeholders, s.tq.counters.unadmitted, s.tq.counters.orphanSeams,
          s.tq.counters.orphanWeighs, s.tq.counters.missing, s.tq.counters.flushed, s.tq.counters.flushEvents] ++
        counters [s.rm.counters.readFrames, s.rm.counters.lostReads, s.rm.counters.restarts, s.rm.counters.invalid,
          s.rm.counters.orphan, s.rm.counters.unread, s.rm.counters.exact, s.rm.counters.slips, s.rm.counters.duplicate,
          s.rm.counters.mismatches] ++
        laidOut [(1, s.rm.cleanRun), (1, s.rm.unreadRun)] ++ counters s.jr.classes.toList ++
        counters [s.jr.rejectTotal, s.jr.counters.fired, s.jr.counters.late, s.jr.counters.confirms,
          s.jr.counters.lostConfirms, s.jr.counters.restarts, s.jr.counters.unexpected, s.jr.counters.lost,
          s.jr.counters.unconfirmed] ++
        counters [s.rw.counters.framesRewritten, s.rw.counters.changes, s.rw.counters.clamps] ++
        counters [s.rc.counters.stored, s.rc.counters.overwritten, s.rc.counters.missed, s.rc.counters.completed,
          s.rc.counters.abandoned] ++
        counters [s.ma.counters.overruns, s.ma.counters.malformed, s.ma.counters.sequenceErrors, s.ma.counters.timeouts]) ∧
  (∀ (s : State) (c : Copy), s.executes .identify c → exec .identify s = .next (s.answered c (
    [0x4B, 0x57, 0x06, 0x40, 2, s.fp.station, if s.fp.parityFault then 1 else 0, 128, 32, 96, 16, 4, 32]))) ∧
  (∀ (s : State) (c : Copy), s.executes .getStatus c → exec .getStatus s = .next (s.answered c (
    beBytes 2 s.statusWord.toNat ++
      [(match s.pu.active with | none => 255 | some k => BitVec.ofNat 8 k.val),
        (match s.te.mode with | .off => 0 | .hold => 1 | .auto => 2)] ++
      beBytes 4 (s.tq.canCounter - 1).toNat ++ beBytes 4 s.pos.linePos.toNat ++ beBytes 1 s.tq.queue.length ++
      beBytes 1 s.jr.schedule.length))) ∧
  (∀ (s : State) (c : Copy) (code first count : Byte) (more : List Byte), s.executes .readTable c →
    c.args = code :: first :: count :: more →
    (∀ t, tableOfCode code = some t → 1 ≤ count.toNat → count.toNat ≤ 8 → first.toNat + count.toNat ≤ tableSize t →
      exec .readTable s = .next (s.answered c (
        (List.range count.toNat).flatMap fun i => s.entryBytes t (first.toNat + i)))) ∧
    (tableOfCode code = none ∨ count.toNat = 0 ∨ 8 < count.toNat ∨
        (∃ t, tableOfCode code = some t ∧ tableSize t < first.toNat + count.toNat) →
      exec .readTable s = .next (s.replied c { status := .badArgument }))) ∧
  (∀ (s : State) (c : Copy) (first count : Byte) (more : List Byte), s.executes .readValves c →
    c.args = first :: count :: more →
    (1 ≤ count.toNat → count.toNat ≤ 24 → first.toNat + count.toNat ≤ 96 →
      exec .readValves s = .next (s.answered c (s.valvesBytes first.toNat count.toNat)) ∧
      (s.valvesBytes first.toNat count.toNat).length = 36 * count.toNat) ∧
    (count.toNat = 0 ∨ 24 < count.toNat ∨ 96 < first.toNat + count.toNat →
      exec .readValves s = .next (s.replied c { status := .badArgument }))) ∧
  (∀ (s : State) (c : Copy) (position : Byte) (more : List Byte), s.executes .readQueue c → c.args = position :: more →
    (position.toNat ≤ 127 → exec .readQueue s = .next (s.answered c (
        beBytes 1 s.tq.queue.length ++ ((s.tq.queue.drop position.toNat).take 32).flatMap summaryBytes)) ∧
      (((s.tq.queue.drop position.toNat).take 32).flatMap summaryBytes).length =
        24 * min 32 (s.tq.queue.length - position.toNat)) ∧
    (127 < position.toNat → exec .readQueue s = .next (s.replied c { status := .badArgument }))) ∧
  (∀ (s : State) (c : Copy), s.executes .readSchedule c → exec .readSchedule s = .next (s.answered c (
    beBytes 1 s.jr.schedule.length ++ s.jr.schedule.flatMap scheduleEntryBytes))) ∧
  (∀ (s : State) (c : Copy), s.executes .readCounters c →
    exec .readCounters s = .next (s.answered c (s.countersData)) ∧ s.countersData.length = 322) ∧
  ∀ (s : State) (c : Copy), s.executes .ringRead c →
    exec .ringRead s = .next (s.answered c (
      ([(match s.rc.freeze with | .notFrozen => 0 | .alarm => 1 | .command => 2),
        (match s.rc.cause with
          | some .burst => 0 | some .lost => 1 | some .unconfirmed => 2 | some .command => 3 | none => 0)] : List Byte) ++
        beBytes 1 s.rc.ring.length ++ [0] ++ s.rc.ring.flatMap ringEntryBytes)) ∧
    (s.rc.ring.flatMap ringEntryBytes).length = 28 * s.rc.ring.length

/-- The segmented load (R187 to R189). LOAD_BEGIN opens a load of a range within its table, or is refused. LOAD_SEGMENT is
refused outside a load, ends it by SEQUENCE or LENGTH, stages the entries of a correct segment, and hands the whole set to the
owner with the last one, which ends it. LOAD_ABORT and the inactivity expiry end it. LOAD_ACTIVE is reported each time. The
codes, sizes and entry sizes of the tables are those of Tables 12-1, 11-5 and 12-6. -/
def Obligations.LoadCommands : Prop :=
  (∀ code : Byte, (∀ k ∈ ([(0, .channel, 32, 5), (1, .lineSetup, 1, 52), (2, .calibration, 1, 6), (3, .product, 16, 84),
        (4, .valve, 96, 6), (5, .policy, 12, 1)] : List (Nat × TableId × Nat × Nat)),
      code.toNat = k.1 → tableOfCode code = some k.2.1 ∧ tableSize k.2.1 = k.2.2.1 ∧ entrySize k.2.1 = k.2.2.2) ∧
    (6 ≤ code.toNat → tableOfCode code = none)) ∧
  (∀ (s : State) (c : Copy) (code first count segments : Byte) (more : List Byte), s.executes .loadBegin c →
    c.args = code :: first :: count :: segments :: more → s.ma.load = none →
    (∀ t, tableOfCode code = some t → 1 ≤ count.toNat → first.toNat + count.toNat ≤ tableSize t →
      segments.toNat = (count.toNat + 7) / 8 →
      exec .loadBegin s = .next ((report s { s with ma := { s.ma with
        load := some { table := t, first := first.toNat, count := count.toNat, segments := segments.toNat, expected := 0 }
        staging := [], loadTimer := some 2000 } }).replied c {})) ∧
    (tableOfCode code = none ∨ count.toNat = 0 ∨ segments.toNat ≠ (count.toNat + 7) / 8 ∨
        (∃ t, tableOfCode code = some t ∧ tableSize t < first.toNat + count.toNat) →
      exec .loadBegin s = .next (s.replied c { status := .badArgument }))) ∧
  (∀ (s : State) (c : Copy) (index count : Byte) (bytes : List Byte) (ended : Mgmt → Mgmt), s.executes .loadSegment c →
    c.args = index :: count :: bytes → (ended = fun m => { m with load := none, staging := [], loadTimer := none }) →
    (s.ma.load = none → exec .loadSegment s = .next (s.replied c { status := .notLoading })) ∧
    ∀ (d : LoadDesc) (right : Nat), s.ma.load = some d →
      right = (if d.expected + 1 < d.segments then 8 else d.count - 8 * (d.segments - 1)) →
      (index.toNat ≠ d.expected ∨ count.toNat ≠ right →
        exec .loadSegment s = .next ((report s { s with ma := { ended s.ma with counters := { s.ma.counters with
          sequenceErrors := tally s.ma.counters.sequenceErrors 1 } } }).replied c { status := .sequence })) ∧
      (index.toNat = d.expected → count.toNat = right → bytes.length < right * entrySize d.table →
        exec .loadSegment s = .next ((report s { s with ma := { ended s.ma with counters := { s.ma.counters with
          sequenceErrors := tally s.ma.counters.sequenceErrors 1 } } }).replied c { status := .length })) ∧
      ∀ entries : List (List Byte), index.toNat = d.expected → count.toNat = right →
        right * entrySize d.table ≤ bytes.length →
        entries = ((List.range right).map fun i => (bytes.drop (i * entrySize d.table)).take (entrySize d.table)) →
        (d.expected + 1 < d.segments →
          exec .loadSegment s = .next (State.replied { s with ma := { s.ma with
            staging := s.ma.staging ++ entries, load := some { d with expected := d.expected + 1 }
            loadTimer := some 2000 } } c {})) ∧
        (d.segments ≤ d.expected + 1 → ∃ (u v : State) (r : Reply), exec .loadSegment s = .next (v.replied c r) ∧
          (u, r) = commitTable d.table d.first (s.ma.staging ++ entries) s ∧
          v = report u { u with ma := ended u.ma } ∧ (r.status ≠ .ok → u = s) ∧
          (r.status = .ok ∨ r.status = .badArgument ∨ (r.status = .inUse ∧ d.table = .product)) ∧ r.data = [])) ∧
  (∀ (s : State) (c : Copy), s.executes .loadAbort c →
    (s.ma.load = none → exec .loadAbort s = .next (s.replied c {})) ∧
    (s.ma.load ≠ none → exec .loadAbort s = .next ((report s { s with ma := { s.ma with
      load := none, staging := [], loadTimer := none } }).replied c {}))) ∧
  ∀ (s : State) (n : Nat), s.ma.loadTimer = some n →
    exec .loadInactivityExpiry s = .next (report s { s with ma := { s.ma with
      load := none, staging := [], loadTimer := none
      counters := { s.ma.counters with timeouts := tally s.ma.counters.timeouts 1 } } })

/-- The commits of a Channel Table, Calibration, Reject Policy or product load (R6, R32, R96, R108, R159 to R161). Each is
made whole or refused whole with the index of its lowest offending entry; a product load of a slot in use is refused
IN_USE; nothing outside the load range changes. That bit 0 alone of the previous lot's presence byte is read, so that no value of
that byte is refused, is the model's reading (log 19). -/
def Obligations.TableCommits : Prop :=
  (∀ (s : State) (first : Nat) (entries : List (List Byte)) (t : Vector ChannelEntry 32) (offends : Fin 32 → Prop),
    (∀ i : Fin 32, t[i] =
      if first ≤ i.val ∧ i.val < first + entries.length then channelOf (entries.getD (i.val - first) [])
      else s.fp.channels[i]) →
    (∀ i : Fin 32, offends i ↔ t[i].role ≠ 0 ∧
      (2 < t[i].port.toNat ∨ 253 < t[i].source.toNat ∨ 239 < t[i].channel.toNat ∨ 7 < t[i].role.toNat ∨
        1 < t[i].consume.toNat ∨
        ∃ j : Fin 32, j < i ∧ t[j].role ≠ 0 ∧
          ((t[j].source = t[i].source ∧ t[j].channel = t[i].channel ∧
              (t[j].port = t[i].port ∨ t[j].port = 2 ∨ t[i].port = 2)) ∨
            (t[j].role = 6 ∧ t[i].role = 6)))) →
    ((∀ i, ¬ offends i) →
      commitTable .channel first entries s = (s.withFp { s.fp with channels := t }, {})) ∧
    ∀ i : Fin 32, offends i → (∀ j : Fin 32, j < i → ¬ offends j) →
      commitTable .channel first entries s = (s, { status := .badArgument, index := i.val })) ∧
  (∀ (s : State) (first : Nat) (b : List Byte) (more : List (List Byte)),
    ∃ u : State, commitTable .calibration first (b :: more) s = (u, {}) ∧ OnlyChanges [.fp, .fe] s u ∧
      u.fe = { s.fe with
        calZero := signedAt b 0 3, calSpan := fieldAt b 3 3, workingZero := signedAt b 0 3, zeroFault := false }) ∧
  (∀ (s : State) (first : Nat) (entries : List (List Byte)) (good : Nat → List Byte → Prop),
    (good = fun i b => byteAt b 0 = 1 ∨ (byteAt b 0 = 0 ∧ 2 ≤ i)) →
    ((∀ i b, entries[i]? = some b → good (first + i) b) →
      ∃ policy : Vector Bool 12,
        commitTable .policy first entries s = ({ s with jr := { s.jr with policy := policy } }, {}) ∧
        ∀ i : Fin 12, policy[i] =
          if first ≤ i.val ∧ i.val < first + entries.length then
            decide (byteAt (entries.getD (i.val - first) []) 0 = 1)
          else s.jr.policy[i]) ∧
    ∀ (before after : List (List Byte)) (b : List Byte), entries = before ++ b :: after →
      (∀ i x, before[i]? = some x → good (first + i) x) → ¬ good (first + before.length) b →
      commitTable .policy first entries s = (s, { status := .badArgument, index := first + before.length })) ∧
  ∀ (s : State) (first : Nat) (entries : List (List Byte)) (good : List Byte → Prop) (inUse : Fin 16 → Prop),
    (good = fun b => byteAt b 0 = 0 ∨
      (byteAt b 0 = 1 ∧ (productFields b).inRange = true ∧ (productFields b).related = true)) →
    (inUse = fun k => (first ≤ k.val ∧ k.val < first + entries.length) ∧
      (s.pu.active = some k ∨ ∃ r ∈ s.tq.queue, r.product = k)) →
    (∀ (before after : List (List Byte)) (b : List Byte), entries = before ++ b :: after →
      (∀ x ∈ before, good x) → ¬ good b →
      commitTable .product first entries s = (s, { status := .badArgument, index := first + before.length })) ∧
    ((∀ b ∈ entries, good b) →
      (∀ k : Fin 16, inUse k → (∀ j : Fin 16, j < k → ¬ inUse j) →
        commitTable .product first entries s = (s, { status := .inUse, index := k.val })) ∧
      ((∀ k, ¬ inUse k) →
        ∃ u : State, commitTable .product first entries s = (u, {}) ∧ OnlyChanges [.rm, .pu] s u ∧
          u.pu.active = s.pu.active ∧ u.rm = { s.rm with lotBoundary := u.rm.lotBoundary } ∧
          ∀ k : Fin 16,
            (first ≤ k.val ∧ k.val < first + entries.length →
              (byteAt (entries.getD (k.val - first) []) 0 = 1 →
                u.pu.table[k] = some (productFields (entries.getD (k.val - first) [])) ∧
                u.rm.lotBoundary[k] = s.tq.canCounter) ∧
              (byteAt (entries.getD (k.val - first) []) 0 = 0 →
                u.pu.table[k] = none ∧ u.rm.lotBoundary[k] = s.rm.lotBoundary[k])) ∧
            (¬ (first ≤ k.val ∧ k.val < first + entries.length) →
              u.pu.table[k] = s.pu.table[k] ∧ u.rm.lotBoundary[k] = s.rm.lotBoundary[k])))

/-- The commits of a Valve Table or Line Setup load (R17, R27, R127 to R129, R174, R178, R190, R192): refused with the
lowest failing entry, or made whole. A VALVE commit sets each changed entry's valve afresh in its mode, with a clear
request where it is AUTO, and reloads the countdowns of its range. A LINE_SETUP commit leaves a changed grid pending; the
valves that come to lie above the valve count are EXCLUDED, those that come below it take the mode of their entry (R129);
Trim Hold follows a changed hold trim on freeze, and its end under AUTO restarts collection (R133, R134); a changed collector
clears a Hold and makes an upload's slot STORED again in its place, counted as abandoned (R17, R178); CAPTURE_READY follows a
changed slot or threshold (R176); and the status interval stops or starts. That a flag is evaluated anew
only where its field changed is the model's reading (log 28). -/
def Obligations.ValveAndSetupCommits : Prop :=
  (∀ (s : State) (first : Nat) (entries : List (List Byte)) (good : List Byte → Prop),
    (good = fun b => (byteAt b 0).toNat ≤ 2 ∧ -2047 ≤ signedAt b 2 2 ∧ signedAt b 2 2 ≤ 2047) →
    (∀ (before after : List (List Byte)) (b : List Byte), entries = before ++ b :: after →
      (∀ x ∈ before, good x) → ¬ good b →
      commitTable .valve first entries s = (s, { status := .badArgument, index := first + before.length })) ∧
    ((∀ b ∈ entries, good b) →
      ∃ u : State, commitTable .valve first entries s = (u, {}) ∧ OnlyChanges [.fp, .te, .rw] s u ∧
        u.te.mode = s.te.mode ∧ u.te.trimHold = s.te.trimHold ∧ u.rw.counters = s.rw.counters ∧
        (u.te.attention = true ↔ ∃ x : Fin Config.valves, u.te.valves[x].state = .fault) ∧
        ∀ v : Fin Config.valves,
          (¬ (first ≤ v.val ∧ v.val < first + entries.length) →
            u.te.table[v] = s.te.table[v] ∧ u.te.valves[v] = s.te.valves[v] ∧
            u.rw.expected[v] = s.rw.expected[v] ∧ u.rw.epoch[v] = s.rw.epoch[v]) ∧
          ∀ (b : List Byte) (changed : Prop) (kept : ValveRecord), first ≤ v.val → entries[v.val - first]? = some b →
            changed = (s.te.table[v].mode ≠ u.te.table[v].mode ∨ s.te.table[v].fixedTrim ≠ u.te.table[v].fixedTrim) →
            kept = { s.te.valves[v] with countdown := fieldAt b 4 2, armed := false } →
            u.te.table[v].mode =
              (if byteAt b 0 = 0 then .auto else if byteAt b 0 = 1 then .fixed else .excluded) ∧
            u.te.table[v].fixedTrim = signedAt b 2 2 ∧ u.te.table[v].captureInterval = fieldAt b 4 2 ∧
            (v.val < s.ma.setup.valveCount → byteAt b 0 = 0 → changed ∨ s.te.valves[v].state = .fault →
              u.te.valves[v] = { kept with state := .settling, n := 0, eAvg := 0, unsettledRun := 0, limit := false } ∧
              u.rw.expected[v] = none ∧ u.rw.epoch[v] = s.rw.epoch[v] + 1) ∧
            (v.val < s.ma.setup.valveCount → byteAt b 0 = 1 → changed →
              u.te.valves[v] = { kept with
                state := .fixed, trim := clampTrim s.activeProduct (signedAt b 2 2)
                n := 0, eAvg := 0, unsettledRun := 0, limit := false }) ∧
            (v.val < s.ma.setup.valveCount → byteAt b 0 = 2 → s.te.table[v].mode ≠ .excluded →
              u.te.valves[v] = { kept with
                state := .excluded, trim := 0, n := 0, eAvg := 0, unsettledRun := 0, limit := false }) ∧
            (s.ma.setup.valveCount ≤ v.val ∨ (¬ changed ∧ s.te.valves[v].state ≠ .fault) →
              u.te.valves[v] = kept) ∧
            (s.ma.setup.valveCount ≤ v.val ∨ byteAt b 0 ≠ 0 ∨ (¬ changed ∧ s.te.valves[v].state ≠ .fault) →
              u.rw.expected[v] = s.rw.expected[v] ∧ u.rw.epoch[v] = s.rw.epoch[v]))) ∧
  ∀ (s : State) (first : Nat) (b : List Byte) (more : List (List Byte)),
    (setupOf b = none →
      commitTable .lineSetup first (b :: more) s = (s, { status := .badArgument, index := 0 })) ∧
    (setupOf b = some s.ma.setup → commitTable .lineSetup first (b :: more) s = (s, {})) ∧
    ∀ (new old : LineSetup), setupOf b = some new → old = s.ma.setup →
      ∃ u : State, commitTable .lineSetup first (b :: more) s = (u, {}) ∧
        OnlyChanges [.fp, .pos, .te, .rw, .rc, .ma] s u ∧
        u.ma = { s.ma with
          setup := new
          statusTimer := if new.statusInterval = 0 ∧ old.statusInterval ≠ 0 then none
            else if old.statusInterval = 0 ∧ new.statusInterval ≠ 0 then some new.statusInterval
            else s.ma.statusTimer } ∧
        u.pos = (if old.pitch = new.pitch ∧ old.phase = new.phase then s.pos
          else { s.pos with pendingGrid := some (new.pitch, new.phase) }) ∧
        u.fp.holdStanding = (if old.collector = new.collector then s.fp.holdStanding else false) ∧
        u.fp.holdTimer = (if old.collector = new.collector then s.fp.holdTimer else none) ∧
        ((old.collector = new.collector ∧ old.collectorPort = new.collectorPort) ∨ s.rc.engine = .idle →
          u.rc = { s.rc with
            captureReady := if old.captureThreshold = new.captureThreshold then s.rc.captureReady
              else decide (new.captureThreshold ≤ (u.rc.slots.toList.filter Slot.isStored).length) }) ∧
        (∀ (i : Fin 4) (next count : Nat), old.collector ≠ new.collector ∨ old.collectorPort ≠ new.collectorPort →
          s.rc.engine = .uploading i next count →
          u.rc = { s.rc with
            slots := u.rc.slots
            engine := .idle
            captureReady := decide (new.captureThreshold ≤ (u.rc.slots.toList.filter Slot.isStored).length)
            counters := { s.rc.counters with abandoned := tally s.rc.counters.abandoned 1 } } ∧
          (∀ cap, s.rc.slots[i] = .uploading cap → u.rc.slots[i] = .stored cap) ∧
          ∀ j : Fin 4, j ≠ i → u.rc.slots[j] = s.rc.slots[j]) ∧
        u.te.table = s.te.table ∧ u.te.mode = s.te.mode ∧ u.rw.counters = s.rw.counters ∧
        (old.valveCount = new.valveCount → u.te.attention = s.te.attention) ∧
        (old.valveCount ≠ new.valveCount →
          (u.te.attention = true ↔ ∃ x : Fin Config.valves, u.te.valves[x].state = .fault)) ∧
        (old.holdTrimOnFreeze = new.holdTrimOnFreeze → u.te.trimHold = s.te.trimHold) ∧
        (old.holdTrimOnFreeze ≠ new.holdTrimOnFreeze → u.te.trimHold = u.holdsTrim) ∧
        ∀ v : Fin Config.valves,
          (v.val < old.valveCount → new.valveCount ≤ v.val →
            u.te.valves[v] = { s.te.valves[v] with
              state := .excluded, trim := 0, n := 0, eAvg := 0, unsettledRun := 0, limit := false }) ∧
          ((v.val < old.valveCount ↔ v.val < new.valveCount) →
            u.te.valves[v] =
              if s.te.trimHold = true ∧ u.te.trimHold = false ∧ s.te.mode = .auto ∧ v.val < new.valveCount ∧
                  s.te.table[v].mode = .auto then
                { s.te.valves[v] with n := 0, eAvg := 0 }
              else s.te.valves[v]) ∧
          (old.valveCount ≤ v.val → v.val < new.valveCount → s.te.table[v].mode = .fixed →
            u.te.valves[v] = { s.te.valves[v] with
              state := .fixed
              trim := (match s.activeProduct with
                | none => 0
                | some p => max p.trimMin (min s.te.table[v].fixedTrim p.trimMax))
              n := 0, eAvg := 0, unsettledRun := 0, limit := false }) ∧
          (old.valveCount ≤ v.val → v.val < new.valveCount → s.te.table[v].mode = .excluded →
            u.te.valves[v] = s.te.valves[v]) ∧
          (old.valveCount ≤ v.val → v.val < new.valveCount → s.te.table[v].mode = .auto →
            u.te.valves[v] = { s.te.valves[v] with
              state := .settling, n := 0, eAvg := 0, unsettledRun := 0, limit := false } ∧
            u.rw.expected[v] = none ∧ u.rw.epoch[v] = s.rw.epoch[v] + 1) ∧
          (¬ (old.valveCount ≤ v.val ∧ v.val < new.valveCount ∧ s.te.table[v].mode = .auto) →
            u.rw.expected[v] = s.rw.expected[v] ∧ u.rw.epoch[v] = s.rw.epoch[v])

/-- CLEAR_COUNTERS clears every counter and nothing else; CLEAR_ALARMS the sticky alarms, with Line Stop Request standing
again over a non-empty schedule while ENCODER_FAULT stands (R121, R186); ZERO_NOW takes its request, or is BUSY with one
pending (R52). The status interval expiry builds a status frame for the controller, which replaces the oldest of a full
queue, and restarts the timer with the interval of the moment (R14, R191, R192). -/
def Obligations.ClearAndStatusCommands : Prop :=
  (∀ (s : State) (c : Copy), s.executes .clearCounters c → exec .clearCounters s = .next (State.replied { s with
    fp := { s.fp with
      portA := { s.fp.portA with counters := {} }, portB := { s.fp.portB with counters := {} }
      malformed := Vector.replicate 7 0 }
    pos := { s.pos with counters := {} }
    fe := { s.fe with counters := {} }
    tq := { s.tq with counters := {} }
    rm := { s.rm with counters := {} }
    jr := { s.jr with classes := Vector.replicate 12 0, rejectTotal := 0, counters := {} }
    rw := { s.rw with counters := {} }
    rc := { s.rc with counters := {} }
    ma := { s.ma with counters := {} } } c {})) ∧
  (∀ (s : State) (c : Copy), s.executes .clearAlarms c →
    ∃ u : State, exec .clearAlarms s = .next (u.replied c {}) ∧ OnlyChanges [.fp, .fe, .jr, .ma] s u ∧
      u.jr = { s.jr with
        unexpected := false, lineStop := decide (s.pos.fault = true ∧ s.jr.schedule ≠ []) } ∧
      u.ma = { s.ma with overrun := false } ∧ u.fe = { s.fe with zeroDone := false } ∧
      u.fp.handed = s.fp.handed ∧ u.fp.channels = s.fp.channels) ∧
  (∀ (s : State) (c : Copy), s.executes .zeroNow c →
    (s.fe.manualZero = true → exec .zeroNow s = .next (s.replied c { status := .busy })) ∧
    (s.fe.manualZero = false → exec .zeroNow s = .next
      ((report s { s with fe := { s.fe with manualZero := true, zeroDone := false } }).replied c {}))) ∧
  ∀ (s u : State) (n : Nat) (port : Port), s.ma.statusTimer = some n → port = s.ma.setup.controllerPort →
    u = { s with ma := { s.ma with
      statusTimer := if s.ma.setup.statusInterval = 0 then none else some s.ma.setup.statusInterval } } →
    (s.ma.setup.controller = 255 → exec .statusIntervalExpiry s = .next u) ∧
    (s.ma.setup.controller ≠ 255 → (s.fp.port port).linkUp = false → exec .statusIntervalExpiry s = .next
      (u.onPort port fun ps => { ps with counters := { ps.counters with dropped := tally ps.counters.dropped 1 } })) ∧
    (s.ma.setup.controller ≠ 255 → (s.fp.port port).linkUp = true → (s.fp.port port).status.length ≤ 2 →
      ∃ t : State, exec .statusIntervalExpiry s = .next t ∧ OnlyChanges [.fp, .ma] s t ∧ t.ma = u.ma ∧
        t.fp.seqMgmt = s.fp.seqMgmt + 1 ∧
        (t.fp.port port).status = (s.fp.port port).status.drop ((s.fp.port port).status.length - 1) ++
          [insertedFrame s.fp.station s.ma.setup.controller 240 s.fp.seqMgmt s.statusPayload])

/-- The five scopes of RESET, block by block (R193 and Table 11-7 with R5, R20, R21, R55, R56, R62, R81, R82, R84, R102, R125,
R148, R149, R167, R168, R179, R181). Each completes. TRACKING and CAPTURE bring about in the Trim Engine what Trim Hold brings
about (R133, R134) and in the Frame Path a status frame for each flag that changes (R191), LOAD the status frame of LOAD_ACTIVE
and the RELEASE frames (R20), and nothing else there. What the model reads into FULL: the Window Results and copies handed before it
stay (log 17), the RELEASE frames are offered after the power-on values are given, so that their numbers begin at 0 and a
refused one is counted as dropped (log 16), and what waits in the queue of commands stays (log 30). FULL leaves the ignored fields
of the NONE entries of the Channel Table at the values of log 2, and the model's own fields of logs 35 and 38 empty. -/
def Obligations.ResetScopes : Prop :=
  (∀ (s : State) (c : Copy), s.executes .resetFull c →
    ∃ u : State, exec .resetFull s = .next (u.replied c {}) ∧ u.pending = s.pending ∧ u.pos = State.reset.pos ∧
      u.fe = { State.reset.fe with results := s.fe.results } ∧ u.fp.handed = s.fp.handed ∧ u.tq = State.reset.tq ∧ u.rm = State.reset.rm ∧
      u.jr = State.reset.jr ∧ u.te = State.reset.te ∧ u.rw = State.reset.rw ∧ u.pu = State.reset.pu ∧
      u.rc = State.reset.rc ∧ u.ma = { State.reset.ma with executing := some c } ∧
      u.fp.station = s.fp.station ∧ u.fp.parityFault = s.fp.parityFault ∧ u.fp.channels = State.reset.fp.channels ∧
      u.fp.malformed = State.reset.fp.malformed ∧ u.fp.seqMgmt = 0 ∧ u.fp.held = [] ∧ u.fp.holdStanding = false ∧
      u.fp.holdTimer = none ∧ u.fp.seqFlow = BitVec.ofNat 8 s.fp.keep.releases.length ∧
      ∀ p : Port, (u.fp.port p).linkUp = (s.fp.port p).linkUp ∧ (u.fp.port p).forward = (s.fp.port p).forward ∧
        (u.fp.port p).transmitting = (s.fp.port p).transmitting ∧ (u.fp.port p).reject = [] ∧
        (u.fp.port p).printTag = [] ∧ (u.fp.port p).status = [] ∧ (u.fp.port p).capture = [] ∧
        (u.fp.port p).reply = ((s.fp.keep.releases.filter fun x => x.1 == p).map Prod.snd) ∧
        (∀ refused, refused = (s.fp.held.filter fun h => h.2 == p).length -
            (s.fp.keep.releases.filter fun x => x.1 == p).length →
          (u.fp.port p).counters = { dropped := tally 0 refused }) ∧
        (∀ (station : Byte) (others : List (Byte × Port)), s.fp.held = (station, p) :: others →
          (s.fp.port p).linkUp = true →
          ∃ later, (u.fp.port p).reply = insertedFrame s.fp.station station 241 0 [2] :: later)) ∧
  (∀ (s : State) (c : Copy), s.executes .resetTracking c → s.rc.ring.length ≤ 32 →
    ∃ u : State, exec .resetTracking s = .next (u.replied c {}) ∧ OnlyChanges [.fp, .fe, .tq, .rm, .te, .rc] s u ∧
      u.tq = { s.tq with
        queue := [], dischargeExp := none, seamExp := none
        counters := { s.tq.counters with flushed := tally s.tq.counters.flushed s.tq.queue.length } } ∧
      u.rm = { s.rm with expectation := none, tracking := .notSynced, cleanRun := 0, unreadRun := 0 } ∧
      u.fe = (if s.fe.mode = .settle ∨ s.fe.mode = .window then
          { s.fe with window := none, buffer := [], mode := .occupied, beltClear := 0 }
        else s.fe) ∧
      u.te = { s.te with
        trimHold := if s.rm.tracking = .notSynced then s.te.trimHold else decide (s.te.mode = .auto) } ∧
      s.buildsStatus ([decide (s.rm.tracking ≠ .notSynced), s.te.trimHold != u.te.trimHold].count true) u.fp ∧
      u.rc = { s.rc with ring := s.rc.ringAfter (s.tq.queue.map fun r => removalEntry r .flushed s.pos.linePos) }) ∧
  (∀ (s : State) (c : Copy), s.executes .resetStatistics c →
    ∃ u : State, exec .resetStatistics s = .next (u.replied c {}) ∧ OnlyChanges [.tq, .rm, .jr, .te] s u ∧
      u.tq = { s.tq with counters := {} } ∧ u.rm = { s.rm with counters := {} } ∧
      u.jr = { s.jr with classes := u.jr.classes, rejectTotal := 0 } ∧ (∀ i : Fin 12, u.jr.classes[i] = 0) ∧
      u.te = { s.te with valves := u.te.valves } ∧
      ∀ v : Fin Config.valves, u.te.valves[v] = { s.te.valves[v] with
        n := 0, eAvg := 0, weighed := 0, rejected := 0, trimChanges := 0 }) ∧
  (∀ (s : State) (c : Copy), s.executes .resetLoad c → s.loadInv →
    ∃ (u : State) (fp : FramePath), exec .resetLoad s = .next (u.replied c {}) ∧ OnlyChanges [.fp, .ma] s u ∧
      u.ma = { s.ma with load := none, staging := [], loadTimer := none, fifo := [] } ∧
      s.buildsStatus (if s.ma.load = none then 0 else 1) fp ∧ u.fp = fp.released) ∧
  ∀ (s : State) (c : Copy), s.executes .resetCapture c → 1 ≤ s.ma.setup.captureThreshold →
    ∃ u : State, exec .resetCapture s = .next (u.replied c {}) ∧ OnlyChanges [.fp, .te, .rc] s u ∧
      u.rc.ring = [] ∧ u.rc.burst = [] ∧ u.rc.freeze = .notFrozen ∧ u.rc.cause = none ∧ u.rc.engine = .idle ∧
      (∀ i : Fin 4, u.rc.slots[i] = .empty) ∧ u.rc.order = [] ∧ u.rc.captureReady = false ∧
      u.rc.captureNumber = s.rc.captureNumber ∧
      u.rc.counters = (if s.rc.engine = .idle then s.rc.counters
        else { s.rc.counters with abandoned := tally s.rc.counters.abandoned 1 }) ∧
      u.te = { s.te with
        trimHold := decide (s.te.mode = .auto ∧ (s.rm.tracking ≠ .synced ∨ s.pu.active = none))
        valves := u.te.valves } ∧
      (∀ v : Fin Config.valves, u.te.valves[v] =
        if s.te.mode = .auto ∧ s.te.trimHold = true ∧ u.te.trimHold = false ∧ v.val < s.ma.setup.valveCount ∧
            s.te.table[v].mode = .auto then
          { s.te.valves[v] with n := 0, eAvg := 0 }
        else s.te.valves[v]) ∧
      s.buildsStatus ([decide (s.rc.freeze ≠ .notFrozen), s.te.trimHold != u.te.trimHold, s.rc.captureReady].count true) u.fp

/-- A change of the status word reaches the controller (R191, Table 12-5): after any step that changed it, with the controller
station and port standing through the step and the link of that port up, the newest frame of its STATUS queue is addressed to
the controller and carries the status word as it stands. -/
def Obligations.StatusWordShown : Prop :=
  ∀ s t : State, step s = .next t → t.statusWord ≠ s.statusWord → s.ma.setup.controller ≠ 255 →
    t.ma.setup.controller = s.ma.setup.controller → t.ma.setup.controllerPort = s.ma.setup.controllerPort →
    (t.fp.port t.ma.setup.controllerPort).linkUp = true →
    ∃ earlier frame, (t.fp.port t.ma.setup.controllerPort).status = earlier ++ [frame] ∧
      byteAt frame 15 = t.ma.setup.controller ∧ bytesAt frame 22 2 = [0x80, 0] ∧
      bytesAt frame 24 2 = beBytes 2 t.statusWord.toNat

/-- What READ_TABLE returns of a committed entry, loaded again, is that entry (R185, R194, R195, Table 12-6), for every table
and every value its ranges admit; and the entries have the sizes and the fields of Table 12-6, in its order, reserved bytes and
the bytes of an absent previous lot as 0 (R194). That the previous lot stands when bit 0 of its
presence byte does is log 19. -/
def Obligations.EntryRoundTrip : Prop :=
  (∀ p : Product, p.inRange = true → p.related = true → p.fits →
    productOf (productBytes (some p)) = some (some p) ∧ (productBytes (some p)).length = 84) ∧
  (productOf (productBytes none) = some none ∧ (productBytes none).length = 84) ∧
  (∀ u : LineSetup, u.inRange = true → u.related = true → u.fits →
    setupOf (setupBytes u) = some u ∧ (setupBytes u).length = 52) ∧
  (∀ e : ValveEntry, -2047 ≤ e.fixedTrim → e.fixedTrim ≤ 2047 → e.captureInterval ≤ 65535 →
    valveOf (valveBytes e) = some e ∧ (valveBytes e).length = 6) ∧
  (∀ (zero : Int) (span : Nat), -8388608 ≤ zero → zero ≤ 8388607 → span ≤ 16777215 →
    calibrationOf (calibrationBytes zero span) = (zero, span) ∧ (calibrationBytes zero span).length = 6) ∧
  (∀ e : ChannelEntry, channelOf (channelBytes e) = e ∧ (channelBytes e).length = 5) ∧
  (∀ (i : Nat) (b : Bool), b = true ∨ 2 ≤ i → policyOf i [flagByte b] = some b) ∧
  (∀ e : ChannelEntry, channelBytes e = [e.port, e.source, e.channel, e.role, e.consume]) ∧
  (∀ (zero : Int) (span : Nat), calibrationBytes zero span = laidOut [signedField 3 zero, (3, span)]) ∧
  (∀ e : ValveEntry, valveBytes e = laidOut [(1, match e.mode with | .auto => 0 | .fixed => 1 | .excluded => 2), (1, 0),
    signedField 2 e.fixedTrim, (2, e.captureInterval)]) ∧
  (∀ p : Product, productBytes (some p) = [1] ++ p.name ++ laidOut [(4, p.target), (4, p.tare), signedField 4 p.rejectLow,
      signedField 4 p.warnLow, signedField 4 p.warnHigh, signedField 4 p.rejectHigh, (2, p.doseMin), (2, p.doseMax),
      signedField 2 p.trimMin, signedField 2 p.trimMax, (2, p.deadband), (1, p.nMin), (1, p.k), (1, p.g), (3, p.gq),
      (2, p.maxStep), (1, p.settle), (1, p.length), (1, p.minSamples), (3, p.band)] ++ p.currentLot ++
    (match p.previousLot with | none => List.replicate 9 0 | some lot => 1 :: lot) ++ [0, 0]) ∧
  ∀ (u : LineSetup) (port : Port → Nat × Nat) (flag : Bool → Nat × Nat),
    (port = fun p => (1, match p with | .a => 0 | .b => 1)) → (flag = fun b => (1, if b then 1 else 0)) →
    setupBytes u = [u.coder, u.rejector, u.controller, u.collector] ++ laidOut [port u.coderPort, port u.rejectorPort,
      port u.controllerPort, port u.collectorPort, (2, u.statusInterval), (2, u.pitch), (2, u.phase), (2, u.encoderSilence),
      (1, u.digitiserSilence), (2, u.beltClearSamples), (3, u.zeroTrackLimit), (3, u.zeroCaptureLimit), (1, u.valveCount),
      (1, u.headCount), (2, u.maxAge), (1, u.lookahead), (1, u.unreadLimit), (1, u.syncReads), (1, u.codeLength),
      (1, u.lotStart), (1, u.lotLength), (1, u.tagStart), (1, u.lotGrace), (3, u.rejectOffset), (2, u.rejectPulse),
      (2, u.confirmWindow), (1, u.burstK), (1, u.burstW), flag u.freezeOnLost, flag u.freezeOnUnconfirmed,
      flag u.holdTrimOnFreeze, flag u.captureWrap, (1, u.captureThreshold), flag u.upload]

/-- The invariants that the statements above say every step keeps hold of the machine after reset, with no risen run, no
counted sample and no raised ages left to compare (the model's own fields: logs 35 and 38). -/
def Obligations.InvariantsHoldAtReset : Prop :=
  State.reset.frameInv ∧ State.reset.setupInv ∧ State.reset.loadInv ∧ State.reset.positionInv ∧ State.reset.windowInv ∧
    State.reset.bufferInv ∧ State.reset.tableInv ∧ State.reset.productInv ∧ State.reset.queueInv ∧
    State.reset.orderInv ∧ State.reset.rejectInv ∧ State.reset.scheduleInv ∧ State.reset.valveInv ∧ State.reset.averageInv ∧ State.reset.flagInv ∧ State.reset.ringInv ∧
    State.reset.rm.risen = none ∧ State.reset.fe.counted = false ∧ State.reset.tq.ticked = none
end

