-- ==== Sys2Proof/Laws/State.lean ====
section
/-!
SUPPORT. The updates of State field by field: what each leaves and what it puts, each true by rfl.
-/

namespace Sys2Proof.Machine

/-! ### State.withFp -/

@[simp] theorem State.withFp_fp (s : State) (x : FramePath) : (s.withFp x).fp = x := rfl
@[simp] theorem State.withFp_pos (s : State) (x : FramePath) : (s.withFp x).pos = s.pos := rfl
@[simp] theorem State.withFp_fe (s : State) (x : FramePath) : (s.withFp x).fe = s.fe := rfl
@[simp] theorem State.withFp_tq (s : State) (x : FramePath) : (s.withFp x).tq = s.tq := rfl
@[simp] theorem State.withFp_rm (s : State) (x : FramePath) : (s.withFp x).rm = s.rm := rfl
@[simp] theorem State.withFp_jr (s : State) (x : FramePath) : (s.withFp x).jr = s.jr := rfl
@[simp] theorem State.withFp_te (s : State) (x : FramePath) : (s.withFp x).te = s.te := rfl
@[simp] theorem State.withFp_rw (s : State) (x : FramePath) : (s.withFp x).rw = s.rw := rfl
@[simp] theorem State.withFp_pu (s : State) (x : FramePath) : (s.withFp x).pu = s.pu := rfl
@[simp] theorem State.withFp_rc (s : State) (x : FramePath) : (s.withFp x).rc = s.rc := rfl
@[simp] theorem State.withFp_ma (s : State) (x : FramePath) : (s.withFp x).ma = s.ma := rfl
@[simp] theorem State.withFp_pending (s : State) (x : FramePath) : (s.withFp x).pending = s.pending := rfl

/-! ### State.withPos -/

@[simp] theorem State.withPos_fp (s : State) (x : Position) : (s.withPos x).fp = s.fp := rfl
@[simp] theorem State.withPos_pos (s : State) (x : Position) : (s.withPos x).pos = x := rfl
@[simp] theorem State.withPos_fe (s : State) (x : Position) : (s.withPos x).fe = s.fe := rfl
@[simp] theorem State.withPos_tq (s : State) (x : Position) : (s.withPos x).tq = s.tq := rfl
@[simp] theorem State.withPos_rm (s : State) (x : Position) : (s.withPos x).rm = s.rm := rfl
@[simp] theorem State.withPos_jr (s : State) (x : Position) : (s.withPos x).jr = s.jr := rfl
@[simp] theorem State.withPos_te (s : State) (x : Position) : (s.withPos x).te = s.te := rfl
@[simp] theorem State.withPos_rw (s : State) (x : Position) : (s.withPos x).rw = s.rw := rfl
@[simp] theorem State.withPos_pu (s : State) (x : Position) : (s.withPos x).pu = s.pu := rfl
@[simp] theorem State.withPos_rc (s : State) (x : Position) : (s.withPos x).rc = s.rc := rfl
@[simp] theorem State.withPos_ma (s : State) (x : Position) : (s.withPos x).ma = s.ma := rfl
@[simp] theorem State.withPos_pending (s : State) (x : Position) : (s.withPos x).pending = s.pending := rfl

/-! ### State.withFe -/

@[simp] theorem State.withFe_fp (s : State) (x : FrontEnd) : (s.withFe x).fp = s.fp := rfl
@[simp] theorem State.withFe_pos (s : State) (x : FrontEnd) : (s.withFe x).pos = s.pos := rfl
@[simp] theorem State.withFe_fe (s : State) (x : FrontEnd) : (s.withFe x).fe = x := rfl
@[simp] theorem State.withFe_tq (s : State) (x : FrontEnd) : (s.withFe x).tq = s.tq := rfl
@[simp] theorem State.withFe_rm (s : State) (x : FrontEnd) : (s.withFe x).rm = s.rm := rfl
@[simp] theorem State.withFe_jr (s : State) (x : FrontEnd) : (s.withFe x).jr = s.jr := rfl
@[simp] theorem State.withFe_te (s : State) (x : FrontEnd) : (s.withFe x).te = s.te := rfl
@[simp] theorem State.withFe_rw (s : State) (x : FrontEnd) : (s.withFe x).rw = s.rw := rfl
@[simp] theorem State.withFe_pu (s : State) (x : FrontEnd) : (s.withFe x).pu = s.pu := rfl
@[simp] theorem State.withFe_rc (s : State) (x : FrontEnd) : (s.withFe x).rc = s.rc := rfl
@[simp] theorem State.withFe_ma (s : State) (x : FrontEnd) : (s.withFe x).ma = s.ma := rfl
@[simp] theorem State.withFe_pending (s : State) (x : FrontEnd) : (s.withFe x).pending = s.pending := rfl

/-! ### State.withRw -/

@[simp] theorem State.withRw_fp (s : State) (x : Rewriter) : (s.withRw x).fp = s.fp := rfl
@[simp] theorem State.withRw_pos (s : State) (x : Rewriter) : (s.withRw x).pos = s.pos := rfl
@[simp] theorem State.withRw_fe (s : State) (x : Rewriter) : (s.withRw x).fe = s.fe := rfl
@[simp] theorem State.withRw_tq (s : State) (x : Rewriter) : (s.withRw x).tq = s.tq := rfl
@[simp] theorem State.withRw_rm (s : State) (x : Rewriter) : (s.withRw x).rm = s.rm := rfl
@[simp] theorem State.withRw_jr (s : State) (x : Rewriter) : (s.withRw x).jr = s.jr := rfl
@[simp] theorem State.withRw_te (s : State) (x : Rewriter) : (s.withRw x).te = s.te := rfl
@[simp] theorem State.withRw_rw (s : State) (x : Rewriter) : (s.withRw x).rw = x := rfl
@[simp] theorem State.withRw_pu (s : State) (x : Rewriter) : (s.withRw x).pu = s.pu := rfl
@[simp] theorem State.withRw_rc (s : State) (x : Rewriter) : (s.withRw x).rc = s.rc := rfl
@[simp] theorem State.withRw_ma (s : State) (x : Rewriter) : (s.withRw x).ma = s.ma := rfl
@[simp] theorem State.withRw_pending (s : State) (x : Rewriter) : (s.withRw x).pending = s.pending := rfl

/-! ### State.withMa -/

@[simp] theorem State.withMa_fp (s : State) (x : Mgmt) : (s.withMa x).fp = s.fp := rfl
@[simp] theorem State.withMa_pos (s : State) (x : Mgmt) : (s.withMa x).pos = s.pos := rfl
@[simp] theorem State.withMa_fe (s : State) (x : Mgmt) : (s.withMa x).fe = s.fe := rfl
@[simp] theorem State.withMa_tq (s : State) (x : Mgmt) : (s.withMa x).tq = s.tq := rfl
@[simp] theorem State.withMa_rm (s : State) (x : Mgmt) : (s.withMa x).rm = s.rm := rfl
@[simp] theorem State.withMa_jr (s : State) (x : Mgmt) : (s.withMa x).jr = s.jr := rfl
@[simp] theorem State.withMa_te (s : State) (x : Mgmt) : (s.withMa x).te = s.te := rfl
@[simp] theorem State.withMa_rw (s : State) (x : Mgmt) : (s.withMa x).rw = s.rw := rfl
@[simp] theorem State.withMa_pu (s : State) (x : Mgmt) : (s.withMa x).pu = s.pu := rfl
@[simp] theorem State.withMa_rc (s : State) (x : Mgmt) : (s.withMa x).rc = s.rc := rfl
@[simp] theorem State.withMa_ma (s : State) (x : Mgmt) : (s.withMa x).ma = x := rfl
@[simp] theorem State.withMa_pending (s : State) (x : Mgmt) : (s.withMa x).pending = s.pending := rfl

/-! ### State.withQueue -/

@[simp] theorem State.withQueue_fp (s : State) (q : List CanRecord) : (s.withQueue q).fp = s.fp := rfl
@[simp] theorem State.withQueue_pos (s : State) (q : List CanRecord) : (s.withQueue q).pos = s.pos := rfl
@[simp] theorem State.withQueue_fe (s : State) (q : List CanRecord) : (s.withQueue q).fe = s.fe := rfl
@[simp] theorem State.withQueue_tq (s : State) (q : List CanRecord) : (s.withQueue q).tq = { s.tq with queue := q } := rfl
@[simp] theorem State.withQueue_rm (s : State) (q : List CanRecord) : (s.withQueue q).rm = s.rm := rfl
@[simp] theorem State.withQueue_jr (s : State) (q : List CanRecord) : (s.withQueue q).jr = s.jr := rfl
@[simp] theorem State.withQueue_te (s : State) (q : List CanRecord) : (s.withQueue q).te = s.te := rfl
@[simp] theorem State.withQueue_rw (s : State) (q : List CanRecord) : (s.withQueue q).rw = s.rw := rfl
@[simp] theorem State.withQueue_pu (s : State) (q : List CanRecord) : (s.withQueue q).pu = s.pu := rfl
@[simp] theorem State.withQueue_rc (s : State) (q : List CanRecord) : (s.withQueue q).rc = s.rc := rfl
@[simp] theorem State.withQueue_ma (s : State) (q : List CanRecord) : (s.withQueue q).ma = s.ma := rfl
@[simp] theorem State.withQueue_pending (s : State) (q : List CanRecord) : (s.withQueue q).pending = s.pending := rfl

/-! ### State.withTrackingCounters -/

@[simp] theorem State.withTrackingCounters_fp (s : State) (c : TrackingCounters) : (s.withTrackingCounters c).fp = s.fp := rfl
@[simp] theorem State.withTrackingCounters_pos (s : State) (c : TrackingCounters) : (s.withTrackingCounters c).pos = s.pos := rfl
@[simp] theorem State.withTrackingCounters_fe (s : State) (c : TrackingCounters) : (s.withTrackingCounters c).fe = s.fe := rfl
@[simp] theorem State.withTrackingCounters_tq (s : State) (c : TrackingCounters) : (s.withTrackingCounters c).tq = { s.tq with counters := c } := rfl
@[simp] theorem State.withTrackingCounters_rm (s : State) (c : TrackingCounters) : (s.withTrackingCounters c).rm = s.rm := rfl
@[simp] theorem State.withTrackingCounters_jr (s : State) (c : TrackingCounters) : (s.withTrackingCounters c).jr = s.jr := rfl
@[simp] theorem State.withTrackingCounters_te (s : State) (c : TrackingCounters) : (s.withTrackingCounters c).te = s.te := rfl
@[simp] theorem State.withTrackingCounters_rw (s : State) (c : TrackingCounters) : (s.withTrackingCounters c).rw = s.rw := rfl
@[simp] theorem State.withTrackingCounters_pu (s : State) (c : TrackingCounters) : (s.withTrackingCounters c).pu = s.pu := rfl
@[simp] theorem State.withTrackingCounters_rc (s : State) (c : TrackingCounters) : (s.withTrackingCounters c).rc = s.rc := rfl
@[simp] theorem State.withTrackingCounters_ma (s : State) (c : TrackingCounters) : (s.withTrackingCounters c).ma = s.ma := rfl
@[simp] theorem State.withTrackingCounters_pending (s : State) (c : TrackingCounters) : (s.withTrackingCounters c).pending = s.pending := rfl

/-! ### State.withSchedule -/

@[simp] theorem State.withSchedule_fp (s : State) (l : List RejectEntry) : (s.withSchedule l).fp = s.fp := rfl
@[simp] theorem State.withSchedule_pos (s : State) (l : List RejectEntry) : (s.withSchedule l).pos = s.pos := rfl
@[simp] theorem State.withSchedule_fe (s : State) (l : List RejectEntry) : (s.withSchedule l).fe = s.fe := rfl
@[simp] theorem State.withSchedule_tq (s : State) (l : List RejectEntry) : (s.withSchedule l).tq = s.tq := rfl
@[simp] theorem State.withSchedule_rm (s : State) (l : List RejectEntry) : (s.withSchedule l).rm = s.rm := rfl
@[simp] theorem State.withSchedule_jr (s : State) (l : List RejectEntry) : (s.withSchedule l).jr = { s.jr with schedule := l } := rfl
@[simp] theorem State.withSchedule_te (s : State) (l : List RejectEntry) : (s.withSchedule l).te = s.te := rfl
@[simp] theorem State.withSchedule_rw (s : State) (l : List RejectEntry) : (s.withSchedule l).rw = s.rw := rfl
@[simp] theorem State.withSchedule_pu (s : State) (l : List RejectEntry) : (s.withSchedule l).pu = s.pu := rfl
@[simp] theorem State.withSchedule_rc (s : State) (l : List RejectEntry) : (s.withSchedule l).rc = s.rc := rfl
@[simp] theorem State.withSchedule_ma (s : State) (l : List RejectEntry) : (s.withSchedule l).ma = s.ma := rfl
@[simp] theorem State.withSchedule_pending (s : State) (l : List RejectEntry) : (s.withSchedule l).pending = s.pending := rfl

/-! ### State.withRejectCounters -/

@[simp] theorem State.withRejectCounters_fp (s : State) (c : RejectCounters) : (s.withRejectCounters c).fp = s.fp := rfl
@[simp] theorem State.withRejectCounters_pos (s : State) (c : RejectCounters) : (s.withRejectCounters c).pos = s.pos := rfl
@[simp] theorem State.withRejectCounters_fe (s : State) (c : RejectCounters) : (s.withRejectCounters c).fe = s.fe := rfl
@[simp] theorem State.withRejectCounters_tq (s : State) (c : RejectCounters) : (s.withRejectCounters c).tq = s.tq := rfl
@[simp] theorem State.withRejectCounters_rm (s : State) (c : RejectCounters) : (s.withRejectCounters c).rm = s.rm := rfl
@[simp] theorem State.withRejectCounters_jr (s : State) (c : RejectCounters) : (s.withRejectCounters c).jr = { s.jr with counters := c } := rfl
@[simp] theorem State.withRejectCounters_te (s : State) (c : RejectCounters) : (s.withRejectCounters c).te = s.te := rfl
@[simp] theorem State.withRejectCounters_rw (s : State) (c : RejectCounters) : (s.withRejectCounters c).rw = s.rw := rfl
@[simp] theorem State.withRejectCounters_pu (s : State) (c : RejectCounters) : (s.withRejectCounters c).pu = s.pu := rfl
@[simp] theorem State.withRejectCounters_rc (s : State) (c : RejectCounters) : (s.withRejectCounters c).rc = s.rc := rfl
@[simp] theorem State.withRejectCounters_ma (s : State) (c : RejectCounters) : (s.withRejectCounters c).ma = s.ma := rfl
@[simp] theorem State.withRejectCounters_pending (s : State) (c : RejectCounters) : (s.withRejectCounters c).pending = s.pending := rfl

/-! ### State.withReaderCounters -/

@[simp] theorem State.withReaderCounters_fp (s : State) (c : ReaderCounters) : (s.withReaderCounters c).fp = s.fp := rfl
@[simp] theorem State.withReaderCounters_pos (s : State) (c : ReaderCounters) : (s.withReaderCounters c).pos = s.pos := rfl
@[simp] theorem State.withReaderCounters_fe (s : State) (c : ReaderCounters) : (s.withReaderCounters c).fe = s.fe := rfl
@[simp] theorem State.withReaderCounters_tq (s : State) (c : ReaderCounters) : (s.withReaderCounters c).tq = s.tq := rfl
@[simp] theorem State.withReaderCounters_rm (s : State) (c : ReaderCounters) : (s.withReaderCounters c).rm = { s.rm with counters := c } := rfl
@[simp] theorem State.withReaderCounters_jr (s : State) (c : ReaderCounters) : (s.withReaderCounters c).jr = s.jr := rfl
@[simp] theorem State.withReaderCounters_te (s : State) (c : ReaderCounters) : (s.withReaderCounters c).te = s.te := rfl
@[simp] theorem State.withReaderCounters_rw (s : State) (c : ReaderCounters) : (s.withReaderCounters c).rw = s.rw := rfl
@[simp] theorem State.withReaderCounters_pu (s : State) (c : ReaderCounters) : (s.withReaderCounters c).pu = s.pu := rfl
@[simp] theorem State.withReaderCounters_rc (s : State) (c : ReaderCounters) : (s.withReaderCounters c).rc = s.rc := rfl
@[simp] theorem State.withReaderCounters_ma (s : State) (c : ReaderCounters) : (s.withReaderCounters c).ma = s.ma := rfl
@[simp] theorem State.withReaderCounters_pending (s : State) (c : ReaderCounters) : (s.withReaderCounters c).pending = s.pending := rfl

/-! ### State.withRuns -/

@[simp] theorem State.withRuns_fp (s : State) (m n : Nat) : (s.withRuns m n).fp = s.fp := rfl
@[simp] theorem State.withRuns_pos (s : State) (m n : Nat) : (s.withRuns m n).pos = s.pos := rfl
@[simp] theorem State.withRuns_fe (s : State) (m n : Nat) : (s.withRuns m n).fe = s.fe := rfl
@[simp] theorem State.withRuns_tq (s : State) (m n : Nat) : (s.withRuns m n).tq = s.tq := rfl
@[simp] theorem State.withRuns_rm (s : State) (m n : Nat) : (s.withRuns m n).rm = { s.rm with cleanRun := m, unreadRun := n } := rfl
@[simp] theorem State.withRuns_jr (s : State) (m n : Nat) : (s.withRuns m n).jr = s.jr := rfl
@[simp] theorem State.withRuns_te (s : State) (m n : Nat) : (s.withRuns m n).te = s.te := rfl
@[simp] theorem State.withRuns_rw (s : State) (m n : Nat) : (s.withRuns m n).rw = s.rw := rfl
@[simp] theorem State.withRuns_pu (s : State) (m n : Nat) : (s.withRuns m n).pu = s.pu := rfl
@[simp] theorem State.withRuns_rc (s : State) (m n : Nat) : (s.withRuns m n).rc = s.rc := rfl
@[simp] theorem State.withRuns_ma (s : State) (m n : Nat) : (s.withRuns m n).ma = s.ma := rfl
@[simp] theorem State.withRuns_pending (s : State) (m n : Nat) : (s.withRuns m n).pending = s.pending := rfl

/-! ### State.withRisen -/

@[simp] theorem State.withRisen_fp (s : State) (r : Option Run) : (s.withRisen r).fp = s.fp := rfl
@[simp] theorem State.withRisen_pos (s : State) (r : Option Run) : (s.withRisen r).pos = s.pos := rfl
@[simp] theorem State.withRisen_fe (s : State) (r : Option Run) : (s.withRisen r).fe = s.fe := rfl
@[simp] theorem State.withRisen_tq (s : State) (r : Option Run) : (s.withRisen r).tq = s.tq := rfl
@[simp] theorem State.withRisen_rm (s : State) (r : Option Run) : (s.withRisen r).rm = { s.rm with risen := r } := rfl
@[simp] theorem State.withRisen_jr (s : State) (r : Option Run) : (s.withRisen r).jr = s.jr := rfl
@[simp] theorem State.withRisen_te (s : State) (r : Option Run) : (s.withRisen r).te = s.te := rfl
@[simp] theorem State.withRisen_rw (s : State) (r : Option Run) : (s.withRisen r).rw = s.rw := rfl
@[simp] theorem State.withRisen_pu (s : State) (r : Option Run) : (s.withRisen r).pu = s.pu := rfl
@[simp] theorem State.withRisen_rc (s : State) (r : Option Run) : (s.withRisen r).rc = s.rc := rfl
@[simp] theorem State.withRisen_ma (s : State) (r : Option Run) : (s.withRisen r).ma = s.ma := rfl
@[simp] theorem State.withRisen_pending (s : State) (r : Option Run) : (s.withRisen r).pending = s.pending := rfl

/-! ### countClear -/

@[simp] theorem countClear_fp (s : State) : (countClear s).fp = s.fp := rfl
@[simp] theorem countClear_pos (s : State) : (countClear s).pos = s.pos := rfl
@[simp] theorem countClear_fe (s : State) : (countClear s).fe = { s.fe with beltClear := min (s.fe.beltClear + 1) 65535, counted := true } := rfl
@[simp] theorem countClear_tq (s : State) : (countClear s).tq = s.tq := rfl
@[simp] theorem countClear_rm (s : State) : (countClear s).rm = s.rm := rfl
@[simp] theorem countClear_jr (s : State) : (countClear s).jr = s.jr := rfl
@[simp] theorem countClear_te (s : State) : (countClear s).te = s.te := rfl
@[simp] theorem countClear_rw (s : State) : (countClear s).rw = s.rw := rfl
@[simp] theorem countClear_pu (s : State) : (countClear s).pu = s.pu := rfl
@[simp] theorem countClear_rc (s : State) : (countClear s).rc = s.rc := rfl
@[simp] theorem countClear_ma (s : State) : (countClear s).ma = s.ma := rfl
@[simp] theorem countClear_pending (s : State) : (countClear s).pending = s.pending := rfl

/-! ### raiseAges -/

@[simp] theorem raiseAges_fp (b : Word32) (s : State) : (raiseAges b s).fp = s.fp := rfl
@[simp] theorem raiseAges_pos (b : Word32) (s : State) : (raiseAges b s).pos = s.pos := rfl
@[simp] theorem raiseAges_fe (b : Word32) (s : State) : (raiseAges b s).fe = s.fe := rfl
@[simp] theorem raiseAges_tq (b : Word32) (s : State) : (raiseAges b s).tq = { s.tq with queue := ageRecords s.tq.queue, ticked := some b } := rfl
@[simp] theorem raiseAges_rm (b : Word32) (s : State) : (raiseAges b s).rm = s.rm := rfl
@[simp] theorem raiseAges_jr (b : Word32) (s : State) : (raiseAges b s).jr = s.jr := rfl
@[simp] theorem raiseAges_te (b : Word32) (s : State) : (raiseAges b s).te = s.te := rfl
@[simp] theorem raiseAges_rw (b : Word32) (s : State) : (raiseAges b s).rw = s.rw := rfl
@[simp] theorem raiseAges_pu (b : Word32) (s : State) : (raiseAges b s).pu = s.pu := rfl
@[simp] theorem raiseAges_rc (b : Word32) (s : State) : (raiseAges b s).rc = s.rc := rfl
@[simp] theorem raiseAges_ma (b : Word32) (s : State) : (raiseAges b s).ma = s.ma := rfl
@[simp] theorem raiseAges_pending (b : Word32) (s : State) : (raiseAges b s).pending = s.pending := rfl

/-! ### State.setValve -/

@[simp] theorem State.setValve_fp (s : State) (v : Fin Config.valves) (r : ValveRecord) : (s.setValve v r).fp = s.fp := rfl
@[simp] theorem State.setValve_pos (s : State) (v : Fin Config.valves) (r : ValveRecord) : (s.setValve v r).pos = s.pos := rfl
@[simp] theorem State.setValve_fe (s : State) (v : Fin Config.valves) (r : ValveRecord) : (s.setValve v r).fe = s.fe := rfl
@[simp] theorem State.setValve_tq (s : State) (v : Fin Config.valves) (r : ValveRecord) : (s.setValve v r).tq = s.tq := rfl
@[simp] theorem State.setValve_rm (s : State) (v : Fin Config.valves) (r : ValveRecord) : (s.setValve v r).rm = s.rm := rfl
@[simp] theorem State.setValve_jr (s : State) (v : Fin Config.valves) (r : ValveRecord) : (s.setValve v r).jr = s.jr := rfl
@[simp] theorem State.setValve_te (s : State) (v : Fin Config.valves) (r : ValveRecord) : (s.setValve v r).te = { s.te with valves := s.te.valves.set v.val r v.isLt } := rfl
@[simp] theorem State.setValve_rw (s : State) (v : Fin Config.valves) (r : ValveRecord) : (s.setValve v r).rw = s.rw := rfl
@[simp] theorem State.setValve_pu (s : State) (v : Fin Config.valves) (r : ValveRecord) : (s.setValve v r).pu = s.pu := rfl
@[simp] theorem State.setValve_rc (s : State) (v : Fin Config.valves) (r : ValveRecord) : (s.setValve v r).rc = s.rc := rfl
@[simp] theorem State.setValve_ma (s : State) (v : Fin Config.valves) (r : ValveRecord) : (s.setValve v r).ma = s.ma := rfl
@[simp] theorem State.setValve_pending (s : State) (v : Fin Config.valves) (r : ValveRecord) : (s.setValve v r).pending = s.pending := rfl

/-! ### State.mapValves -/

@[simp] theorem State.mapValves_fp (s : State) (f : Fin Config.valves → ValveRecord → ValveRecord) : (s.mapValves f).fp = s.fp := by simp only [State.mapValves]
@[simp] theorem State.mapValves_pos (s : State) (f : Fin Config.valves → ValveRecord → ValveRecord) : (s.mapValves f).pos = s.pos := by simp only [State.mapValves]
@[simp] theorem State.mapValves_fe (s : State) (f : Fin Config.valves → ValveRecord → ValveRecord) : (s.mapValves f).fe = s.fe := by simp only [State.mapValves]
@[simp] theorem State.mapValves_tq (s : State) (f : Fin Config.valves → ValveRecord → ValveRecord) : (s.mapValves f).tq = s.tq := by simp only [State.mapValves]
@[simp] theorem State.mapValves_rm (s : State) (f : Fin Config.valves → ValveRecord → ValveRecord) : (s.mapValves f).rm = s.rm := by simp only [State.mapValves]
@[simp] theorem State.mapValves_jr (s : State) (f : Fin Config.valves → ValveRecord → ValveRecord) : (s.mapValves f).jr = s.jr := by simp only [State.mapValves]
@[simp] theorem State.mapValves_te (s : State) (f : Fin Config.valves → ValveRecord → ValveRecord) : (s.mapValves f).te = { s.te with valves := Vector.ofFn fun v => f v s.te.valves[v] } := rfl
@[simp] theorem State.mapValves_rw (s : State) (f : Fin Config.valves → ValveRecord → ValveRecord) : (s.mapValves f).rw = s.rw := by simp only [State.mapValves]
@[simp] theorem State.mapValves_pu (s : State) (f : Fin Config.valves → ValveRecord → ValveRecord) : (s.mapValves f).pu = s.pu := by simp only [State.mapValves]
@[simp] theorem State.mapValves_rc (s : State) (f : Fin Config.valves → ValveRecord → ValveRecord) : (s.mapValves f).rc = s.rc := by simp only [State.mapValves]
@[simp] theorem State.mapValves_ma (s : State) (f : Fin Config.valves → ValveRecord → ValveRecord) : (s.mapValves f).ma = s.ma := by simp only [State.mapValves]
@[simp] theorem State.mapValves_pending (s : State) (f : Fin Config.valves → ValveRecord → ValveRecord) : (s.mapValves f).pending = s.pending := by simp only [State.mapValves]

/-! ### Ports and queues -/

@[simp] theorem FramePath.port_setPort (fp : FramePath) (p : Port) (ps : PortState) : (fp.setPort p ps).port p = ps := by
  cases p <;> rfl

@[simp] theorem FramePath.port_setPort_other (fp : FramePath) (p : Port) (ps : PortState) :
    (fp.setPort p ps).port (otherPort p) = fp.port (otherPort p) := by
  cases p <;> rfl

@[simp] theorem FramePath.setPort_other_port (fp : FramePath) (p : Port) (ps : PortState) :
    (fp.setPort (otherPort p) ps).port p = fp.port p := by
  cases p <;> rfl

theorem FramePath.port_setPort_ne (fp : FramePath) {p q : Port} (ps : PortState) (h : q ≠ p) :
    (fp.setPort p ps).port q = fp.port q := by
  cases p <;> cases q <;> first | rfl | exact absurd rfl h

@[simp] theorem otherPort_otherPort (p : Port) : otherPort (otherPort p) = p := by
  cases p <;> rfl

theorem otherPort_ne (p : Port) : otherPort p ≠ p := by
  cases p <;> decide

@[simp] theorem FramePath.setPort_station (fp : FramePath) (p : Port) (ps : PortState) :
    (fp.setPort p ps).station = fp.station := by
  cases p <;> rfl

@[simp] theorem FramePath.setPort_parityFault (fp : FramePath) (p : Port) (ps : PortState) :
    (fp.setPort p ps).parityFault = fp.parityFault := by
  cases p <;> rfl

@[simp] theorem FramePath.setPort_channels (fp : FramePath) (p : Port) (ps : PortState) :
    (fp.setPort p ps).channels = fp.channels := by
  cases p <;> rfl

@[simp] theorem FramePath.setPort_malformed (fp : FramePath) (p : Port) (ps : PortState) :
    (fp.setPort p ps).malformed = fp.malformed := by
  cases p <;> rfl

@[simp] theorem FramePath.setPort_seqMgmt (fp : FramePath) (p : Port) (ps : PortState) :
    (fp.setPort p ps).seqMgmt = fp.seqMgmt := by
  cases p <;> rfl

@[simp] theorem FramePath.setPort_seqFlow (fp : FramePath) (p : Port) (ps : PortState) :
    (fp.setPort p ps).seqFlow = fp.seqFlow := by
  cases p <;> rfl

@[simp] theorem FramePath.setPort_holdStanding (fp : FramePath) (p : Port) (ps : PortState) :
    (fp.setPort p ps).holdStanding = fp.holdStanding := by
  cases p <;> rfl

@[simp] theorem FramePath.setPort_holdTimer (fp : FramePath) (p : Port) (ps : PortState) :
    (fp.setPort p ps).holdTimer = fp.holdTimer := by
  cases p <;> rfl

@[simp] theorem FramePath.setPort_held (fp : FramePath) (p : Port) (ps : PortState) :
    (fp.setPort p ps).held = fp.held := by
  cases p <;> rfl

@[simp] theorem FramePath.setPort_handed (fp : FramePath) (p : Port) (ps : PortState) :
    (fp.setPort p ps).handed = fp.handed := by
  cases p <;> rfl

@[simp] theorem PortState.queue_setQueue (ps : PortState) (cls : EgressClass) (q : List Frame) :
    (ps.setQueue cls q).queue cls = q := by
  cases cls <;> rfl

theorem PortState.queue_setQueue_ne (ps : PortState) {cls other : EgressClass} (q : List Frame) (h : other ≠ cls) :
    (ps.setQueue cls q).queue other = ps.queue other := by
  cases cls <;> cases other <;> first | rfl | exact absurd rfl h

@[simp] theorem PortState.setQueue_linkUp (ps : PortState) (cls : EgressClass) (q : List Frame) :
    (ps.setQueue cls q).linkUp = ps.linkUp := by
  cases cls <;> rfl

@[simp] theorem PortState.setQueue_transmitting (ps : PortState) (cls : EgressClass) (q : List Frame) :
    (ps.setQueue cls q).transmitting = ps.transmitting := by
  cases cls <;> rfl

@[simp] theorem PortState.setQueue_counters (ps : PortState) (cls : EgressClass) (q : List Frame) :
    (ps.setQueue cls q).counters = ps.counters := by
  cases cls <;> rfl

@[simp] theorem PortState.queue_countDropped (ps : PortState) (n : Nat) (cls : EgressClass) :
    (ps.countDropped n).queue cls = ps.queue cls := by
  cases cls <;> rfl

@[simp] theorem PortState.countDropped_linkUp (ps : PortState) (n : Nat) : (ps.countDropped n).linkUp = ps.linkUp := rfl

@[simp] theorem PortState.countDropped_transmitting (ps : PortState) (n : Nat) :
    (ps.countDropped n).transmitting = ps.transmitting := rfl

@[simp] theorem FramePath.takeNumber_port (fp : FramePath) (flow : Bool) (p : Port) :
    (fp.takeNumber flow).port p = fp.port p := by
  cases flow <;> cases p <;> rfl

/-! ### Valves -/

/-- The record of a valve after it was replaced. -/
theorem State.setValve_same (s : State) (v : Fin Config.valves) (r : ValveRecord) : (s.setValve v r).te.valves[v] = r := by
  simp

/-- The record of another valve after one was replaced. -/
theorem State.setValve_other (s : State) {v u : Fin Config.valves} (r : ValveRecord) (h : v ≠ u) :
    (s.setValve v r).te.valves[u] = s.te.valves[u] := by
  have : v.val ≠ u.val := fun e => h (Fin.ext e)
  simp [this]

/-- The record of a valve after every record was mapped. -/
theorem State.mapValves_get (s : State) (f : Fin Config.valves → ValveRecord → ValveRecord) (v : Fin Config.valves) :
    (s.mapValves f).te.valves[v] = f v s.te.valves[v] := by
  simp

end Sys2Proof.Machine
end

