-- ==== Sys2Proof/Laws/Frames.lean ====
section
/-!
SUPPORT. What each operation can touch: one lemma per shared operation that names the blocks of the state it may change;
every other block it leaves as it stands. `OnlyChanges.keep` reads one unchanged block off such a lemma.
-/

namespace Sys2Proof.Machine

/-- A block that is not listed is unchanged. -/
theorem OnlyChanges.keep {l : List Block} {s t : State} (h : OnlyChanges l s t) (b : Block) (hb : b ∉ l) :
    State.agrees b s t :=
  h b hb

theorem OnlyChanges.refl (l : List Block) (s : State) : OnlyChanges l s s := by
  intro b _; cases b <;> rfl

theorem State.agrees_trans {b : Block} {s t u : State} (h : State.agrees b s t) (k : State.agrees b t u) :
    State.agrees b s u := by
  cases b <;> exact Eq.trans k h

theorem OnlyChanges.trans {l : List Block} {s t u : State} (h : OnlyChanges l s t) (k : OnlyChanges l t u) :
    OnlyChanges l s u :=
  fun b hb => State.agrees_trans (h b hb) (k b hb)

theorem OnlyChanges.mono {l m : List Block} {s t : State} (h : OnlyChanges l s t) (hm : ∀ b ∈ l, b ∈ m) :
    OnlyChanges m s t :=
  fun b hb => h b fun hl => hb (hm b hl)

/-- A step within the listed blocks, by an operation that lists fewer. -/
theorem OnlyChanges.andThen {l m : List Block} {s t u : State} (h : OnlyChanges l s t) (k : OnlyChanges m t u)
    (hm : ∀ b ∈ m, b ∈ l) : OnlyChanges l s u :=
  h.trans (k.mono hm)

theorem OnlyChanges.put_fp {l : List Block} {s t : State} (h : OnlyChanges l s t) (x : FramePath)
    (hl : .fp ∈ l) : OnlyChanges l s { t with fp := x } := by
  intro b hb
  have := h b hb
  cases b <;> first | exact this | exact absurd hl hb

theorem OnlyChanges.put_pos {l : List Block} {s t : State} (h : OnlyChanges l s t) (x : Position)
    (hl : .pos ∈ l) : OnlyChanges l s { t with pos := x } := by
  intro b hb
  have := h b hb
  cases b <;> first | exact this | exact absurd hl hb

theorem OnlyChanges.put_fe {l : List Block} {s t : State} (h : OnlyChanges l s t) (x : FrontEnd)
    (hl : .fe ∈ l) : OnlyChanges l s { t with fe := x } := by
  intro b hb
  have := h b hb
  cases b <;> first | exact this | exact absurd hl hb

theorem OnlyChanges.put_tq {l : List Block} {s t : State} (h : OnlyChanges l s t) (x : Tracking)
    (hl : .tq ∈ l) : OnlyChanges l s { t with tq := x } := by
  intro b hb
  have := h b hb
  cases b <;> first | exact this | exact absurd hl hb

theorem OnlyChanges.put_rm {l : List Block} {s t : State} (h : OnlyChanges l s t) (x : Reader)
    (hl : .rm ∈ l) : OnlyChanges l s { t with rm := x } := by
  intro b hb
  have := h b hb
  cases b <;> first | exact this | exact absurd hl hb

theorem OnlyChanges.put_jr {l : List Block} {s t : State} (h : OnlyChanges l s t) (x : Judge)
    (hl : .jr ∈ l) : OnlyChanges l s { t with jr := x } := by
  intro b hb
  have := h b hb
  cases b <;> first | exact this | exact absurd hl hb

theorem OnlyChanges.put_te {l : List Block} {s t : State} (h : OnlyChanges l s t) (x : Trim)
    (hl : .te ∈ l) : OnlyChanges l s { t with te := x } := by
  intro b hb
  have := h b hb
  cases b <;> first | exact this | exact absurd hl hb

theorem OnlyChanges.put_rw {l : List Block} {s t : State} (h : OnlyChanges l s t) (x : Rewriter)
    (hl : .rw ∈ l) : OnlyChanges l s { t with rw := x } := by
  intro b hb
  have := h b hb
  cases b <;> first | exact this | exact absurd hl hb

theorem OnlyChanges.put_pu {l : List Block} {s t : State} (h : OnlyChanges l s t) (x : Products)
    (hl : .pu ∈ l) : OnlyChanges l s { t with pu := x } := by
  intro b hb
  have := h b hb
  cases b <;> first | exact this | exact absurd hl hb

theorem OnlyChanges.put_rc {l : List Block} {s t : State} (h : OnlyChanges l s t) (x : RingCapture)
    (hl : .rc ∈ l) : OnlyChanges l s { t with rc := x } := by
  intro b hb
  have := h b hb
  cases b <;> first | exact this | exact absurd hl hb

theorem OnlyChanges.put_ma {l : List Block} {s t : State} (h : OnlyChanges l s t) (x : Mgmt)
    (hl : .ma ∈ l) : OnlyChanges l s { t with ma := x } := by
  intro b hb
  have := h b hb
  cases b <;> first | exact this | exact absurd hl hb

theorem OnlyChanges.put_pending {l : List Block} {s t : State} (h : OnlyChanges l s t) (x : List Instr)
    (hl : .pending ∈ l) : OnlyChanges l s { t with pending := x } := by
  intro b hb
  have := h b hb
  cases b <;> first | exact this | exact absurd hl hb

end Sys2Proof.Machine
end

