-- ==== Sys2Proof/Laws/OpsFrames.lean ====
section
/-!
SUPPORT. What the shared operations of Ops, Trim, Ring and Judgement can touch, one lemma each.
-/

namespace Sys2Proof.Machine

/-! ### Ops -/

theorem withFp_only (s : State) (fp : FramePath) : OnlyChanges [.fp] s (s.withFp fp) :=
  (OnlyChanges.refl _ s).put_fp _ (by decide)

theorem buildStatus_only (s : State) : OnlyChanges [.fp] s (buildStatus s) := by
  unfold buildStatus
  split
  · exact OnlyChanges.refl _ s
  · exact withFp_only _ _

/-- A report changes the Frame Path of the new state at most. -/
theorem report_only (old new : State) : OnlyChanges [.fp] new (report old new) := by
  unfold report
  split
  · exact OnlyChanges.refl _ _
  · exact buildStatus_only _

theorem OnlyChanges.report {l : List Block} {s t : State} (old : State) (h : OnlyChanges l s t) (hl : .fp ∈ l) :
    OnlyChanges l s (report old t) :=
  h.andThen (report_only old t) (by simpa using hl)

theorem finish_only (c : Copy) (r : Reply) (s : State) : OnlyChanges [.fp, .ma] s (finish c r s) :=
  ((OnlyChanges.refl _ s).put_fp _ (by decide)).put_ma _ (by decide)

/-- Taking a handed copy touches the Frame Path, and what the block then does. -/
theorem onHanded_only {l : List Block} {role : Role} {f : Copy → State → State} (hl : .fp ∈ l)
    (hf : ∀ c t, OnlyChanges l t (f c t)) (s : State) : OnlyChanges l s (onHanded role f s) := by
  unfold onHanded State.takeHanded
  split
  · exact OnlyChanges.refl _ s
  · next h hh =>
    split at hh
    · cases hh
    · cases hh
      exact ((withFp_only s _).mono (by simpa using hl)).trans (hf _ _)

theorem mapValves_only (s : State) (f : Fin Config.valves → ValveRecord → ValveRecord) :
    OnlyChanges [.te] s (s.mapValves f) :=
  (OnlyChanges.refl _ s).put_te _ (by decide)

theorem restartCollection_only (s : State) : OnlyChanges [.te] s (restartCollection s) :=
  mapValves_only s _

theorem evalTrimHold_only (s : State) : OnlyChanges [.fp, .te] s (evalTrimHold s) := by
  unfold evalTrimHold
  have h := ((OnlyChanges.refl [.fp, .te] s).put_te { s.te with trimHold := s.holdsTrim } (by decide)).report s
    (by decide)
  dsimp only
  split
  · exact OnlyChanges.refl _ s
  · split
    · exact h.andThen (restartCollection_only _) (by decide)
    · exact h

theorem evalAttention_only (s : State) : OnlyChanges [.fp, .te] s (evalAttention s) :=
  ((OnlyChanges.refl [.fp, .te] s).put_te _ (by decide)).report s (by decide)

theorem clearRequests_only (p : Fin Config.valves → Bool) (s : State) : OnlyChanges [.rw] s (clearRequests p s) :=
  (OnlyChanges.refl _ s).put_rw _ (by decide)

theorem freezeRing_only (cause : FreezeCause) (s : State) : OnlyChanges [.fp, .te, .rc] s (freezeRing cause s) := by
  unfold freezeRing
  have r := OnlyChanges.refl [.fp, .te, .rc] s
  split
  · exact ((r.put_rc _ (by decide)).report s (by decide)).andThen (evalTrimHold_only _) (by decide)
  · split
    · exact (r.put_rc _ (by decide)).andThen (evalTrimHold_only _) (by decide)
    · exact r
  · exact r

theorem writeRing_only (e : RingEntry) (s : State) : OnlyChanges [.rc] s (writeRing e s) := by
  unfold writeRing
  split
  · exact (OnlyChanges.refl _ s).put_rc _ (by decide)
  · exact OnlyChanges.refl _ s

theorem noteOutcome_only (b : Bool) (s : State) : OnlyChanges [.fp, .te, .rc] s (noteOutcome b s) := by
  unfold noteOutcome
  have r := OnlyChanges.refl [.fp, .te, .rc] s
  dsimp only
  split
  · exact (r.put_rc _ (by decide)).andThen (freezeRing_only _ _) (by decide)
  · exact r.put_rc _ (by decide)

theorem handRemoved_only (fate : Fate) (l : Word32) (records : List CanRecord) (s : State) :
    OnlyChanges [.rc] s (handRemoved fate l records s) := by
  unfold handRemoved
  induction records generalizing s with
  | nil => exact OnlyChanges.refl _ s
  | cons r rest ih => exact (writeRing_only _ s).trans (ih _)

theorem handMissing_only (l : Word32) (records : List CanRecord) (s : State) :
    OnlyChanges [.tq, .rc] s (handMissing l records s) :=
  ((OnlyChanges.refl _ s).put_tq _ (by decide)).andThen (handRemoved_only _ _ _ _) (by decide)

/-- The blocks that a change of the Tracking State reaches (R99). -/
abbrev trackingBlocks : List Block := [.fp, .rm, .te, .rc]

theorem setTracking_only (st : TrackingState) (s : State) : OnlyChanges trackingBlocks s (setTracking st s) := by
  unfold setTracking
  have r := OnlyChanges.refl trackingBlocks s
  have h := ((r.put_rm { s.rm with tracking := st } (by decide)).report s (by decide)).andThen
    (evalTrimHold_only _) (by decide)
  dsimp only
  split
  · exact r
  · split
    · exact h.andThen (freezeRing_only _ _) (by decide)
    · exact h

theorem breakTracking_only (s : State) : OnlyChanges trackingBlocks s (breakTracking s) := by
  unfold breakTracking
  have r := (OnlyChanges.refl trackingBlocks s).put_rm { s.rm with cleanRun := 0 } (by decide)
  dsimp only
  split
  · exact r.trans (setTracking_only _ _)
  · exact r

theorem loseQueue_only (s : State) : OnlyChanges trackingBlocks s (loseQueue s) :=
  ((OnlyChanges.refl trackingBlocks s).put_rm _ (by decide)).trans (setTracking_only _ _)

theorem withRisen_only (s : State) (r : Option Run) : OnlyChanges [.rm] s (s.withRisen r) :=
  (OnlyChanges.refl _ s).put_rm _ (by decide)

theorem becomeSynced_only (s : State) : OnlyChanges trackingBlocks s (becomeSynced s) := by
  unfold becomeSynced
  have r := (withRisen_only s none).mono (m := trackingBlocks) (by decide)
  dsimp only
  repeat' split
  · exact r.trans (setTracking_only _ _)
  · exact r
  · exact OnlyChanges.refl _ s

theorem becomeLost_only (s : State) : OnlyChanges trackingBlocks s (becomeLost s) := by
  unfold becomeLost
  have r := (withRisen_only s none).mono (m := trackingBlocks) (by decide)
  dsimp only
  repeat' split
  · exact r.trans (setTracking_only _ _)
  · exact r
  · exact OnlyChanges.refl _ s

theorem raiseLineStop_only (s : State) : OnlyChanges [.fp, .jr] s (raiseLineStop s) :=
  ((OnlyChanges.refl _ s).put_jr _ (by decide)).report s (by decide)

theorem raiseForFault_only (s : State) : OnlyChanges [.fp, .jr] s (raiseForFault s) := by
  unfold raiseForFault
  split
  · exact raiseLineStop_only s
  · exact OnlyChanges.refl _ s

/-! ### Trim -/

theorem setValve_only (s : State) (v : Fin Config.valves) (r : ValveRecord) : OnlyChanges [.te] s (s.setValve v r) :=
  (OnlyChanges.refl _ s).put_te _ (by decide)

theorem enterFault_only (v : Fin Config.valves) (s : State) : OnlyChanges [.fp, .te] s (enterFault v s) := by
  unfold enterFault
  dsimp only
  split
  · exact ((setValve_only s v _).mono (by decide)).trans (evalAttention_only _)
  · exact OnlyChanges.refl _ s

theorem followDischarge_only (v : Fin Config.valves) (a b : Bool) (s : State) :
    OnlyChanges [.fp, .te] s (followDischarge v a b s) := by
  unfold followDischarge
  dsimp only
  split
  · split
    · exact (setValve_only s v _).mono (by decide)
    · split
      · exact ((setValve_only s v _).mono (by decide)).trans (enterFault_only v _)
      · exact OnlyChanges.refl _ s
  · exact OnlyChanges.refl _ s

theorem setPointChanged_only (v : Fin Config.valves) (s : State) : OnlyChanges [.te] s (setPointChanged v s) := by
  unfold setPointChanged
  dsimp only
  split
  · exact setValve_only s v _
  · exact OnlyChanges.refl _ s

theorem countJudged_only (v : Fin Config.valves) (j : Judged) (s : State) : OnlyChanges [.te] s (countJudged v j s) :=
  setValve_only s v _

theorem feedValve_only (v : Fin Config.valves) (p : Product) (net : Int) (can : Word32) (s : State) :
    OnlyChanges [.te, .rw] s (feedValve v p net can s) := by
  unfold feedValve
  have h (r : ValveRecord) := (setValve_only s v r).mono (m := [.te, .rw]) (by decide)
  dsimp only
  split
  · exact (h _).andThen (clearRequests_only _ _) (by decide)
  · exact h _

theorem weighValve_only (j : Judged) (s : State) : OnlyChanges [.te, .rw] s (weighValve j s) := by
  unfold weighValve
  split
  · exact OnlyChanges.refl _ s
  · next v _ =>
    have h := (countJudged_only v j s).mono (m := [.te, .rw]) (by decide)
    dsimp only
    split
    · split
      · exact h.trans (feedValve_only _ _ _ _ _)
      · exact h
    · exact h

/-- The blocks that a change of modes, entries or products reaches in the Trim Engine. -/
abbrev trimBlocks : List Block := [.fp, .te, .rw]

theorem applyValveCommit_only (old : Vector ValveEntry Config.valves) (first count : Nat) (s : State) :
    OnlyChanges trimBlocks s (applyValveCommit old first count s) :=
  (((mapValves_only s _).mono (by decide)).andThen (clearRequests_only _ _) (by decide)).andThen (evalAttention_only _)
    (by decide)

theorem applyValveCount_only (old : Nat) (s : State) : OnlyChanges trimBlocks s (applyValveCount old s) := by
  unfold applyValveCount
  dsimp only
  split
  · exact OnlyChanges.refl _ s
  · exact (((mapValves_only s _).mono (by decide)).andThen (clearRequests_only _ _) (by decide)).andThen
      (evalAttention_only _) (by decide)

theorem applySelection_only (s : State) : OnlyChanges trimBlocks s (applySelection s) := by
  unfold applySelection
  refine OnlyChanges.andThen ?_ (evalTrimHold_only _) (by decide)
  refine OnlyChanges.andThen ?_ (evalAttention_only _) (by decide)
  refine OnlyChanges.andThen ?_ (clearRequests_only _ _) (by decide)
  exact (mapValves_only s _).mono (by decide)

theorem setTrimMode_only (mode : TrimMode) (s : State) : OnlyChanges [.fp, .te] s (setTrimMode mode s) := by
  unfold setTrimMode
  have h := (OnlyChanges.refl [.te] s).put_te { s.te with mode := mode } (by decide)
  split
  · exact OnlyChanges.refl _ s
  · dsimp only
    refine OnlyChanges.trans (OnlyChanges.mono (l := [.te]) ?_ (by decide)) (evalTrimHold_only _)
    split
    · exact h.trans (mapValves_only _ _)
    · exact h.trans (restartCollection_only _)
    · exact h

theorem releaseFault_only (v : Fin Config.valves) (s : State) : OnlyChanges trimBlocks s (releaseFault v s) := by
  unfold releaseFault
  dsimp only
  split
  · exact (((setValve_only s v _).mono (by decide)).andThen (clearRequests_only _ _) (by decide)).andThen
      (evalAttention_only _) (by decide)
  · exact OnlyChanges.refl _ s

/-! ### Ring and Capture -/

theorem evalCaptureReady_only (s : State) : OnlyChanges [.fp, .rc] s (evalCaptureReady s) :=
  ((OnlyChanges.refl _ s).put_rc _ (by decide)).report s (by decide)

theorem putCapture_only (i : Fin 4) (j : Judged) (s : State) : OnlyChanges [.fp, .rc] s (putCapture i j s) :=
  ((OnlyChanges.refl _ s).put_rc _ (by decide)).trans (evalCaptureReady_only _)

theorem storeCapture_only (j : Judged) (s : State) : OnlyChanges [.fp, .rc] s (storeCapture j s).1 := by
  unfold storeCapture
  have r := OnlyChanges.refl [.fp, .rc] s
  dsimp only
  split
  · dsimp only
    exact putCapture_only _ j s
  · split
    · split
      · dsimp only
        refine OnlyChanges.trans ?_ (putCapture_only _ j _)
        exact r.put_rc _ (by decide)
      · exact r.put_rc _ (by decide)
    · exact r.put_rc _ (by decide)

theorem armValve_only (v : Fin Config.valves) (s : State) : OnlyChanges [.te] s (armValve v s) := by
  unfold armValve
  dsimp only
  split
  · exact setValve_only s v _
  · exact OnlyChanges.refl _ s

theorem captureArmed_only (v : Fin Config.valves) (j : Judged) (s : State) :
    OnlyChanges [.fp, .te, .rc] s (captureArmed v j s) := by
  unfold captureArmed
  have h := (storeCapture_only j s).mono (m := [.fp, .te, .rc]) (by decide)
  dsimp only
  split
  · split
    · exact h.andThen (setValve_only _ v _) (by decide)
    · exact h
  · exact OnlyChanges.refl _ s

theorem captureJudged_only (j : Judged) (s : State) : OnlyChanges [.fp, .te, .rc] s (captureJudged j s) := by
  unfold captureJudged
  split
  · exact OnlyChanges.refl _ s
  · next v _ =>
    dsimp only
    split
    · exact OnlyChanges.refl _ s
    · exact ((captureArmed_only v j s).andThen (setValve_only _ v _) (by decide)).andThen (armValve_only v _) (by decide)

theorem handJudged_only (e : RingEntry) (cls : CanClass) (s : State) :
    OnlyChanges [.fp, .te, .rc] s (handJudged e cls s) :=
  ((writeRing_only e s).mono (by decide)).trans (noteOutcome_only _ _)

theorem startUpload_only (s : State) : OnlyChanges [.fp, .rc] s (startUpload s) := by
  unfold startUpload
  have r := OnlyChanges.refl [.fp, .rc] s
  split
  · split
    · exact r
    · split
      · exact (r.put_rc _ (by decide)).trans (evalCaptureReady_only _)
      · exact r
      · exact r
  · exact r

theorem completeUpload_only (i : Fin 4) (s : State) : OnlyChanges [.fp, .rc] s (completeUpload i s) := by
  unfold completeUpload
  refine OnlyChanges.trans ?_ (startUpload_only _)
  refine OnlyChanges.trans ?_ (evalCaptureReady_only _)
  exact (OnlyChanges.refl _ s).put_rc _ (by decide)

theorem produceSegment_only (s : State) : OnlyChanges [.fp, .rc] s (produceSegment s) := by
  unfold produceSegment
  have r := OnlyChanges.refl [.fp, .rc] s
  dsimp only
  split
  · exact r
  · split
    · split
      · exact r
      · split
        · split
          · exact (r.put_fp _ (by decide)).put_rc _ (by decide)
          · exact (r.put_fp _ (by decide)).trans (completeUpload_only _ _)
        · exact r
    · exact r
    · exact r

theorem abandonUpload_only (s : State) : OnlyChanges [.fp, .rc] s (abandonUpload s) := by
  unfold abandonUpload
  split
  · exact OnlyChanges.refl _ s
  · exact ((OnlyChanges.refl _ s).put_rc _ (by decide)).trans (evalCaptureReady_only _)

theorem thawRing_only (s : State) : OnlyChanges [.fp, .te, .rc] s (thawRing s) := by
  unfold thawRing
  split
  · exact OnlyChanges.refl _ s
  · exact (((OnlyChanges.refl _ s).put_rc _ (by decide)).report s (by decide)).andThen (evalTrimHold_only _) (by decide)

theorem discardCaptures_only (s : State) : OnlyChanges [.fp, .rc] s (discardCaptures s) :=
  ((OnlyChanges.refl _ s).put_rc _ (by decide)).trans (evalCaptureReady_only _)

theorem resetCaptureState_only (s : State) : OnlyChanges [.fp, .te, .rc] s (resetCaptureState s) :=
  ((((OnlyChanges.refl _ s).put_rc _ (by decide)).report s (by decide)).andThen (evalTrimHold_only _)
    (by decide)).put_rc _ (by decide) |>.andThen (evalCaptureReady_only _) (by decide)

/-! ### Judgement and rejection -/

theorem countClass_only (cls : CanClass) (s : State) : OnlyChanges [.jr] s (countClass cls s) :=
  (OnlyChanges.refl _ s).put_jr _ (by decide)

theorem withSchedule_only (s : State) (l : List RejectEntry) : OnlyChanges [.jr] s (s.withSchedule l) :=
  (OnlyChanges.refl _ s).put_jr _ (by decide)

theorem withRejectCounters_only (s : State) (c : RejectCounters) : OnlyChanges [.jr] s (s.withRejectCounters c) :=
  (OnlyChanges.refl _ s).put_jr _ (by decide)

theorem countFired_only (s : State) : OnlyChanges [.jr] s (countFired s) :=
  withRejectCounters_only s _

theorem loseReject_only (s : State) : OnlyChanges [.fp, .jr] s (loseReject s) :=
  ((withRejectCounters_only s _).mono (by decide)).trans (raiseLineStop_only _)

theorem offerReject_only (number : Option Word32) (cls : CanClass) (s : State) :
    OnlyChanges [.fp] s (offerReject number cls s).1 := by
  unfold offerReject
  split
  · exact OnlyChanges.refl _ s
  · exact withFp_only s _

theorem fireFirst_only (p : RejectEntry → Bool) (s : State) : OnlyChanges [.fp, .jr] s (fireFirst p s) := by
  unfold fireFirst
  split
  · exact OnlyChanges.refl _ s
  · next e _ =>
    have h := (offerReject_only e.number e.cls s).mono (m := [.fp, .jr]) (by decide)
    dsimp only
    split
    · exact (h.andThen (withSchedule_only _ _) (by decide)).andThen (countFired_only _) (by decide)
    · exact (h.andThen (withSchedule_only _ _) (by decide)).trans (loseReject_only _)

/-- The blocks that an advance event or a judgement outside the Trim Engine's statistics reaches. -/
abbrev advanceBlocks : List Block := [.fp, .jr, .te, .rc]

theorem timeoutFirst_only (p : RejectEntry → Bool) (s : State) : OnlyChanges advanceBlocks s (timeoutFirst p s) := by
  unfold timeoutFirst
  split
  · exact OnlyChanges.refl _ s
  · have h (t : State) (ht : OnlyChanges advanceBlocks s t) := (ht.andThen (withRejectCounters_only t
      { t.jr.counters with unconfirmed := tally t.jr.counters.unconfirmed 1 }) (by decide)).andThen
        (raiseLineStop_only _) (by decide)
    have k := h _ ((withSchedule_only s (removeFirst p s.jr.schedule)).mono (by decide))
    dsimp only
    split
    · exact k.andThen (freezeRing_only _ _) (by decide)
    · exact k

theorem raiseAfterScheduling_only (s : State) : OnlyChanges [.fp, .jr] s (raiseAfterScheduling s) := by
  unfold raiseAfterScheduling
  split
  · exact raiseLineStop_only s
  · exact OnlyChanges.refl _ s

theorem scheduleLate_only (number : Option Word32) (cls : CanClass) (s : State) :
    OnlyChanges [.fp, .jr] s (scheduleLate number cls s).state := by
  unfold scheduleLate
  have h := ((withRejectCounters_only s { s.jr.counters with late := tally s.jr.counters.late 1 }).mono
    (m := [.fp, .jr]) (by decide)).andThen (offerReject_only number cls _) (by decide)
  dsimp only
  split
  · dsimp only
    refine OnlyChanges.trans ?_ (raiseAfterScheduling_only _)
    exact (h.andThen (withSchedule_only _ _) (by decide)).andThen (countFired_only _) (by decide)
  · dsimp only
    refine OnlyChanges.trans ?_ (raiseAfterScheduling_only _)
    exact h.trans (loseReject_only _)

theorem scheduleReject_only (number : Option Word32) (cls : CanClass) (e : Word32) (s : State) :
    OnlyChanges [.fp, .jr] s (scheduleReject number cls e s).state := by
  unfold scheduleReject
  dsimp only
  split
  · dsimp only
    exact loseReject_only s
  · split
    · exact scheduleLate_only _ _ s
    · dsimp only
      refine OnlyChanges.trans ?_ (raiseAfterScheduling_only _)
      exact (withSchedule_only s _).mono (by decide)

theorem rejectIfAsked_only (number : Option Word32) (cls : CanClass) (e : Word32) (s : State) :
    OnlyChanges [.fp, .jr] s (rejectIfAsked number cls e s).state := by
  unfold rejectIfAsked
  split
  · exact scheduleReject_only _ _ _ s
  · exact OnlyChanges.refl _ s

theorem judgeRecord_only (r : CanRecord) (w : WindowResult) (s : State) :
    OnlyChanges [.fp, .jr] s (judgeRecord r w s).1 :=
  ((countClass_only _ s).mono (by decide)).trans (rejectIfAsked_only _ _ _ _)

theorem handOn_only (j : Judged) (s : State) : OnlyChanges [.fp, .te, .rw, .rc] s (handOn j s) :=
  ((weighValve_only j s).mono (by decide)).andThen (captureJudged_only j _) (by decide)

theorem judgeOrphan_only (w : WindowResult) (s : State) : OnlyChanges advanceBlocks s (judgeOrphan w s) :=
  (((countClass_only .orphan s).mono (by decide)).andThen (rejectIfAsked_only _ _ _ _) (by decide)).andThen
    (handJudged_only _ _ _) (by decide)

theorem advanceOnce_only (l : Word32) (d key : Nat) (s : State) : OnlyChanges advanceBlocks s (advanceOnce l d key s) := by
  unfold advanceOnce
  split
  · exact (fireFirst_only _ s).mono (by decide)
  · exact timeoutFirst_only _ s

theorem advanceRun_only (l : Word32) (d fuel : Nat) (s : State) : OnlyChanges advanceBlocks s (advanceRun l d fuel s) := by
  induction fuel generalizing s with
  | zero => exact OnlyChanges.refl _ s
  | succ n ih =>
    unfold advanceRun
    split
    · exact OnlyChanges.refl _ s
    · exact (advanceOnce_only l d _ s).trans (ih _)

theorem advance_only (l : Word32) (d : Nat) (s : State) : OnlyChanges advanceBlocks s (advance l d s) :=
  advanceRun_only l d _ s

theorem confirmLost_only (m : Nat) (s : State) : OnlyChanges [.jr] s (confirmLost m s) := by
  induction m generalizing s with
  | zero => exact OnlyChanges.refl _ s
  | succ n ih =>
    unfold confirmLost
    dsimp only
    split
    · exact ((withSchedule_only s _).trans (withRejectCounters_only _ _)).trans (ih _)
    · exact OnlyChanges.refl _ s

theorem confirmGap_only (seq : Byte) (s : State) : OnlyChanges [.jr] s (confirmGap seq s) := by
  unfold confirmGap
  dsimp only
  refine OnlyChanges.put_jr ?_ _ (by decide)
  split
  · exact OnlyChanges.refl _ s
  · split
    · exact OnlyChanges.refl _ s
    · split
      · exact confirmLost_only _ s
      · exact withRejectCounters_only s _

theorem confirmOwn_only (s : State) : OnlyChanges [.fp, .jr] s (confirmOwn s) := by
  unfold confirmOwn
  dsimp only
  split
  · exact ((withSchedule_only s _).mono (by decide)).andThen (withRejectCounters_only _ _) (by decide)
  · exact (((withRejectCounters_only s _).mono (by decide)).put_jr _ (by decide)).report _ (by decide)

end Sys2Proof.Machine
end

