-- ==== Sys2Proof/Laws/StepFrames.lean ====
section
/-!
SUPPORT. What the operations of the Tracking Queue, the Reader Matcher, the Position Unit, the Front End, the Rewriter, the
Frame Path and the Management Agent can touch, one lemma each; and that no command touches the queue of commands.
-/

namespace Sys2Proof.Machine

/-! ### Tracking Queue -/

theorem withQueue_only (s : State) (q : List CanRecord) : OnlyChanges [.tq] s (s.withQueue q) :=
  (OnlyChanges.refl _ s).put_tq _ (by decide)

theorem withTrackingCounters_only (s : State) (c : TrackingCounters) : OnlyChanges [.tq] s (s.withTrackingCounters c) :=
  (OnlyChanges.refl _ s).put_tq _ (by decide)

theorem flushRecords_only (s : State) : OnlyChanges [.tq, .rc] s (flushRecords s) := by
  unfold flushRecords
  dsimp only
  refine OnlyChanges.andThen ?_ (handRemoved_only _ _ _ _) (by decide)
  exact ((withQueue_only s _).trans (withTrackingCounters_only _ _)).mono (by decide)

/-- The blocks that a discharge, a seam or a read reaches. -/
abbrev queueBlocks : List Block := [.fp, .tq, .rm, .te, .rc]

theorem overflowFlush_only (s : State) : OnlyChanges queueBlocks s (overflowFlush s) := by
  unfold overflowFlush
  dsimp only
  refine OnlyChanges.andThen ?_ (loseQueue_only _) (by decide)
  exact ((flushRecords_only s).mono (by decide)).andThen (withTrackingCounters_only _ _) (by decide)

theorem makeRoom_only (s : State) : OnlyChanges queueBlocks s (makeRoom s) := by
  unfold makeRoom
  split
  · exact OnlyChanges.refl _ s
  · exact overflowFlush_only s

theorem createRecord_only (k : Fin 16) (seed : RecordSeed) (s : State) :
    OnlyChanges queueBlocks s (createRecord k seed s) :=
  (makeRoom_only s).put_tq _ (by decide)

theorem createPlaceholders_only (k : Fin 16) (m : Nat) (s : State) :
    OnlyChanges queueBlocks s (createPlaceholders k m s) := by
  induction m generalizing s with
  | zero => exact OnlyChanges.refl _ s
  | succ n ih =>
    unfold createPlaceholders
    dsimp only
    refine OnlyChanges.trans ?_ (ih _)
    exact (createRecord_only k _ s).andThen (withTrackingCounters_only _ _) (by decide)

theorem admitDischarge_only (k : Fin 16) (v : Nat) (sp : Word16) (s : State) :
    OnlyChanges queueBlocks s (admitDischarge k v sp s) := by
  unfold admitDischarge
  split
  · exact createRecord_only _ _ s
  · dsimp only
    refine OnlyChanges.andThen ?_ (followDischarge_only _ _ _ _) (by decide)
    exact createRecord_only _ _ s

theorem dischargeGap_only (seq : Byte) (s : State) : OnlyChanges queueBlocks s (dischargeGap seq s) := by
  unfold dischargeGap
  split
  · exact OnlyChanges.refl _ s
  · dsimp only
    split
    · exact OnlyChanges.refl _ s
    · split
      · split
        · exact OnlyChanges.refl _ s
        · exact createPlaceholders_only _ _ s
      · exact (breakTracking_only s).mono (by decide)

theorem takeDischarge_only (c : Copy) (s : State) : OnlyChanges queueBlocks s (takeDischarge c s) := by
  unfold takeDischarge
  have h := (dischargeGap_only c.sequence s).put_tq
    { (dischargeGap c.sequence s).tq with dischargeExp := some (c.sequence + 1) } (by decide)
  dsimp only
  split
  · exact h.andThen (withTrackingCounters_only _ _) (by decide)
  · exact h.trans (admitDischarge_only _ _ _ _)

theorem orphanSeams_only (n : Nat) (s : State) : OnlyChanges queueBlocks s (orphanSeams n s) := by
  unfold orphanSeams
  refine OnlyChanges.andThen ?_ (breakTracking_only _) (by decide)
  exact (withTrackingCounters_only s _).mono (by decide)

theorem seamGap_only (seq : Byte) (s : State) : OnlyChanges queueBlocks s (seamGap seq s) := by
  unfold seamGap
  split
  · exact OnlyChanges.refl _ s
  · dsimp only
    split
    · exact OnlyChanges.refl _ s
    · split
      · split
        · exact (withQueue_only s _).mono (by decide)
        · exact ((withQueue_only s _).mono (by decide)).trans (orphanSeams_only _ _)
      · exact (breakTracking_only s).mono (by decide)

theorem issueTag_only (n : Word32) (s : State) : OnlyChanges [.fp, .tq] s (issueTag n s).1 := by
  unfold issueTag
  have h := (OnlyChanges.refl [.fp, .tq] s).put_tq { s.tq with tagCounter := nextTag s.tq.tagCounter } (by decide)
  dsimp only
  split
  · exact h
  · exact h.andThen (withFp_only _ _) (by decide)

theorem seamOwn_only (head : Byte) (s : State) : OnlyChanges queueBlocks s (seamOwn head s) := by
  unfold seamOwn
  split
  · exact orphanSeams_only _ s
  · dsimp only
    refine OnlyChanges.andThen ?_ (withQueue_only _ _) (by decide)
    exact (issueTag_only _ s).mono (by decide)

theorem takeSeam_only (c : Copy) (s : State) : OnlyChanges queueBlocks s (takeSeam c s) := by
  unfold takeSeam
  dsimp only
  refine OnlyChanges.trans ?_ (seamOwn_only _ _)
  exact (seamGap_only c.sequence s).put_tq _ (by decide)

theorem removeAged_only (s : State) : OnlyChanges [.tq, .rc] s (removeAged s) := by
  unfold removeAged
  split
  · exact OnlyChanges.refl _ s
  · refine OnlyChanges.trans ?_ (handMissing_only _ _ _)
    exact (OnlyChanges.refl _ s).put_tq _ (by decide)

theorem pitchTick_only (b : Word32) (s : State) : OnlyChanges [.tq, .rc] s (pitchTick b s) :=
  ((OnlyChanges.refl [.tq, .rc] s).put_tq _ (by decide)).trans (removeAged_only _)

/-- The blocks that a Window Result reaches. -/
abbrev weighBlocks : List Block := [.fp, .tq, .jr, .te, .rw, .rc]

theorem assignWeigh_only (r : CanRecord) (w : WindowResult) (s : State) :
    OnlyChanges weighBlocks s (assignWeigh r w s) := by
  unfold assignWeigh
  dsimp only
  refine OnlyChanges.andThen ?_ (handJudged_only _ _ _) (by decide)
  refine OnlyChanges.andThen ?_ (withQueue_only _ _) (by decide)
  refine OnlyChanges.andThen ?_ (handOn_only _ _) (by decide)
  refine OnlyChanges.andThen ?_ (judgeRecord_only _ _ _) (by decide)
  exact (withQueue_only s _).mono (by decide)

theorem orphanWeigh_only (w : WindowResult) (s : State) : OnlyChanges weighBlocks s (orphanWeigh w s) := by
  unfold orphanWeigh
  refine OnlyChanges.andThen ?_ (judgeOrphan_only _ _) (by decide)
  exact (withTrackingCounters_only s _).mono (by decide)

theorem takeResult_only (w : WindowResult) (s : State) : OnlyChanges weighBlocks s (takeResult w s) := by
  unfold takeResult
  split
  · exact orphanWeigh_only w s
  · exact assignWeigh_only _ w s

/-! ### Reader Matcher -/

theorem withReaderCounters_only (s : State) (c : ReaderCounters) : OnlyChanges [.rm] s (s.withReaderCounters c) :=
  (OnlyChanges.refl _ s).put_rm _ (by decide)

theorem withRuns_only (s : State) (m n : Nat) : OnlyChanges [.rm] s (s.withRuns m n) :=
  (OnlyChanges.refl _ s).put_rm _ (by decide)

theorem markFirst_only (lot : List Byte) (s : State) : OnlyChanges [.tq, .rm] s (markFirst lot s) := by
  unfold markFirst
  dsimp only
  split
  · exact (withQueue_only s _).mono (by decide)
  · exact ((withQueue_only s _).mono (by decide)).andThen (withReaderCounters_only _ _) (by decide)

theorem orphanRead_only (rd : CodeRead) (s : State) : OnlyChanges [.rm] s (orphanRead rd s) := by
  unfold orphanRead
  dsimp only
  split
  · exact (withReaderCounters_only s _).trans (withRuns_only _ _ _)
  · exact withReaderCounters_only s _
  · exact withReaderCounters_only s _

theorem unreadMark_only (s : State) : OnlyChanges queueBlocks s (unreadMark s) := by
  unfold unreadMark
  dsimp only
  refine OnlyChanges.andThen ?_ (becomeLost_only _) (by decide)
  refine OnlyChanges.andThen ?_ (withRisen_only _ _) (by decide)
  refine OnlyChanges.andThen ?_ (withRuns_only _ _ _) (by decide)
  refine OnlyChanges.andThen ?_ (withReaderCounters_only _ _) (by decide)
  exact (withQueue_only s _).mono (by decide)

theorem exactMatch_only (lot : List Byte) (s : State) : OnlyChanges queueBlocks s (exactMatch lot s) := by
  unfold exactMatch
  dsimp only
  refine OnlyChanges.andThen ?_ (becomeSynced_only _) (by decide)
  refine OnlyChanges.andThen ?_ (withRisen_only _ _) (by decide)
  refine OnlyChanges.andThen ?_ (withRuns_only _ _ _) (by decide)
  refine OnlyChanges.andThen ?_ (withReaderCounters_only _ _) (by decide)
  exact (markFirst_only lot s).mono (by decide)

theorem lookaheadMatch_only (k : Nat) (lot : List Byte) (s : State) :
    OnlyChanges queueBlocks s (lookaheadMatch k lot s) := by
  unfold lookaheadMatch
  dsimp only
  refine OnlyChanges.andThen ?_ (withRuns_only _ _ _) (by decide)
  refine OnlyChanges.andThen ?_ (withReaderCounters_only _ _) (by decide)
  refine OnlyChanges.andThen ?_ (markFirst_only _ _) (by decide)
  refine OnlyChanges.andThen ?_ (handMissing_only _ _ _) (by decide)
  exact (withQueue_only s _).mono (by decide)

theorem matchRead_only (rd : CodeRead) (s : State) : OnlyChanges queueBlocks s (matchRead rd s) := by
  unfold matchRead
  split
  · exact (orphanRead_only rd s).mono (by decide)
  · split
    · exact unreadMark_only s
    · exact unreadMark_only s
    · split
      · exact exactMatch_only _ s
      · split
        · exact lookaheadMatch_only _ _ s
        · split
          · exact (withReaderCounters_only s _).mono (by decide)
          · exact unreadMark_only s

theorem matchLost_only (m : Nat) (s : State) : OnlyChanges queueBlocks s (matchLost m s) := by
  induction m generalizing s with
  | zero => exact OnlyChanges.refl _ s
  | succ n ih =>
    unfold matchLost
    exact (matchRead_only _ s).trans (ih _)

theorem readGap_only (seq : Byte) (s : State) : OnlyChanges queueBlocks s (readGap seq s) := by
  unfold readGap
  split
  · exact OnlyChanges.refl _ s
  · dsimp only
    split
    · exact OnlyChanges.refl _ s
    · split
      · exact (matchLost_only _ s).andThen (withReaderCounters_only _ _) (by decide)
      · refine OnlyChanges.andThen ?_ (breakTracking_only _) (by decide)
        exact (withReaderCounters_only s _).mono (by decide)

theorem takeRead_only (c : Copy) (s : State) : OnlyChanges queueBlocks s (takeRead c s) := by
  unfold takeRead
  dsimp only
  refine OnlyChanges.trans ?_ (matchRead_only _ _)
  exact (readGap_only c.sequence s).put_rm _ (by decide)

/-! ### Position Unit -/

theorem withPos_only (s : State) (p : Position) : OnlyChanges [.pos] s (s.withPos p) :=
  (OnlyChanges.refl _ s).put_pos _ (by decide)

/-- The blocks that an encoder frame reaches. -/
abbrev encoderBlocks : List Block := [.fp, .pos, .tq, .jr, .te, .rc]

theorem ticks_only (l : List Word32) (s : State) :
    OnlyChanges [.tq, .rc] s (l.foldl (fun u b => pitchTick b u) s) := by
  induction l generalizing s with
  | nil => exact OnlyChanges.refl _ s
  | cons b rest ih => exact (pitchTick_only b s).trans (ih _)

theorem forwardStep_only (d : Nat) (s : State) : OnlyChanges encoderBlocks s (forwardStep d s) := by
  unfold forwardStep
  dsimp only
  refine OnlyChanges.andThen ?_ (advance_only _ _ _) (by decide)
  refine OnlyChanges.andThen ?_ (ticks_only _ _) (by decide)
  exact (withPos_only s _).mono (by decide)

theorem applyGrid_only (s : State) : OnlyChanges [.pos] s (applyGrid s) := by
  unfold applyGrid
  split
  · exact OnlyChanges.refl _ s
  · exact withPos_only s _

theorem clearEncoderFault_only (s : State) : OnlyChanges [.fp, .pos] s (clearEncoderFault s) :=
  ((withPos_only s _).mono (by decide)).report s (by decide)

theorem handleCount_only (c : Word16) (s : State) : OnlyChanges encoderBlocks s (handleCount c s) := by
  unfold handleCount
  have h := (withPos_only s { s.pos with lastCount := some c }).mono (m := encoderBlocks) (by decide)
  dsimp only
  split
  · exact h
  · split
    · exact h
    · split
      · exact h.trans (forwardStep_only _ _)
      · exact h.andThen (withPos_only _ _) (by decide)

theorem takeCount_only (c : Word16) (s : State) : OnlyChanges encoderBlocks s (takeCount c s) := by
  unfold takeCount
  refine OnlyChanges.trans ?_ (handleCount_only _ _)
  refine OnlyChanges.andThen ?_ (applyGrid_only _) (by decide)
  refine OnlyChanges.andThen ?_ (clearEncoderFault_only _) (by decide)
  exact (withPos_only s _).mono (by decide)

theorem encoderSilence_only (s : State) : OnlyChanges [.fp, .pos, .jr] s (encoderSilence s) := by
  unfold encoderSilence
  refine OnlyChanges.andThen ?_ (raiseForFault_only _) (by decide)
  exact ((withPos_only s _).mono (by decide)).report s (by decide)

theorem commitGrid_only (old : LineSetup) (s : State) : OnlyChanges [.pos] s (commitGrid old s) := by
  unfold commitGrid
  dsimp only
  split
  · exact OnlyChanges.refl _ s
  · exact withPos_only s _

/-! ### Weighing Front End -/

theorem withFe_only (s : State) (fe : FrontEnd) : OnlyChanges [.fe] s (s.withFe fe) :=
  (OnlyChanges.refl _ s).put_fe _ (by decide)

/-- The blocks that the Front End's own events reach. -/
abbrev frontBlocks : List Block := [.fp, .fe]

theorem closeWindow_only (w : OpenWindow) (a b : Bool) (s : State) : OnlyChanges [.fe] s (closeWindow w a b s) :=
  withFe_only s _

theorem openWindow_only (i : Word16) (x : Int) (s : State) : OnlyChanges [.fe] s (openWindow i x s) :=
  withFe_only s _

theorem cutWindow_only (s : State) : OnlyChanges [.fe] s (cutWindow s) := by
  unfold cutWindow
  split <;> first | exact closeWindow_only _ _ _ s | exact OnlyChanges.refl _ s

theorem completeSettle_only (s : State) : OnlyChanges [.fe] s (completeSettle s) := by
  unfold completeSettle
  split
  · split
    · exact withFe_only s _
    · exact OnlyChanges.refl _ s
  · exact OnlyChanges.refl _ s

theorem completeWindow_only (s : State) : OnlyChanges [.fe] s (completeWindow s) := by
  unfold completeWindow
  split
  · split
    · dsimp only
      refine OnlyChanges.trans ?_ (withFe_only _ _)
      exact closeWindow_only _ _ _ s
    · exact OnlyChanges.refl _ s
  · exact OnlyChanges.refl _ s

theorem startZeroReading_only (s : State) : OnlyChanges [.fe] s (startZeroReading s) := by
  unfold startZeroReading
  split
  · dsimp only
    split
    · exact (withFe_only s _).trans (withFe_only _ _)
    · exact withFe_only s _
  · exact OnlyChanges.refl _ s

theorem setZeroFault_only (b : Bool) (s : State) : OnlyChanges frontBlocks s (setZeroFault b s) :=
  ((withFe_only s _).mono (by decide)).report s (by decide)

theorem setZeroDone_only (b : Bool) (s : State) : OnlyChanges frontBlocks s (setZeroDone b s) :=
  ((withFe_only s _).mono (by decide)).report s (by decide)

theorem setWeigherSilent_only (b : Bool) (s : State) : OnlyChanges frontBlocks s (setWeigherSilent b s) :=
  ((withFe_only s _).mono (by decide)).report s (by decide)

theorem rejectZero_only (s : State) : OnlyChanges frontBlocks s (rejectZero s) := by
  unfold rejectZero
  refine OnlyChanges.trans ?_ (setZeroFault_only _ _)
  exact (withFe_only s _).mono (by decide)

theorem trackZero_only (x : Int) (s : State) : OnlyChanges frontBlocks s (trackZero x s) := by
  unfold trackZero
  dsimp only
  split
  · refine OnlyChanges.trans ?_ (setZeroFault_only _ _)
    exact (withFe_only s _).mono (by decide)
  · exact rejectZero_only s

theorem manualZero_only (x : Int) (s : State) : OnlyChanges frontBlocks s (manualZero x s) := by
  unfold manualZero
  dsimp only
  split
  · refine OnlyChanges.trans ?_ (setZeroDone_only _ _)
    refine OnlyChanges.trans ?_ (setZeroFault_only _ _)
    exact ((withFe_only s _).trans (withFe_only _ _)).mono (by decide)
  · refine OnlyChanges.trans ?_ (rejectZero_only _)
    exact (withFe_only s _).mono (by decide)

theorem completeZeroReading_only (s : State) : OnlyChanges frontBlocks s (completeZeroReading s) := by
  unfold completeZeroReading
  split
  · dsimp only
    refine OnlyChanges.andThen ?_ (withFe_only _ _) (by decide)
    split
    · exact manualZero_only _ s
    · exact trackZero_only _ s
  · exact OnlyChanges.refl _ s

theorem plainSample_only (x : Int) (s : State) : OnlyChanges frontBlocks s (plainSample x s) := by
  have h (fe : FrontEnd) := (withFe_only s fe).mono (m := frontBlocks) (by decide)
  unfold plainSample
  split
  · exact (h _).andThen (startZeroReading_only _) (by decide)
  · exact (h _).andThen (startZeroReading_only _) (by decide)
  · exact (h _).trans (completeZeroReading_only _)
  · split
    · exact OnlyChanges.refl _ s
    · exact (h _).andThen (completeSettle_only _) (by decide)
  · split
    · exact OnlyChanges.refl _ s
    · exact (h _).andThen (completeWindow_only _) (by decide)
  · exact OnlyChanges.refl _ s

theorem handleSample_only (s : State) (x : Word16 × Int × Bool) : OnlyChanges frontBlocks s (handleSample s x) := by
  unfold handleSample
  split
  · exact ((cutWindow_only s).trans (openWindow_only _ _ _)).mono (by decide)
  · exact plainSample_only _ s

theorem samples_only (l : List (Word16 × Int × Bool)) (s : State) : OnlyChanges frontBlocks s (l.foldl handleSample s) := by
  induction l generalizing s with
  | nil => exact OnlyChanges.refl _ s
  | cons x rest ih => exact (handleSample_only s x).trans (ih _)

theorem handleGap_only (s : State) : OnlyChanges [.fe] s (handleGap s) := by
  unfold handleGap
  split <;> exact withFe_only s _

theorem countGap_only (g : Nat) (s : State) : OnlyChanges [.fe] s (countGap g s) := by
  unfold countGap
  split
  · exact OnlyChanges.refl _ s
  · exact (withFe_only s _).trans (handleGap_only _)

theorem leaveSilent_only (s : State) : OnlyChanges frontBlocks s (leaveSilent s) := by
  unfold leaveSilent
  split
  · exact (setWeigherSilent_only false s).andThen (withFe_only _ _) (by decide)
  · exact OnlyChanges.refl _ s

theorem takeSamples_only (payload : List Byte) (s : State) : OnlyChanges frontBlocks s (takeSamples payload s) := by
  unfold takeSamples
  split
  · exact (withFe_only s _).mono (by decide)
  · next g _ =>
    dsimp only
    refine OnlyChanges.trans ?_ (samples_only _ _)
    refine OnlyChanges.andThen ?_ (withFe_only _ _) (by decide)
    exact ((countGap_only g s).mono (by decide)).trans (leaveSilent_only _)

theorem closeSilent_only (s : State) : OnlyChanges [.fe] s (closeSilent s) := by
  unfold closeSilent
  split <;> first | exact closeWindow_only _ _ _ s | exact withFe_only s _

theorem digitiserSilence_only (s : State) : OnlyChanges frontBlocks s (digitiserSilence s) := by
  unfold digitiserSilence
  dsimp only
  refine OnlyChanges.trans ?_ (setWeigherSilent_only _ _)
  exact ((closeSilent_only s).trans (withFe_only _ _)).mono (by decide)

theorem abandonWindow_only (s : State) : OnlyChanges [.fe] s (abandonWindow s) := by
  unfold abandonWindow
  split <;> exact withFe_only s _

/-! ### Rewriter -/

/-- The blocks that a dose frame reaches in the Rewriter and the Trim Engine. -/
abbrev doseBlocks : List Block := [.te, .rw]

theorem withRw_only (s : State) (rw : Rewriter) : OnlyChanges [.rw] s (s.withRw rw) :=
  (OnlyChanges.refl _ s).put_rw _ (by decide)

theorem noteWritten_only (v : Fin Config.valves) (out : Word16) (s : State) :
    OnlyChanges doseBlocks s (noteWritten v out s) := by
  unfold noteWritten
  split
  · exact OnlyChanges.refl _ s
  · refine OnlyChanges.andThen ?_ (setPointChanged_only _ _) (by decide)
    exact (withRw_only s _).mono (by decide)

theorem countClamp_only (b : Bool) (s : State) : OnlyChanges [.rw] s (countClamp b s) := by
  unfold countClamp
  split
  · exact withRw_only s _
  · exact OnlyChanges.refl _ s

theorem rewriteEntry_only (p : Product) (first : Nat) (r : Rewrite) (i : Nat) :
    OnlyChanges doseBlocks r.state (rewriteEntry p first r i).state := by
  unfold rewriteEntry
  split
  · exact OnlyChanges.refl _ _
  · dsimp only
    exact ((countClamp_only _ r.state).mono (by decide)).trans (noteWritten_only _ _ _)

theorem rewriteFold_only (p : Product) (first : Nat) (l : List Nat) (r : Rewrite) :
    OnlyChanges doseBlocks r.state (l.foldl (rewriteEntry p first) r).state := by
  induction l generalizing r with
  | nil => exact OnlyChanges.refl _ _
  | cons i rest ih => exact (rewriteEntry_only p first r i).trans (ih _)

theorem rewriteEntries_only (p : Product) (payload : List Byte) (frame : Frame) (s : State) :
    OnlyChanges doseBlocks s (rewriteEntries p payload frame s).1 := by
  unfold rewriteEntries
  have h := rewriteFold_only p (byteAt payload 0).toNat (List.range (byteAt payload 1).toNat)
    { state := s, frame := frame, written := false }
  dsimp only
  split
  · exact h.andThen (withRw_only _ _) (by decide)
  · exact h

theorem rewriteDose_only (payload : List Byte) (frame : Frame) (s : State) :
    OnlyChanges doseBlocks s (rewriteDose payload frame s).1 := by
  unfold rewriteDose
  split
  · exact OnlyChanges.refl _ s
  · split
    · exact OnlyChanges.refl _ s
    · exact rewriteEntries_only _ _ _ s

/-! ### Frame Path -/

/-- The blocks that a received frame reaches. -/
abbrev frameBlocks : List Block := [.fp, .te, .rw, .ma]

theorem joinIntake_only (c : Copy) (s : State) : OnlyChanges [.fp, .ma] s (joinIntake c s) := by
  unfold joinIntake
  split
  · exact (OnlyChanges.refl _ s).put_ma _ (by decide)
  · exact ((OnlyChanges.refl _ s).put_ma _ (by decide)).report s (by decide)

theorem holdArrival_only (c : Copy) (s : State) : OnlyChanges [.fp] s (holdArrival c s) := by
  unfold holdArrival
  split
  · exact withFp_only s _
  · exact OnlyChanges.refl _ s

theorem offerIntake_only (c : Copy) (s : State) : OnlyChanges [.fp, .ma] s (offerIntake c s) :=
  (joinIntake_only c s).andThen (holdArrival_only c _) (by decide)

theorem takeFlow_only (c : Copy) (s : State) : OnlyChanges [.fp] s (takeFlow c s) := by
  unfold takeFlow standHold clearHold
  repeat' split
  all_goals exact withFp_only s _

theorem forwardFrame_only (p : Port) (f : Frame) (s : State) : OnlyChanges [.fp] s (forwardFrame p f s) :=
  withFp_only s _

theorem forwardUnless_only (b : Bool) (p : Port) (f : Frame) (s : State) :
    OnlyChanges [.fp] s (forwardUnless b p f s) := by
  unfold forwardUnless
  split
  · exact OnlyChanges.refl _ s
  · exact forwardFrame_only _ _ s

theorem matchedFrame_only (e : ChannelEntry) (c : Copy) (f : Frame) (s : State) :
    OnlyChanges frameBlocks s (matchedFrame e c f s) := by
  unfold matchedFrame
  dsimp only
  split
  · refine OnlyChanges.andThen ?_ (forwardUnless_only _ _ _ _) (by decide)
    exact (withFp_only s _).mono (by decide)
  · split
    · exact ((rewriteDose_only c.payload f s).mono (by decide)).andThen (forwardFrame_only _ _ _) (by decide)
    · refine OnlyChanges.andThen ?_ (forwardUnless_only _ _ _ _) (by decide)
      exact (withFp_only s _).mono (by decide)

theorem classifyFrame_only (c : Copy) (f : Frame) (s : State) : OnlyChanges frameBlocks s (classifyFrame c f s) := by
  have h := (forwardFrame_only c.port f s).mono (m := frameBlocks) (by decide)
  have hi := (offerIntake_only c s).mono (m := frameBlocks) (by decide)
  unfold classifyFrame stationFrame mgmtFrame flowFrame
  split
  · exact h
  · split
    · split
      · exact h
      · exact matchedFrame_only _ c f s
    · split
      · split
        · exact hi
        · split
          · exact hi.andThen (forwardFrame_only _ _ _) (by decide)
          · exact h
      · split
        · split
          · exact (takeFlow_only c s).mono (by decide)
          · exact h
        · exact h

theorem receiveFrame_only (p : Port) (whole : Bool) (f : Frame) (s : State) :
    OnlyChanges frameBlocks s (receiveFrame p whole f s) := by
  have h (fp : FramePath) := (withFp_only s fp).mono (m := frameBlocks) (by decide)
  unfold receiveFrame acceptFrame
  dsimp only
  split
  · exact (h _).andThen (withFp_only _ _) (by decide)
  · split
    · exact (h _).andThen (withFp_only _ _) (by decide)
    · split
      · exact (h _).andThen (forwardFrame_only _ _ _) (by decide)
      · exact (h _).trans (classifyFrame_only _ _ _)

theorem linkLost_only (p : Port) (a : Bool) (s : State) : OnlyChanges [.fp] s (linkLost p a s) := by
  unfold linkLost
  split
  · dsimp only
    refine OnlyChanges.trans ?_ (withFp_only _ _)
    unfold cutFrame
    split
    · exact withFp_only s _
    · exact OnlyChanges.refl _ s
  · exact OnlyChanges.refl _ s

/-! ### Commits -/

/-- The blocks that a commit reaches; the Tracking Queue is not among them. -/
abbrev commitBlocks : List Block := [.fp, .pos, .fe, .rm, .jr, .te, .rw, .pu, .rc, .ma]

theorem commitChannel_only (first : Nat) (es : List (List Byte)) (s : State) :
    OnlyChanges [.fp] s (commitChannel first es s).1 := by
  unfold commitChannel
  dsimp only
  split
  · exact OnlyChanges.refl _ s
  · exact withFp_only s _

theorem commitCalibration_only (es : List (List Byte)) (s : State) :
    OnlyChanges frontBlocks s (commitCalibration es s).1 := by
  unfold commitCalibration
  dsimp only
  refine OnlyChanges.trans ?_ (setZeroFault_only _ _)
  exact (withFe_only s _).mono (by decide)

theorem commitPolicy_only (first : Nat) (es : List (List Byte)) (s : State) :
    OnlyChanges [.jr] s (commitPolicy first es s).1 := by
  unfold commitPolicy
  split
  · exact OnlyChanges.refl _ s
  · exact (OnlyChanges.refl _ s).put_jr _ (by decide)

theorem commitValve_only (first : Nat) (es : List (List Byte)) (s : State) :
    OnlyChanges trimBlocks s (commitValve first es s).1 := by
  unfold commitValve
  split
  · exact OnlyChanges.refl _ s
  · dsimp only
    refine OnlyChanges.trans ?_ (applyValveCommit_only _ _ _ _)
    exact (OnlyChanges.refl _ s).put_te _ (by decide)

theorem commitProduct_only (first : Nat) (es : List (List Byte)) (s : State) :
    OnlyChanges [.rm, .pu] s (commitProduct first es s).1 := by
  unfold commitProduct
  split
  · exact OnlyChanges.refl _ s
  · split
    · exact OnlyChanges.refl _ s
    · intro b hb
      cases b <;> first | rfl | exact absurd (by decide) hb

theorem commitCollector_only (old : LineSetup) (s : State) : OnlyChanges [.fp, .rc] s (commitCollector old s) := by
  unfold commitCollector
  have h : OnlyChanges [.fp, .rc] s (if old.collector = s.ma.setup.collector then s else clearHold s) := by
    split
    · exact OnlyChanges.refl _ s
    · exact (withFp_only s _).mono (by decide)
  dsimp only
  split
  · exact h
  · exact h.trans (abandonUpload_only _)

theorem commitTrimHold_only (old : LineSetup) (s : State) : OnlyChanges [.fp, .te] s (commitTrimHold old s) := by
  unfold commitTrimHold
  split
  · exact OnlyChanges.refl _ s
  · exact evalTrimHold_only s

theorem commitThreshold_only (old : LineSetup) (s : State) : OnlyChanges [.fp, .rc] s (commitThreshold old s) := by
  unfold commitThreshold
  split
  · exact OnlyChanges.refl _ s
  · exact evalCaptureReady_only s

theorem commitInterval_only (old : LineSetup) (s : State) : OnlyChanges [.ma] s (commitInterval old s) := by
  unfold commitInterval
  dsimp only
  split
  · exact (OnlyChanges.refl _ s).put_ma _ (by decide)
  · split
    · exact (OnlyChanges.refl _ s).put_ma _ (by decide)
    · exact OnlyChanges.refl _ s

theorem deliverSetup_only (old : LineSetup) (s : State) :
    OnlyChanges [.fp, .pos, .te, .rw, .rc, .ma] s (deliverSetup old s) := by
  unfold deliverSetup
  refine OnlyChanges.andThen ?_ (commitInterval_only _ _) (by decide)
  refine OnlyChanges.andThen ?_ (commitThreshold_only _ _) (by decide)
  refine OnlyChanges.andThen ?_ (commitCollector_only _ _) (by decide)
  refine OnlyChanges.andThen ?_ (commitTrimHold_only _ _) (by decide)
  refine OnlyChanges.andThen ?_ (applyValveCount_only _ _) (by decide)
  exact (commitGrid_only _ s).mono (by decide)

theorem commitLineSetup_only (es : List (List Byte)) (s : State) :
    OnlyChanges [.fp, .pos, .te, .rw, .rc, .ma] s (commitLineSetup es s).1 := by
  unfold commitLineSetup
  split
  · exact OnlyChanges.refl _ s
  · dsimp only
    refine OnlyChanges.trans ?_ (deliverSetup_only _ _)
    exact (OnlyChanges.refl _ s).put_ma _ (by decide)

theorem commitTable_only (t : TableId) (first : Nat) (es : List (List Byte)) (s : State) :
    OnlyChanges commitBlocks s (commitTable t first es s).1 := by
  cases t
  · exact (commitChannel_only first es s).mono (by decide)
  · exact (commitLineSetup_only es s).mono (by decide)
  · exact (commitCalibration_only es s).mono (by decide)
  · exact (commitProduct_only first es s).mono (by decide)
  · exact (commitValve_only first es s).mono (by decide)
  · exact (commitPolicy_only first es s).mono (by decide)

/-! ### Management Agent -/

theorem withMa_only (s : State) (ma : Mgmt) : OnlyChanges [.ma] s (s.withMa ma) :=
  (OnlyChanges.refl _ s).put_ma _ (by decide)

/-- The blocks that the Agent's own events reach. -/
abbrev agentBlocks : List Block := [.fp, .ma]

theorem endLoad_only (s : State) : OnlyChanges agentBlocks s (endLoad s) :=
  ((withMa_only s _).mono (by decide)).report s (by decide)

theorem failLoad_only (s : State) : OnlyChanges agentBlocks s (failLoad s) := by
  unfold failLoad
  refine OnlyChanges.trans ?_ (endLoad_only _)
  exact (withMa_only s _).mono (by decide)

theorem loadExpiry_only (s : State) : OnlyChanges agentBlocks s (loadExpiry s) := by
  unfold loadExpiry
  refine OnlyChanges.trans ?_ (endLoad_only _)
  exact (withMa_only s _).mono (by decide)

theorem abortLoad_only (s : State) : OnlyChanges agentBlocks s (abortLoad s) := by
  unfold abortLoad
  split
  · exact endLoad_only s
  · exact OnlyChanges.refl _ s

theorem beginCommand_only (c : Copy) (s : State) : OnlyChanges agentBlocks s (beginCommand c s) := by
  unfold beginCommand discardCommand
  split
  · exact (withMa_only s _).mono (by decide)
  · exact finish_only _ _ s
  · exact finish_only _ _ s
  · exact finish_only _ _ s
  · exact OnlyChanges.refl _ s

theorem departIntake_only (s : State) : OnlyChanges agentBlocks s (departIntake s) := by
  unfold departIntake
  split
  · exact OnlyChanges.refl _ s
  · split
    · exact OnlyChanges.refl _ s
    · refine OnlyChanges.trans ?_ (beginCommand_only _ _)
      unfold releaseOnDeparture
      split
      · refine OnlyChanges.andThen ?_ (withFp_only _ _) (by decide)
        exact (withMa_only s _).mono (by decide)
      · exact (withMa_only s _).mono (by decide)

/-- A management row touches what its command's effect touches, and the Frame Path and the Agent for its reply. -/
theorem runCommand_only {l : List Block} (kind : CommandKind) (need : Nat) (busy : State → Bool)
    (body : List Byte → State → State × Reply) (hl : ∀ b ∈ agentBlocks, b ∈ l)
    (hb : ∀ args t, OnlyChanges l t (body args t).1) (s : State) :
    OnlyChanges l s (runCommand kind need busy body s) := by
  unfold runCommand testedCommand refuse
  split
  · exact OnlyChanges.refl _ s
  · split
    · dsimp only
      refine OnlyChanges.andThen ?_ (finish_only _ _ _) hl
      split
      · exact OnlyChanges.refl _ s
      · split
        · exact OnlyChanges.refl _ s
        · exact hb _ s
    · exact OnlyChanges.refl _ s

theorem beginLoad_only (args : List Byte) (s : State) : OnlyChanges agentBlocks s (beginLoad args s).1 := by
  unfold beginLoad refuse
  dsimp only
  split
  · exact OnlyChanges.refl _ s
  · split
    · exact OnlyChanges.refl _ s
    · split
      · exact OnlyChanges.refl _ s
      · dsimp only
        exact ((withMa_only s _).mono (by decide)).report s (by decide)

theorem lastSegment_only (d : LoadDesc) (es : List (List Byte)) (s : State) :
    OnlyChanges commitBlocks s (lastSegment d es s).1 := by
  unfold lastSegment
  dsimp only
  exact (commitTable_only _ _ _ s).andThen (endLoad_only _) (by decide)

theorem takeSegment_only (d : LoadDesc) (i n : Nat) (bytes : List Byte) (s : State) :
    OnlyChanges commitBlocks s (takeSegment d i n bytes s).1 := by
  unfold takeSegment
  split
  · dsimp only [refuse]
    exact (failLoad_only s).mono (by decide)
  · split
    · dsimp only [refuse]
      exact (failLoad_only s).mono (by decide)
    · dsimp only
      split
      · dsimp only [stageSegment]
        exact OnlyChanges.mono (withMa_only s _) (by decide)
      · exact lastSegment_only d _ s

theorem segmentBody_only (args : List Byte) (s : State) : OnlyChanges commitBlocks s (segmentBody args s).1 := by
  unfold segmentBody
  split
  · exact OnlyChanges.refl _ s
  · exact takeSegment_only _ _ _ _ s

theorem readTableBody_only (args : List Byte) (s : State) : OnlyChanges agentBlocks s (readTableBody args s).1 := by
  unfold readTableBody refuse answer
  dsimp only
  split
  · exact OnlyChanges.refl _ s
  · split <;> exact OnlyChanges.refl _ s

theorem selectProduct_only (k : Option (Fin 16)) (s : State) : OnlyChanges [.fp, .te, .rw, .pu] s (selectProduct k s) := by
  unfold selectProduct
  refine OnlyChanges.andThen ?_ (applySelection_only _) (by decide)
  exact (OnlyChanges.refl _ s).put_pu _ (by decide)

theorem selectBody_only (args : List Byte) (s : State) :
    OnlyChanges [.fp, .te, .rw, .pu] s (selectBody args s).1 := by
  unfold selectBody
  dsimp only
  split
  · dsimp only
    exact selectProduct_only none s
  · split
    · rename_i h
      split
      · dsimp only
        exact selectProduct_only (some ⟨_, h⟩) s
      · exact OnlyChanges.refl _ s
    · exact OnlyChanges.refl _ s

theorem setLotBody_only (args : List Byte) (s : State) : OnlyChanges [.rm, .pu] s (setLotBody args s).1 := by
  unfold setLotBody
  split
  · exact OnlyChanges.refl _ s
  · split
    · exact OnlyChanges.refl _ s
    · intro b hb
      cases b <;> first | rfl | exact absurd (by decide) hb

theorem trimBody_only (args : List Byte) (s : State) : OnlyChanges [.fp, .te] s (trimBody args s).1 := by
  unfold trimBody refuse
  split <;> first | exact setTrimMode_only _ s | exact OnlyChanges.refl _ s

theorem releaseBody_only (args : List Byte) (s : State) : OnlyChanges trimBlocks s (releaseBody args s).1 := by
  unfold releaseBody refuse
  split
  · exact releaseFault_only _ s
  · exact OnlyChanges.refl _ s

theorem zeroNowBody_only (s : State) : OnlyChanges frontBlocks s (zeroNowBody s).1 := by
  unfold zeroNowBody refuse
  split
  · exact OnlyChanges.refl _ s
  · dsimp only
    refine OnlyChanges.trans ?_ (setZeroDone_only _ _)
    exact (withFe_only s _).mono (by decide)

theorem captureControlBody_only (args : List Byte) (s : State) : OnlyChanges [.ma] s (captureControlBody args s).1 := by
  unfold captureControlBody refuse
  split
  · exact OnlyChanges.refl _ s
  · exact withMa_only s _

theorem clearAlarms_only (s : State) : OnlyChanges [.fp, .fe, .jr, .ma] s (clearAlarms s) := by
  unfold clearAlarms
  refine OnlyChanges.andThen ?_ (setZeroDone_only _ _) (by decide)
  refine OnlyChanges.andThen (m := agentBlocks) ?_
    (((withMa_only _ _).mono (by decide)).report _ (by decide)) (by decide)
  refine OnlyChanges.andThen ?_ (raiseForFault_only _) (by decide)
  have h (t : State) (j : Judge) : OnlyChanges [.fp, .fe, .jr, .ma] t (report t { t with jr := j }) :=
    ((OnlyChanges.refl _ t).put_jr _ (by decide)).report t (by decide)
  exact (h _ _).trans (h _ _)

/-! ### Resets and single events -/

/-- Every part of the state but the queue of commands. -/
abbrev allBlocks : List Block := [.fp, .pos, .fe, .tq, .rm, .jr, .te, .rw, .pu, .rc, .ma]

theorem fullReset_only (s : State) : OnlyChanges allBlocks s (fullReset s) := by
  intro b hb
  cases b <;> first | exact absurd (by decide) hb | rfl

theorem powerOnState_only (straps : BitVec 7) (s : State) : OnlyChanges allBlocks s (powerOnState straps s) := by
  intro b hb
  cases b <;> first | exact absurd (by decide) hb | rfl

theorem trackingReset_only (s : State) : OnlyChanges [.fp, .fe, .tq, .rm, .te, .rc] s (trackingReset s) := by
  unfold trackingReset
  refine OnlyChanges.andThen ?_ (abandonWindow_only _) (by decide)
  refine OnlyChanges.andThen ?_ (loseQueue_only _) (by decide)
  refine OnlyChanges.trans ((flushRecords_only s).mono (by decide)) ?_
  intro b hb
  cases b <;> first | rfl | exact absurd (by decide) hb

theorem statisticsReset_only (s : State) : OnlyChanges [.tq, .rm, .jr, .te] s (statisticsReset s) := by
  unfold statisticsReset
  refine OnlyChanges.andThen ?_ (mapValves_only _ _) (by decide)
  intro b hb
  cases b <;> first | rfl | exact absurd (by decide) hb

theorem loadReset_only (s : State) : OnlyChanges agentBlocks s (loadReset s) := by
  unfold loadReset
  dsimp only
  refine OnlyChanges.andThen ?_ (withFp_only _ _) (by decide)
  exact (abortLoad_only s).andThen (withMa_only _ _) (by decide)

theorem takeConfirm_only (c : Copy) (s : State) : OnlyChanges [.fp, .jr] s (takeConfirm c s) :=
  ((confirmGap_only c.sequence s).mono (by decide)).trans (confirmOwn_only _)

theorem nextResult_only (s : State) : OnlyChanges [.fp, .fe, .tq, .jr, .te, .rw, .rc] s (nextResult s) := by
  unfold nextResult
  split
  · exact OnlyChanges.refl _ s
  · refine OnlyChanges.andThen ?_ (takeResult_only _ _) (by decide)
    exact (withFe_only s _).mono (by decide)

theorem statusExpiry_only (s : State) : OnlyChanges agentBlocks s (statusExpiry s) :=
  ((buildStatus_only s).mono (by decide)).andThen (withMa_only _ _) (by decide)

end Sys2Proof.Machine
end

