-- ==== Sys2Proof/WellFormed.lean ====
section
/-!
DEFINITION. The well-formed commands: the operands of a row that name a valve name one of the filler's 96 (Table 1-3:
"A filling valve of the rotary filler, numbered 0-95"). Every other operand may hold any value: the spec says what a
frame of any bytes does (R1, R3), and any setting of the straps (R4).
-/

namespace Sys2Proof

/-- Whether the operands of a command are in the range the spec gives them. -/
def Instr.wellFormed : Instr → Bool
  | .captureArm valve => valve.toNat < Config.valves
  | .valveFault valve => valve.toNat < Config.valves
  | .powerOn _ | .frameReceived _ _ _ | .holdExpiry | .egressStart _ | .transmitComplete _ | .linkDown _ _ | .linkUp _
  | .intakeDeparture | .identify | .getStatus | .loadBegin | .loadSegment | .loadAbort | .loadInactivityExpiry
  | .readTable | .selectProduct | .setLot | .trimControl | .releaseValve | .readValves | .readQueue | .readSchedule
  | .readCounters | .clearCounters | .clearAlarms | .zeroNow | .ringRead | .ringFreeze | .ringThaw | .captureControl
  | .captureDiscard | .resetFull | .resetTracking | .resetStatistics | .resetLoad | .resetCapture | .encoderFrame
  | .maxAgeRemoval | .rejectFire | .confirmTimeout | .encoderSilenceExpiry | .sampleFrame | .zeroReadingStart
  | .zeroReadingComplete | .settleComplete | .windowClose | .digitiserSilenceExpiry | .windowResult
  | .dischargeFrame | .seamFrame | .readFrame | .trackingSynced | .trackingLost | .confirmFrame
  | .uploadStart | .captureSegment | .statusIntervalExpiry => true

end Sys2Proof
end

