-- ==== Sys2Proof/Tests/Slice0.lean ====
section
/-!
SUPPORT. Tests of the model: ill-formed commands refused, the worked examples of spec/ on small states, each one step, and for
every statement with hypotheses a concrete state and operands that meet them, clause by clause.
-/

namespace Sys2Proof.Tests

open Sys2Proof.Machine

set_option Elab.async false

/-! ## Small states -/

/-- The state after a command; a command always answers a next state. -/
def after (c : Instr) (s : State) : State :=
  match exec c s with
  | .next t => t
  | .fault _ => s
  | .refused _ => s

/-- Power-on values with both links up. -/
def up : State :=
  { State.reset with fp := { State.reset.fp with portA := { linkUp := true }, portB := { linkUp := true } } }

/-- A state with a Line Setup record. -/
def withSetup (u : LineSetup) (s : State) : State :=
  { s with ma := { s.ma with setup := u } }

/-- A command frame from station 10 on Port A. -/
def command (payload : List Byte) : Copy :=
  { port := .a, dest := 0, source := 10, channel := 240, sequence := 0, flags := 0, payload := payload }

/-- The command with a payload has begun. -/
def running (payload : List Byte) (s : State) : State :=
  { s with ma := { s.ma with executing := some (command payload) } }

theorem running_executes (s : State) (payload : List Byte) (kind : CommandKind)
    (h : commandClass payload = .known kind) : (running payload s).executes kind (command payload) :=
  ⟨rfl, h⟩

/-- A station frame of station 5 on channel 7. -/
def station (seq : Byte) (payload : List Byte) : Copy :=
  { port := .a, dest := 254, source := 5, channel := 7, sequence := seq, flags := 0, payload := payload }

/-- One copy has been handed to a role's block. -/
def handing (role : Role) (c : Copy) (s : State) : State :=
  { s with fp := { s.fp with handed := [(role, c)] } }

theorem handing_hands (role : Role) (c : Copy) (s : State) : (handing role c s).hands role c [] :=
  ⟨[], [], rfl, by simp, rfl⟩

theorem of_all {α : Type} {o : Option α} {p : α → Prop} [DecidablePred p] (h : o.all (fun a => decide (p a)) = true) :
    ∀ a, o = some a → p a := by
  intro a ha
  subst ha
  simpa using h

theorem all_of_option {o : Option Nat} (h : o.all (fun n => decide (2 ≤ n)) = true) : ∀ n, o = some n → 2 ≤ n :=
  of_all h

/-- Product 3 of the examples of chapters 3, 6, 7 and 8. -/
def can : Product :=
  { name := List.replicate 16 0, target := 337500, tare := 13950, rejectLow := 320000, warnLow := 330000
    warnHigh := 345000, rejectHigh := 355000, doseMin := 800, doseMax := 1400, trimMin := -120, trimMax := 120
    deadband := 600, nMin := 12, k := 3, g := 6, gq := 25600, maxStep := 20, settle := 12, length := 4, minSamples := 3
    band := 400, currentLot := [0x32, 0x34, 0x31, 0x31, 0x37, 0x41, 0x30, 0x32], previousLot := none }

/-- Product 3 active, both links up. -/
def filling : State :=
  { up with pu := { table := State.reset.pu.table.set 3 (some can), active := some 3 } }

/-- A Window Result without flags. -/
def weighed (gross : Option Int) (entryPos : Word32) : WindowResult :=
  { entryIndex := 0, entryPos := entryPos, count := 4, gross := gross, short := false, gap := false, unstable := false
    silent := false, uncalibrated := false, zeroFault := false, rawRange := 120, samples := [1, 2, 3] }

/-- A record of product 3 at a stage. -/
def record (number : Word32) (stage : Stage) (tag : Option Tag) (read : Option ReadResult) : CanRecord :=
  { number := number, product := 3, valve := none, setPoint := none, settled := false, epoch := 0, dischargePos := 0
    stage := stage, tag := tag, readResult := read }

/-- A state with records in the Tracking Queue. -/
def queued (q : List CanRecord) (s : State) : State :=
  { s with tq := { s.tq with queue := q } }

/-- A PENDING entry of the Reject Schedule. -/
def waiting (number firePos : Word32) : RejectEntry :=
  { number := some number, cls := .rejLow, firePos := firePos, fired := false, deadline := none, late := false }

/-- A FIRED entry of the Reject Schedule. -/
def firedEntry (number firePos deadline : Word32) : RejectEntry :=
  { waiting number firePos with fired := true, deadline := some deadline }

/-- A state with a Reject Schedule. -/
def scheduled (l : List RejectEntry) (s : State) : State :=
  { s with jr := { s.jr with schedule := l } }

/-- A state at a Line Position on the grid P = 400, φ = 150 of the examples. -/
def onLine (linePos : Word32) (residue : Nat) (last : Word16) (s : State) : State :=
  { s with pos := { s.pos with linePos := linePos, pitch := 400, phase := 150, residue := residue, lastCount := some last } }

/-- A state with one valve's record, E and epoch. -/
def valve (v : Fin Config.valves) (r : ValveRecord) (e : Option Word16) (epoch : Word16) (s : State) : State :=
  { s with
    te := { s.te with valves := s.te.valves.set v.val r v.isLt }
    rw := { s.rw with expected := s.rw.expected.set v.val e v.isLt, epoch := s.rw.epoch.set v.val epoch v.isLt } }

/-! ## Well-formed commands -/

theorem test_capture_arm_of_valve_96_is_refused : Instr.wellFormed (.captureArm 96) = false := by decide

theorem test_valve_fault_of_valve_200_is_refused : Instr.wellFormed (.valveFault 200) = false := by decide

theorem test_capture_arm_of_valve_95_is_well_formed : Instr.wellFormed (.captureArm 95) = true := by decide

theorem test_no_word_spells_a_command : decodeTableWord 16 0x1234 = none := rfl

/-! ## The worked examples of spec/ -/

/-- 2.4 step 2: from residue 360 a step of 830 reaches 1,000,150 and 1,000,550 and leaves residue 390. -/
theorem test_encoder_step_of_830 :
    let t := after .encoderFrame (handing .encoder (station 0 [0xA3, 0xDE]) (onLine 1000110 360 41120 up))
    t.pos.linePos = 1000940 ∧ t.pos.residue = 390 ∧ t.pos.counters.ticks = 2 := by decide +kernel

/-- 2.4 step 3: count 41,900 after 41,950 is a reverse step. -/
theorem test_reverse_encoder_step :
    let t := after .encoderFrame (handing .encoder (station 0 [0xA3, 0xAC]) (onLine 1000940 390 41950 up))
    t.pos.linePos = 1000940 ∧ t.pos.lastCount = some 41900 ∧ t.pos.counters.reverse = 1 := by decide +kernel

/-- 3.5 Example A: gross 352,436 mg, raw range 120. -/
theorem test_gross_of_example_a :
    (⟨0, 0, 1203400, 6400, 12, 4, 3, 400, 12, 4, 19249380, some (4812290, 4812410), false⟩ : OpenWindow).grossValue = 352436 := by
  decide +kernel

/-- 3.5 Example A closes with a Window Result of gross 352,436 and no flags. -/
theorem test_window_of_example_a_closes :
    ((after .windowClose { up with fe := { up.fe with
        mode := .window
        window := some ⟨0, 0, 1203400, 6400, 12, 4, 3, 400, 12, 4, 19249380, some (4812290, 4812410), false⟩ } }).fe.results.map
      fun w => (w.gross, w.rawRange, w.unstable)) = [(some 352436, 120, false)] := by decide +kernel

/-- 6.1: cans a to e. -/
theorem test_classes_of_five_cans :
    [classOf (some can) .synced (some .read) (weighed (some 352436) 0),
      classOf (some can) .synced (some .read) { weighed (some 349300) 0 with short := true },
      classOf (some can) .synced (some .mismatch) { weighed (some 360100) 0 with gap := true },
      classOf (some can) .synced (some .unread) (weighed (some 331800) 0),
      classOf (some can) .lost (some .read) (weighed (some 369000) 0)] = [.ok, .ok, .unstable, .unread, .rejHigh] := by
  decide +kernel

/-- 6.4 Example B: fire position 1,010,150. -/
theorem test_fire_position_of_example_b :
    firePosition { State.reset.pos with pitch := 400, phase := 150 } 9600 1000230 = 1010150 := by decide +kernel

/-- 7.6 Example C: e_avg 14,292 at n 12 gives trim -4, SETTLING, a sixth trim change. -/
theorem test_trim_of_example_c :
    (trimDecision can 9100 (fedRecord can 338486
      { state := .collecting, trim := 3, n := 11, eAvg := 14080, trimChanges := 5 })) =
      ({ state := .settling, trim := -4, n := 0, eAvg := 0, trimChanges := 6, lastChange := some 9100 }, true) := by
  decide +kernel

/-- 7.6 Example D: decisions 1 to 3 of valve 40. -/
theorem test_trims_of_example_d :
    ([(-38400, 115), (-9920, 120), (-6400, 120)].map fun x : Int × Int =>
      let d := trimDecision can 0 { state := .collecting, trim := x.2, n := 12, eAvg := x.1 }
      (d.1.trim, d.1.limit, d.2)) = [(120, true, true), (120, true, false), (120, false, false)] := by decide +kernel

/-- 8.6, valve 19: base 1,390 under trim +20 is written 1,400, E and epoch follow, the clamp is counted. -/
theorem test_dose_entry_of_valve_19 :
    let s := { filling with te := { filling.te with mode := .auto } }
    let t := (rewriteEntries can [19, 1, 0x05, 0x6E] (List.replicate 22 0 ++ [19, 1, 0x05, 0x6E] ++ List.replicate 38 0)
      (valve 19 { state := .collecting, trim := 20, n := 7 } (some 1395) 88 s))
    fieldAt t.2 24 2 = 1400 ∧ t.1.rw.expected[19] = some 1400 ∧ t.1.rw.epoch[19] = 89 ∧ t.1.te.valves[19].state = .settling ∧
      t.1.rw.counters = { framesRewritten := 1, changes := 1, clamps := 1 } := by decide +kernel

/-- 00_scope.md 1.7: at a distance of exactly 2^31 a can number is not before the lot boundary (R95). -/
theorem test_half_the_circle_is_not_before :
    isBefore 0 0x80000000 = false ∧ isBefore 1 0x80000000 = true ∧ isBefore 5 5 = false ∧
      lotAccepted { lotGrace := 0 } (some { can with previousLot := some (List.replicate 8 1) }) 0x80000000 0
        (List.replicate 8 1) = false ∧
      lotAccepted { lotGrace := 0 } (some { can with previousLot := some (List.replicate 8 1) }) 0x80000000 1
        (List.replicate 8 1) = true := by decide +kernel

/-- R72, R79: after tag 4,094 the counter is 0. -/
theorem test_tag_counter_wraps : nextTag 4094 = 0 ∧ nextTag 4093 = 4094 := by decide

/-- R86: the text "24117A02 0A7" of a READ frame is a TAG read of tag 0A7 with lot "24117A02". -/
theorem test_read_of_a_printed_code :
    parseRead {} ([1, 12] ++ can.currentLot ++ [0x20, 0x30, 0x41, 0x37]) = (.tag 0x0A7 can.currentLot, false) := by
  decide +kernel

/-- R4: straps of even parity fall back to station 63 with the address-parity fault. -/
theorem test_power_on_with_even_straps :
    (after (.powerOn 0b0000011) up).fp.station = 63 ∧ (after (.powerOn 0b0000011) up).fp.parityFault = true ∧
      (after (.powerOn 0b1000011) up).fp.station = 3 := by decide +kernel

/-- R13: a reject command leaves before a forwarded frame. -/
theorem test_reject_goes_first :
    (after (.egressStart .b) { up with fp := { up.fp with portB := {
      linkUp := true, reject := [[1]], forward := [[2]] } } }).fp.portB.transmitting = some (.reject, [1]) := by decide +kernel

/-- R184, Table 12-5: what IDENTIFY returns. -/
theorem test_identify :
    up.identification = [0x4B, 0x57, 0x06, 0x40, 2, 0, 0, 128, 32, 96, 16, 4, 32] := by decide +kernel

/-- R177: a capture of 161 samples goes in three segments. -/
theorem test_segments_of_161_samples : segmentCount { captureNumber := 0, record := record 1 .passed none none, cls := .ok
                                                      net := none, late := false, scheduled := false
                                                      result := { weighed none 0 with samples := List.replicate 161 0 } } = 3 := by
  decide +kernel

/-! ## Witnesses: the hypotheses of the statements are met, clause by clause

The statements StepRunsFrontCommand, EveryCommandAnswers, RoundingIsToNearest for b ≥ 1 and those on given operands alone need
no state. -/

/-! ### The block and power-on -/

theorem test_witness_idle_step :
    up.pending = [] ∧ (∀ n, up.pos.timer = some n → 2 ≤ n) ∧ (∀ n, up.fe.timer = some n → 2 ≤ n) ∧
      (∀ n, ({ up.fp with holdTimer := some 2 } : FramePath).holdTimer = some n → 2 ≤ n) ∧
      (∀ n, up.ma.loadTimer = some n → 2 ≤ n) ∧ (∀ n, up.ma.statusTimer = some n → 2 ≤ n) :=
  ⟨rfl, all_of_option (by decide), all_of_option (by decide), all_of_option (by decide), all_of_option (by decide),
    all_of_option (by decide)⟩

theorem test_witness_expiries :
    let s : State := { up with
      pos := { up.pos with timer := some 1 }, fe := { up.fe with timer := some 2 }
      ma := { up.ma with statusTimer := some 1 } }
    s.pending = [] ∧ s.expiries = [.encoderSilenceExpiry, .statusIntervalExpiry] ∧ s.countedDown.fe.timer = some 1 ∧
      s.countedDown.pos.timer = some 1 ∧ up.expiries = [] := by decide +kernel

theorem test_witness_encoder_silence_on_time :
    up.pending = [] ∧ up.pos.timer = some (49 + 1) ∧ (scheduled [waiting 1 9] up).jr.schedule ≠ [] :=
  ⟨rfl, rfl, by decide⟩

theorem test_witness_power_on_straps :
    ((List.range 7).map fun i => ((1 : BitVec 7).getLsbD i).toNat).sum % 2 = 1 ∧
      ((List.range 7).map fun i => ((3 : BitVec 7).getLsbD i).toNat).sum % 2 = 0 ∧
      (∃ t, exec (.linkUp .a) up = .next t) ∧ ∃ t, up.pending = [] ∧ step up = .next t :=
  ⟨by decide, by decide, ⟨_, rfl⟩, ⟨_, rfl, rfl⟩⟩

theorem test_witness_rounding : 0 < 1 := by decide

/-! ### Frames -/

/-- A frame of 64 bytes that is no line frame. -/
def plainFrame : Frame := withFcs (List.replicate 64 0)

set_option maxRecDepth 20000 in
theorem test_witness_discarded_frames :
    (State.reset.fp.port .a).linkUp = false ∧ (up.fp.port .a).linkUp = true ∧ fcsOk [] = false ∧
      fcsOk (withFcs (List.replicate 63 0)) = true ∧ (withFcs (List.replicate 63 0)).length = 63 ∧
      fcsOk (withFcs (List.replicate 1519 0)) = true ∧ (withFcs (List.replicate 1519 0)).length = 1519 := by decide +kernel

/-- What a frame that station `source` sends is read as on Port A. -/
def sent (dest source channel : Byte) (payload : List Byte) : Copy :=
  { port := .a, dest := dest, source := source, channel := channel, sequence := 0, flags := 0, payload := payload }

/-- A frame that station `source` sends. -/
def frameOf (dest source channel : Byte) (payload : List Byte) : Frame :=
  insertedFrame source dest channel 0 payload

theorem test_witness_forwarded_frames :
    (up.accepts .a plainFrame ∧ fieldAt plainFrame 12 2 ≠ 0xB6E2) ∧
      (up.accepts .a (frameOf 1 0 7 []) ∧ lineFrame .a (frameOf 1 0 7 []) = some (sent 1 0 7 []) ∧ up.fp.station = 0) ∧
      (up.accepts .a (frameOf 1 5 239 []) ∧ lineFrame .a (frameOf 1 5 239 []) = some (sent 1 5 239 []) ∧
        ∀ i : Fin 32, entryMatches up.fp.channels[i] (sent 1 5 239 []) = false) ∧
      (up.accepts .a (frameOf 254 5 240 [2]) ∧ lineFrame .a (frameOf 254 5 240 [2]) = some (sent 254 5 240 [2]) ∧
        (254 : Byte) ≠ up.fp.station) ∧
      (up.accepts .a (frameOf 1 5 241 [1]) ∧ lineFrame .a (frameOf 1 5 241 [1]) = some (sent 1 5 241 [1]) ∧
        (1 : Byte) ≠ up.fp.station) := by
  unfold State.accepts
  decide +kernel

/-- Entry 3 of the Channel Table gives station 5, channel 9 a role. -/
def listening (role consume : Byte) (s : State) : State :=
  { s with fp := { s.fp with
      channels := s.fp.channels.set 3 { port := 2, source := 5, channel := 9, role := role, consume := consume } } }

theorem test_witness_handed_over :
    ((listening 2 1 up).accepts .a (frameOf 1 5 9 [0, 0]) ∧
      lineFrame .a (frameOf 1 5 9 [0, 0]) = some (sent 1 5 9 [0, 0]) ∧
      entryMatches (listening 2 1 up).fp.channels[3] (sent 1 5 9 [0, 0]) = true ∧
      (∀ j : Fin 32, entryMatches (listening 2 1 up).fp.channels[j] (sent 1 5 9 [0, 0]) = true → j = 3) ∧
      2 ≤ (sent 1 5 9 [0, 0]).payload.length) ∧
    ((listening 2 0 up).accepts .a (frameOf 1 5 9 [0]) ∧ lineFrame .a (frameOf 1 5 9 [0]) = some (sent 1 5 9 [0]) ∧
      entryMatches (listening 2 0 up).fp.channels[3] (sent 1 5 9 [0]) = true ∧
      (∀ j : Fin 32, entryMatches (listening 2 0 up).fp.channels[j] (sent 1 5 9 [0]) = true → j = 3) ∧
      ¬ 2 ≤ (sent 1 5 9 [0]).payload.length ∧
      ∀ j : Fin 7, (State.reset.fp.malformed.set 1 1)[j] =
        if j.val + 1 = (listening 2 0 up).fp.channels[3].role.toNat then tally (listening 2 0 up).fp.malformed[j] 1
        else (listening 2 0 up).fp.malformed[j]) ∧
    ((listening 6 1 up).accepts .a (frameOf 1 5 9 [0, 1, 0, 0]) ∧
      lineFrame .a (frameOf 1 5 9 [0, 1, 0, 0]) = some (sent 1 5 9 [0, 1, 0, 0]) ∧
      (∀ j : Fin 32, entryMatches (listening 6 1 up).fp.channels[j] (sent 1 5 9 [0, 1, 0, 0]) = true → j = 3) ∧
      roleOfCode (listening 6 1 up).fp.channels[3].role = .dose ∧ (listening 6 1 up).te.mode = .off ∧
      1 ≤ (byteAt [(0 : Byte), 1, 0, 0] 1).toNat ∧ 2 + 2 * (byteAt [(0 : Byte), 1, 0, 0] 1).toNat ≤ 4) := by
  unfold State.accepts
  decide +kernel

/-- A state whose intake FIFO holds `n` frames. -/
def intake (n : Nat) (s : State) : State :=
  { s with ma := { s.ma with fifo := List.replicate n (command [1, 0]) } }

theorem test_witness_management_frames :
    up.accepts .a (frameOf 0 10 240 [1, 0]) ∧ lineFrame .a (frameOf 0 10 240 [1, 0]) = some (sent 0 10 240 [1, 0]) ∧
      up.accepts .a (frameOf 254 10 240 [1]) ∧ lineFrame .a (frameOf 254 10 240 [1]) = some (sent 254 10 240 [1]) ∧
      (10 : Byte) ≠ up.fp.station ∧ (0 : Byte) = up.fp.station ∧ (intake 5 up).ma.fifo.length + 1 = 6 ∧
      (intake 7 up).ma.fifo.length < 8 ∧ 8 ≤ (intake 8 up).ma.fifo.length ∧
      (10 : Byte) ∉ up.fp.held.map Prod.fst ∧ up.fp.held.length < 8 := by
  unfold State.accepts
  decide +kernel

theorem test_witness_flow_frames :
    let s := withSetup { collector := 30 } up
    s.accepts .a (frameOf 0 30 241 [1]) ∧ lineFrame .a (frameOf 0 30 241 [1]) = some (sent 0 30 241 [1]) ∧
      lineFrame .a (frameOf 0 30 241 [2]) = some (sent 0 30 241 [2]) ∧
      lineFrame .a (frameOf 0 30 241 []) = some (sent 0 30 241 []) ∧ s.accepts .a (frameOf 0 30 241 []) ∧
      s.accepts .a (frameOf 0 30 241 [2]) ∧ s.ma.setup.collector ≠ 255 ∧
      lineFrame .a (frameOf 0 31 241 [1]) = some (sent 0 31 241 [1]) ∧ (31 : Byte) ≠ s.ma.setup.collector ∧
      ({ up.fp with holdTimer := some 1 } : FramePath).holdTimer = some 1 := by
  unfold State.accepts
  decide +kernel

theorem test_witness_egress :
    let s : State := { up with fp := { up.fp with portB := { linkUp := true, forward := [[2]], capture := [[3]] } } }
    (([.reject] ++ .forward :: [.printTag, .reply, .status, .capture] : List EgressClass) =
        [.reject, .forward, .printTag, .reply, .status, .capture] ∧
      (s.fp.port .b).linkUp = true ∧ (s.fp.port .b).transmitting = none ∧
      (∀ k ∈ [EgressClass.reject], (s.fp.port .b).queue k = []) ∧ (s.fp.port .b).queue .forward = [2] :: []) ∧
    (State.reset.fp.port .a).linkUp = false ∧
    (after (.egressStart .b) s).fp.portB.transmitting = some (.forward, [2]) ∧ (up.fp.port .a).transmitting = none := by
  decide +kernel

theorem test_witness_links : (up.fp.port .a).linkUp = true ∧ (State.reset.fp.port .a).linkUp = false := by decide

theorem test_witness_inserted_frame : (List.replicate 1490 (0 : Byte)).length ≤ 1490 ∧ ([] : List Byte).length ≤ 1490 := by
  decide +kernel

theorem test_witness_dose_frames :
    let s : State := { listening 6 1 filling with te := { filling.te with
      mode := .hold, valves := filling.te.valves.set 1 { state := .excluded } } }
    let payload : List Byte := [0, 2, 0x04, 0xB0, 0x04, 0xB0]
    s.accepts .a (frameOf 1 5 9 payload) ∧ lineFrame .a (frameOf 1 5 9 payload) = some (sent 1 5 9 payload) ∧
      (5 : Byte) ≠ s.fp.station ∧ entryMatches s.fp.channels[3] (sent 1 5 9 payload) = true ∧
      (∀ j : Fin 32, entryMatches s.fp.channels[j] (sent 1 5 9 payload) = true → j = 3) ∧
      roleOfCode s.fp.channels[3].role = .dose ∧
      (1 ≤ (byteAt payload 1).toNat ∧ (byteAt payload 1).toNat ≤ 24 ∧ 2 + 2 * (byteAt payload 1).toNat ≤ payload.length) ∧
      s.te.mode ≠ .off ∧ s.pu.active = some 3 ∧ s.pu.table[3] = some can ∧ can.doseMin ≤ can.doseMax ∧
      can.doseMax ≤ 65535 ∧ s.te.valves[0].state ≠ .excluded ∧ s.te.valves[1].state = .excluded ∧ 0 < s.ma.setup.valveCount := by
  unfold State.accepts
  decide +kernel

/-- R151, R153: of the bases 2,400 and 1,200 the first is held at the dose max, and both give E a new value. -/
theorem test_clamped_set_point_is_counted :
    let s : State := { listening 6 1 filling with te := { filling.te with mode := .hold } }
    let t := after (.frameReceived .a true (frameOf 1 5 9 [0, 2, 0x09, 0x60, 0x04, 0xB0])) s
    t.rw.counters.clamps = 1 ∧ t.rw.counters.changes = 2 ∧ t.rw.counters.framesRewritten = 1 ∧
      t.rw.expected[1] = some 1200 := by decide +kernel

/-! ### Line Position -/

/-- The state of 2.4 before step 1, with a pending grid. -/
def atStep1 : State :=
  { onLine 999990 240 41000 up with pos := { (onLine 999990 240 41000 up).pos with pendingGrid := some (7, 0) } }

theorem test_witness_position_inv : atStep1.positionInv :=
  ⟨by decide +kernel, by decide +kernel, fun g hg => (by decide +kernel : ∀ g ∈ atStep1.pos.pendingGrid, g.2 < g.1) g hg,
    by decide +kernel⟩

theorem test_witness_ticks :
    let p := (onLine 999990 240 41000 up).pos
    p.phase < p.pitch ∧ p.residue = gridResidue p.linePos p.pitch p.phase ∧ (1 ≤ 32767 ∧ 32767 ≤ 32767) ∧
      let q := (onLine 4294967295 345 41000 up).pos
      q.phase < q.pitch ∧ q.residue = gridResidue q.linePos q.pitch q.phase := by decide +kernel

theorem test_witness_encoder_frame :
    (handing .encoder (station 0 [0xA0, 0xA0]) atStep1).hands .encoder (station 0 [0xA0, 0xA0]) [] ∧
      (encoderCount [0xA0, 0xA0] - 41000).toNat = 120 ∧ (encoderCount [0x20, 0x27] - 41000).toNat = 32767 ∧
      (encoderCount [0x20, 0x28] - 41000).toNat = 32768 :=
  ⟨handing_hands _ _ _, by decide +kernel, by decide +kernel, by decide +kernel⟩

/-! ### The Front End -/

/-- A sample frame's payload of one zero sample with an index, with or without its entry mark. -/
def oneSample (index mark : Byte) : List Byte := [0, index, 1, 0, mark, 0, 0, 9]

/-- A state whose Front End is in a mode with an open window. -/
def weighing (mode : WindowMode) (w : Option OpenWindow) (s : State) : State :=
  { s with fe := { s.fe with mode := mode, window := w, expected := some 5, buffer := [1] } }

/-- An open window of 1 settle sample and 4 summed ones, `settled` and `summed` of them taken. -/
def opened (settled summed : Nat) : OpenWindow :=
  { entryIndex := 0, entryPos := 0, zero := 0, span := 65536, settle := 1, length := 4, minSamples := 3, band := 0
    settleCount := settled, count := summed }

theorem test_witness_sample_index :
    (handing .samples (station 0 (oneSample 5 0)) up).hands .samples (station 0 (oneSample 5 0)) [] ∧
      (32768 ≤ ((sampleFirst (oneSample 5 0) - 32773 : Word16)).toNat) ∧
      (sampleFirst (oneSample 5 0) - 32774 : Word16).toNat ≤ 32767 ∧ up.fe.expected = none ∧
      (weighing .silent none up).fe.mode = .silent ∧
      ((weighing .clear none up).fe.expected = some 5 ∧ (sampleFirst (oneSample 6 0) - 5 : Word16).toNat = 1 ∧
        (sampleFirst (oneSample 4 0) - 32773 : Word16).toNat = 32767 ∧ (weighing .occupied none up).fe.mode = .occupied ∧
        (weighing .zeroReading none up).fe.mode = .zeroReading ∧
        (weighing .settle (some (opened 0 0)) up).fe.window = some (opened 0 0)) :=
  ⟨handing_hands _ _ _, by decide +kernel, by decide +kernel, rfl, rfl, by decide +kernel⟩

theorem test_witness_samples_by_state :
    samplesOf (oneSample 5 0) = [(5, 9, false)] ∧ samplesOf (oneSample 5 1) = [(5, 9, true)] ∧
      (∀ s c, (handing .samples c s).hands .samples c []) ∧
      (weighing .clear none up).fe.expected = some 5 ∧ (weighing .occupied none up).fe.mode = .occupied ∧
      ((weighing .zeroReading none up).fe.mode = .zeroReading ∧ (weighing .zeroReading none up).fe.accCount + 1 < 32) ∧
      (weighing .settle (some (opened 0 0)) up).fe.window = some (opened 0 0) ∧
      ((weighing .window (some (opened 1 2)) up).fe.window = some (opened 1 2) ∧ (opened 1 2).count + 1 < (opened 1 2).length) ∧
      ((weighing .clear none filling).pu.active = some 3 ∧ filling.pu.table[3] = some can) ∧
      (weighing .window (some (opened 1 3)) up).pu.active = none ∧
      32 ≤ ({ (weighing .zeroReading none up).fe with accCount := 31 } : FrontEnd).accCount + 1 ∧
      (opened 1 3).length ≤ (opened 1 3).count + 1 ∧ (weighing .silent none up).fe.mode = .silent ∧
      ((weighing .settle (some (opened 0 0)) filling).fe.window = some (opened 0 0) ∧
        (weighing .settle (some (opened 0 0)) filling).pu.active = some 3 ∧ filling.pu.table[3] = some can) ∧
      ((weighing .clear none up).fe.mode = .clear ∧ (weighing .clear none up).pu.active = none) ∧
      (samplesOf [0, 5, 2, 0, 2, 0, 0, 9, 0, 0, 7] = (5, 9, false) :: [(6, 7, true)] ∧
        samplesOf (oneSample 5 0) = [(5, 9, false)] ∧ samplesOf [0, 6, 1, 0, 1, 0, 0, 7] = [(6, 7, true)]) :=
  ⟨by decide +kernel, by decide +kernel, fun s c => handing_hands .samples c s, by decide +kernel⟩

/-- A zero reading whose accumulator holds 32 samples. -/
def zeroing (sum : Int) (manual : Bool) : State :=
  { up with fe := { up.fe with mode := .zeroReading, accSum := sum, accCount := 32, manualZero := manual } }

theorem test_witness_zero_readings :
    let s (count : Nat) (raised : Bool) : State := { up with fe := { up.fe with beltClear := count, counted := raised } }
    ((s 200 true).fe.counted = true ∧ (s 200 true).fe.mode = .clear ∧
        (s 200 true).ma.setup.beltClearSamples ≤ (s 200 true).fe.beltClear) ∧
      (s 199 true).fe.beltClear < (s 199 true).ma.setup.beltClearSamples ∧ (s 200 false).fe.counted = false ∧
      ((zeroing 64000 false).fe.mode = .zeroReading ∧ 32 ≤ (zeroing 64000 false).fe.accCount ∧
        (roundDiv 64000 32 - (zeroing 64000 false).fe.workingZero).natAbs = (zeroing 64000 false).ma.setup.zeroTrackLimit) ∧
      (zeroing 64032 false).ma.setup.zeroTrackLimit < (roundDiv 64032 32 - (zeroing 64032 false).fe.workingZero).natAbs ∧
      (zeroing (-6400000) true).fe.manualZero = true ∧
      (roundDiv (-6400000) 32 - (zeroing (-6400000) true).fe.workingZero).natAbs =
        (zeroing (-6400000) true).ma.setup.zeroCaptureLimit ∧
      (zeroing 6400032 true).ma.setup.zeroCaptureLimit <
        (roundDiv 6400032 32 - (zeroing 6400032 true).fe.workingZero).natAbs := by decide +kernel

/-- R57, R75: belt-clear samples or a max age lowered below a standing count or age wait for the next sample and the next tick. -/
theorem test_lowered_setup_waits_for_a_sample_or_a_tick :
    let s := withSetup { beltClearSamples := 3, maxAge := 4 } (queued [{ record 1 .filled none none with age := 9 }]
      { up with fe := { up.fe with beltClear := 9, expected := some 5 } })
    (after .zeroReadingStart s).fe.mode = .clear ∧ (after .maxAgeRemoval s).tq.queue.length = 1 ∧
      (after .sampleFrame (handing .samples (station 0 (oneSample 5 0)) s)).fe.mode = .zeroReading ∧
      (pitchTick 0 s).tq.queue = [] := by decide +kernel

theorem test_witness_window_steps :
    ((weighing .settle (some (opened 1 0)) up).fe.window = some (opened 1 0) ∧
        (opened 1 0).settle ≤ (opened 1 0).settleCount ∧ (opened 0 0).settleCount < (opened 0 0).settle) ∧
      (weighing .window (some (opened 1 4)) up).fe.mode = .window ∧ (opened 1 3).count < (opened 1 3).length ∧
      (opened 1 4).length ≤ (opened 1 4).count := by decide +kernel

theorem test_witness_silence_expiries :
    up.pos.timer = some 50 ∧ up.jr.schedule = [] ∧ (scheduled [waiting 1 9] up).jr.schedule ≠ [] ∧ up.fe.timer = some 20 ∧
      up.fe.mode = .clear ∧ (weighing .zeroReading none up).fe.mode = .zeroReading ∧
      (weighing .settle (some (opened 0 0)) up).fe.window = some (opened 0 0) := by decide +kernel

/-- A window that opened without settle samples. -/
def entered : State :=
  weighing .window (some { opened 0 0 with settle := 0 }) filling

theorem test_witness_window_inv : entered.windowInv ∧ entered.bufferInv ∧ filling.tableInv := by
  refine ⟨?_, ⟨by decide +kernel, fun w hw => ?_⟩, fun k p hp => ?_⟩
  · unfold State.windowInv
    decide +kernel
  · have h : ∀ w ∈ entered.fe.window, w.settle + w.length ≤ 383 ∧ 1 ≤ w.length ∧
        (entered.fe.mode = .settle → w.settleCount < w.settle ∧ w.count = 0 ∧
          entered.fe.buffer.length = 1 + w.settleCount) ∧
        (entered.fe.mode = .window → w.count < w.length ∧ entered.fe.buffer.length = 1 + w.settle + w.count) := by
      decide +kernel
    exact h w hw
  · have h : ∀ k : Fin 16, ∀ p ∈ filling.pu.table[k], p.inRange = true ∧ p.related = true ∧ p.doseMax ≤ 65535 := by
      decide +kernel
    exact h k p hp

/-! ### The Tracking Queue -/

/-- A state that expects the next discharge with a sequence number. -/
def expecting (e : Byte) (s : State) : State :=
  { s with tq := { s.tq with dischargeExp := some e, seamExp := some e } }

theorem test_witness_discharges :
    (handing .discharge (station 7 [4, 0x04, 0xB0]) up).hands .discharge (station 7 [4, 0x04, 0xB0]) [] ∧
      up.tq.dischargeExp = none ∧ up.pu.active = none ∧ filling.pu.active = some 3 ∧ filling.tq.queue.length < 128 ∧
      (filling.ma.setup.valveCount ≤ 96 ∧ 95 < 96) ∧ dischargeValve [96, 0, 0] = 96 ∧
      ((95 : Fin Config.valves).val = dischargeValve [95, 0, 0] ∧ 95 < filling.ma.setup.valveCount) ∧
      (up.rm.tracking ≠ .synced ∧ (expecting 246 up).tq.dischargeExp = some 246 ∧ ((7 : Byte) - 246).toNat = 17 ∧
        ({ up with rm := { up.rm with tracking := .synced } } : State).rm.tracking = .synced) :=
  ⟨handing_hands _ _ _, by decide +kernel⟩

theorem test_witness_discharge_gaps :
    (handing .discharge (station 7 [4, 0x04, 0xB0]) (expecting 6 filling)).hands .discharge (station 7 [4, 0x04, 0xB0]) [] ∧
      ((expecting 6 filling).tq.dischargeExp = some 6 ∧ ((7 : Byte) - 6).toNat = 1 ∧ ((7 : Byte) - 247).toNat = 16 ∧
        (expecting 247 filling).tq.queue.length + 16 < 128) ∧
      ((7 : Byte) - 246).toNat = 17 ∧
      ((expecting 7 (queued (List.replicate 128 (record 1 .filled none none)) filling)).tq.queue.length = 128 ∧
        (expecting 7 filling).tq.dischargeExp = some 7 ∧ filling.rc.ring.length ≤ 32) ∧
      (List.replicate 127 (record 1 .filled none none)).length + 1 = 128 ∧
      (List.replicate 112 (record 1 .filled none none)).length + 16 = 128 ∧
      ((expecting 246 (queued (List.replicate 128 (record 1 .filled none none)) filling)).tq.queue.length = 128 ∧
        filling.ma.setup.freezeOnLost = true ∧ filling.rm.tracking ≠ .synced ∧
        ({ filling with rm := { filling.rm with tracking := .synced } } : State).rm.tracking = .synced) :=
  ⟨handing_hands _ _ _, by decide +kernel⟩

theorem test_witness_seams :
    let r := record 1 .coded (some 5) none
    let f := record 2 .filled none none
    (handing .seam (station 7 [3]) (queued [r, f] up)).hands .seam (station 7 [3]) [] ∧
      (([r, f] : List CanRecord) = [r] ++ [] ++ f :: [] ∧ (∀ x ∈ [r], x.stage ≠ .filled) ∧ f.stage = .filled ∧
        up.tq.seamExp = none) ∧
      (([r] ++ List.replicate 17 f : List CanRecord) = [r] ++ List.replicate 16 f ++ f :: [] ∧
        ((7 : Byte) - 247).toNat = 16 ∧ ∀ x ∈ List.replicate 16 f, x.stage = .filled) ∧
      (up.ma.setup.coder = 255 ∧ (withSetup { coder := 20 } up).ma.setup.coder ≠ 255 ∧
        (up.fp.port up.ma.setup.coderPort).linkUp = true ∧ (up.fp.port up.ma.setup.coderPort).printTag.length < 4 ∧
        (State.reset.fp.port State.reset.ma.setup.coderPort).linkUp = false) ∧
      (∀ x ∈ (queued [r] up).tq.queue, x.stage ≠ .filled) ∧ 17 ≤ ((7 : Byte) - 246).toNat ∧
      (([r, f] : List CanRecord) = [r] ++ [f] ++ [] ∧ (expecting 6 up).tq.seamExp = some 6 ∧
        ([f] : List CanRecord).length ≤ ((7 : Byte) - 6).toNat) :=
  ⟨handing_hands _ _ _, by decide +kernel⟩

theorem test_witness_aged_records :
    let s := queued [{ record 1 .filled none none with age := 201 }, { record 2 .filled none none with age := 200 }] up
    s.rc.ring.length ≤ 32 ∧ ({ s with tq := { s.tq with ticked := some 150 } } : State).tq.ticked = some 150 ∧
      s.tq.ticked = none ∧
      (s.tq.queue.filter fun r => decide (s.ma.setup.maxAge < r.age)) = [{ record 1 .filled none none with age := 201 }] := by
  decide +kernel

theorem test_witness_window_result :
    let w := weighed (some 352436) 0
    let r := record 2 .passed (some 5) (some .read)
    let s : State := queued [record 1 .coded (some 4) none, r] { filling with fe := { filling.fe with results := [w] } }
    s.fe.results = w :: [] ∧ s.tq.queue = [record 1 .coded (some 4) none] ++ r :: [] ∧
      (∀ x ∈ [record 1 .coded (some 4) none], x.stage ≠ .passed) ∧ r.stage = .passed ∧
      classOf s.pu.table[r.product] s.rm.tracking r.readResult w = .unverified ∧
      s.jr.policy[classIndex .unverified] = true ∧ s.jr.policy[classIndex .ok] = false ∧
      (∀ x ∈ (queued [] s).tq.queue, x.stage ≠ .passed) ∧ s.jr.policy[0] = true ∧
      (s.rc.ring.length ≤ 32 ∧ s.rc.burst.length ≤ 32 ∧ s.te.trimHold = s.holdsTrim) := by decide +kernel

/-- R111, R112, R120: a reject that is ahead joins PENDING at its boundary, raising Line Stop Request while ENCODER_FAULT stands;
one behind Line Position fires at once, or is lost without a rejector. -/
theorem test_rejects_join_the_schedule :
    let w := weighed none 0
    let s (l : Word32) (rejector : Byte) (fault : Bool) : State := withSetup { rejector := rejector } { filling with
      pos := { filling.pos with linePos := l, fault := fault }, fe := { filling.fe with results := [w] } }
    let t := (after .windowResult (s 9999 30 true)).jr
    let u := (after .windowResult (s 10000 30 false)).jr
    let v := (after .windowResult (s 10000 255 false)).jr
    (t.schedule = [{ number := none, cls := .orphan, firePos := 10000, fired := false, deadline := none, late := false }] ∧
        t.lineStop = true) ∧
      (u.schedule = [{ number := none, cls := .orphan, firePos := 10000, fired := true, deadline := some 12000, late := true }] ∧
        u.lineStop = false ∧ u.counters.late = 1 ∧ u.counters.fired = 1) ∧
      v.schedule = [] ∧ v.lineStop = true ∧ v.counters.late = 1 ∧ v.counters.lost = 1 := by decide +kernel

/-- Valve 17 collects, armed with its countdown at `n`, under Trim Mode AUTO and a SYNCED Tracking State. -/
def armed (n : Nat) (slots : Vector Slot 4) (order : List (Fin 4)) : State :=
  let s := valve 17 { state := .collecting, countdown := n, armed := true } (some 1196) 42 { filling with
    rm := { filling.rm with tracking := .synced }
    te := { filling.te with
      mode := .auto, table := filling.te.table.set 17 { mode := .auto, fixedTrim := 0, captureInterval := 3 } } }
  { s with rc := { s.rc with slots := slots, order := order } }

/-- A passed can of valve 17 that was filled at the value standing as E. -/
def settledCan : CanRecord :=
  { record 2 .passed (some 5) (some .read) with valve := some 17, settled := true, epoch := 42 }

/-- A slot with a STORED capture. -/
def full : Slot :=
  .stored { captureNumber := 0, record := settledCan, cls := .ok, net := none, late := false, scheduled := false
            result := weighed none 0 }

theorem test_witness_window_result_of_a_valve :
    let s := armed 1 (Vector.replicate 4 full) [2, 0, 1, 3]
    let w := weighed (some 352436) 0
    ((s.te.mode = .auto ∧ s.te.trimHold = false) ∧ s.te.valves[17].state = .collecting ∧ settledCan.settled = true ∧
      settledCan.epoch = s.rw.epoch[17] ∧
      classOf s.pu.table[settledCan.product] s.rm.tracking settledCan.readResult w = .ok ∧ w.short = false ∧
      s.pu.active = some settledCan.product) ∧
      (settledCan.valve = some 17 ∧ s.te.trimHold = s.holdsTrim ∧
        netWeight s.pu.table[settledCan.product] w = some 338486 ∧ s.pu.table[settledCan.product] = some can) ∧
      (s.te.table[17].captureInterval = 3 ∧ s.te.valves[17].countdown = 1 ∧ s.te.valves[17].armed = true ∧
        (armed 2 (Vector.replicate 4 full) []).te.valves[17].countdown = 2) ∧
      ((∀ j : Fin 4, s.rc.slots[j] ≠ .empty) ∧ s.ma.setup.captureWrap = false ∧
        (withSetup { captureWrap := true } s).ma.setup.captureWrap = true ∧ s.rc.order = [] ++ 2 :: [0, 1, 3] ∧
        s.rc.slots[2].isStored = true) ∧
      ((armed 2 (#v[full, full, full, .empty]) [0, 1, 2]).rc.slots[3] = .empty ∧
        ∀ j : Fin 4, j < 3 → (armed 2 (#v[full, full, full, .empty]) [0, 1, 2]).rc.slots[j] ≠ .empty) := by
  decide +kernel

/-- R174, R175: the can of an armed valve with the countdown at 2 is stored in the EMPTY slot and disarms its valve. -/
theorem test_armed_can_is_captured :
    let s := queued [settledCan] (armed 2 (#v[full, full, full, .empty]) [0, 1, 2])
    let t := after .windowResult { s with fe := { s.fe with results := [weighed (some 352436) 0] } }
    t.rc.slots[3].isStored = true ∧ t.rc.order = [0, 1, 2, 3] ∧ t.rc.captureNumber = 1 ∧ t.te.valves[17].countdown = 1 ∧
      t.te.valves[17].armed = false ∧ t.te.valves[17].n = 1 ∧ t.te.valves[17].eAvg = 16 * 986 := by decide +kernel

/-- A state with a record of each stage and a FIRED and a PENDING entry. -/
def busy : State :=
  scheduled [firedEntry 1 100 400, waiting 2 500] (queued [record 1 .passed (some 4) (some .read),
    record 2 .coded (some 5) none, record 3 .filled none none] filling)

theorem test_witness_queue_and_reject_inv : busy.productInv ∧ busy.queueInv ∧ busy.rejectInv := by
  refine ⟨⟨fun k hk => ?_, by decide +kernel⟩, ?_, ?_⟩
  · have h : ∀ k ∈ busy.pu.active, busy.pu.table[k].isSome = true := by decide +kernel
    exact h k hk
  · unfold State.queueInv CanRecord.wellStaged
    decide +kernel
  · unfold State.rejectInv
    decide +kernel

/-- The busy state with its counters behind its records. -/
def ordered : State :=
  { busy with tq := { busy.tq with canCounter := 4, tagCounter := 6 } }

theorem forall_splits {α : Type} {P : α → List α → Prop} {q : List α}
    (h : ∀ l ∈ q.tails, ∀ r ∈ l.head?, P r l.tail) : ∀ before after r, q = before ++ r :: after → P r after :=
  fun before after r e => h (r :: after) ((List.mem_tails _ _).2 ⟨before, e.symm⟩) r rfl

theorem test_witness_order_inv : ordered.orderInv ∧ ordered.setupInv ∧ ordered.queueInv := by
  refine ⟨⟨?_, forall_splits ?_⟩, ?_, ?_⟩
  · have h : ordered.tq.queue.Pairwise (fun x y =>
        y.stage.rank ≤ x.stage.rank ∧ y.age ≤ x.age ∧ ordered.tq.cansSince y.number < ordered.tq.cansSince x.number ∧
          x.tag.all (fun a => decide (y.tag.all (fun b =>
            decide (a ≠ 4095 → b ≠ 4095 → ordered.tq.tagsSince b < ordered.tq.tagsSince a)) = true)) = true) := by
      decide +kernel
    exact h.imp fun hp => ⟨hp.1, hp.2.1, hp.2.2.1, fun a b ha hb => of_all (of_all hp.2.2.2 a ha) b hb⟩
  · have h : ∀ l ∈ ordered.tq.queue.tails, l.head?.all (fun r => decide (1 ≤ ordered.tq.cansSince r.number ∧
        ordered.tq.cansSince r.number ≤ cansSpanned (r :: l.tail) ∧
        (r.stage ≠ .passed → ordered.tq.cansSince r.number = (r :: l.tail).length) ∧
        r.tag.all (fun tag => decide (tag ≠ 4095 → tag.toNat ≤ 4094 ∧
          ordered.tq.tagsSince tag + ordered.tq.queue.countP CanRecord.isFilled ≤ ordered.tq.cansSince r.number)) =
            true)) = true := by
      decide +kernel
    intro l hl r hr
    have k := of_all (h l hl) r hr
    exact ⟨k.1, k.2.1, k.2.2.1, of_all k.2.2.2⟩
  · unfold State.setupInv
    decide +kernel
  · unfold State.queueInv CanRecord.wellStaged
    decide +kernel

/-- At Line Position 450 a FIRED and a PENDING entry of cans that have left the queue, and a Window Result of position 400. -/
def scheduling : State :=
  onLine 450 300 0 (scheduled [firedEntry 1 100 500, waiting 2 600] { up with
    tq := { up.tq with canCounter := 4 }, fe := { up.fe with results := [weighed none 400] } })

theorem test_witness_schedule_inv : scheduling.scheduleInv ∧
    (∀ w ∈ scheduling.fe.results, (scheduling.pos.linePos - w.entryPos).toNat < 1073741824) ∧
    ∀ e ∈ scheduling.jr.schedule, ∀ n, e.number = some n →
      1 ≤ scheduling.tq.cansSince n ∧ scheduling.tq.cansSince n ≤ 2147483648 := by
  refine ⟨⟨?_, by decide +kernel, fun g hg => ?_, fun e he => ⟨?_, fun hf => ?_⟩, by decide +kernel, by decide +kernel,
    by decide +kernel⟩, by decide +kernel, fun e he n hn => ?_⟩
  · unfold LineSetup.fits
    decide +kernel
  · exact of_all (p := fun g => g.1 ≤ 65535) (by decide +kernel) g hg
  · exact (by decide +kernel : ∀ e ∈ scheduling.jr.schedule, e.fired = false →
      1 ≤ (e.firePos - scheduling.pos.linePos).toNat ∧ (e.firePos - scheduling.pos.linePos).toNat ≤ 33554432) e he
  · have h : ∀ e ∈ scheduling.jr.schedule, e.fired = true → e.deadline = some 500 ∧
        1 ≤ (500 - scheduling.pos.linePos).toNat ∧
          (scheduling.pos.linePos - e.firePos).toNat + (500 - scheduling.pos.linePos).toNat ≤ 65535 := by
      decide +kernel
    exact ⟨500, h e he hf⟩
  · have h : ∀ e ∈ scheduling.jr.schedule, e.number.all (fun n =>
        decide (1 ≤ scheduling.tq.cansSince n ∧ scheduling.tq.cansSince n ≤ 2147483648)) = true := by
      decide +kernel
    exact of_all (h e he) n hn

theorem test_witness_schedule_inv_others : scheduling.setupInv ∧ scheduling.positionInv ∧ scheduling.queueInv ∧
    scheduling.orderInv ∧ scheduling.rejectInv := by
  refine ⟨?_, ⟨by decide +kernel, by decide +kernel, fun g hg => ?_, by decide +kernel⟩, ?_,
    ⟨by decide +kernel, fun before after r e => ?_⟩, ?_⟩
  · unfold State.setupInv
    decide +kernel
  · exact of_all (p := fun g => g.2 < g.1) (by decide +kernel) g hg
  · unfold State.queueInv CanRecord.wellStaged
    decide +kernel
  · have h : scheduling.tq.queue = [] := by decide +kernel
    rw [h] at e
    exact absurd e (by simp)
  · unfold State.rejectInv
    decide +kernel

/-! ### The Reader Matcher -/

/-- The READ payload of a lot and a tag text. -/
def codeText (tag : List Byte) : List Byte := [1, 12] ++ can.currentLot ++ [0x20] ++ tag

theorem test_witness_reads_parsed :
    (byteAt [(0 : Byte), 0] 0).toNat = 0 ∧ 2 ≤ (byteAt [(2 : Byte), 0] 0).toNat ∧
      ((byteAt [(1 : Byte), 0] 0).toNat = 1 ∧ (bytesAt [(1 : Byte), 0] 2 0).length ≠ ({} : LineSetup).codeLength) ∧
      ((byteAt (codeText [0x30, 0x3A, 0x30]) 0).toNat = 1 ∧
        (readText (codeText [0x30, 0x3A, 0x30])).length = ({} : LineSetup).codeLength ∧
        (0x3A : Byte) ∈ bytesAt (readText (codeText [0x30, 0x3A, 0x30])) ({} : LineSetup).tagStart 3) ∧
      (bytesAt (readText (codeText [0x46, 0x46, 0x46])) ({} : LineSetup).tagStart 3 =
          [BitVec.ofNat 8 (0x41 + ((4095 : Tag).toNat / 256 - 10)), BitVec.ofNat 8 (0x41 + ((4095 : Tag).toNat / 16 % 16 - 10)),
            BitVec.ofNat 8 (0x41 + ((4095 : Tag).toNat % 16 - 10))]) := by decide +kernel

/-- A state whose Tracking Queue holds records coded with tags 5, 6 and 7 behind a passed one with tag 4. -/
def reading : State :=
  queued [record 1 .passed (some 4) (some .read), record 2 .coded (some 5) none, record 3 .coded (some 6) none,
    record 4 .coded (some 7) none] filling

/-- The READ payload of a tag below 10. -/
def tagText (n : Byte) : List Byte := codeText [0x30, 0x30, 0x30 + n]

theorem test_witness_reads_matched :
    (∀ c, (handing .read c reading).hands .read c []) ∧ reading.rm.expectation = none ∧
      reading.tq.queue = [record 1 .passed (some 4) (some .read)] ++ record 2 .coded (some 5) none ::
        ([record 3 .coded (some 6) none] ++ record 4 .coded (some 7) none :: []) ∧
      (∀ x ∈ [record 1 .passed (some 4) (some .read)], x.stage ≠ .coded) ∧
      parseRead reading.ma.setup (tagText 5) = (.tag 5 can.currentLot, false) ∧
      parseRead reading.ma.setup [0, 0] = (.noRead, false) ∧
      parseRead reading.ma.setup (codeText [0x46, 0x46, 0x46]) = (.null, false) ∧
      (parseRead reading.ma.setup (tagText 9) = (.tag 9 can.currentLot, false) ∧
        ∀ x ∈ reading.tq.queue, x.tag ≠ some 9) ∧
      (parseRead reading.ma.setup (tagText 7) = (.tag 7 can.currentLot, false) ∧ [record 3 .coded (some 6) none].length + 1 ≤
        ({ lookahead := 2 } : LineSetup).lookahead ∧ reading.rc.ring.length ≤ 32) ∧
      (can.currentLot.take reading.ma.setup.lotLength = can.currentLot ∧
        (({ can with previousLot := some [1, 2, 3, 4, 5, 6, 7, 8] } : Product).previousLot = some [1, 2, 3, 4, 5, 6, 7, 8]) ∧
        (reading.rm.lotBoundary[3] + BitVec.ofNat 32 reading.ma.setup.lotGrace - 63).toNat = 1 ∧
        (reading.rm.lotBoundary[3] + BitVec.ofNat 32 reading.ma.setup.lotGrace - 64).toNat = 0) :=
  ⟨fun c => handing_hands .read c reading, by decide +kernel⟩

theorem test_witness_read_gaps :
    let s (e : Byte) : State := { reading with rm := { reading.rm with expectation := some e } }
    (∀ c e, (handing .read c (s e)).hands .read c []) ∧ (s 6).rm.expectation = some 6 ∧
      (((7 : Byte) - 6).toNat = 1 ∧ ((7 : Byte) - 247).toNat = 16 ∧ 17 ≤ ((7 : Byte) - 246).toNat) ∧
      ((s 6).tq.queue = [record 1 .passed (some 4) (some .read)] ++ [record 2 .coded (some 5) none] ++
        [record 3 .coded (some 6) none, record 4 .coded (some 7) none] ∧ [record 2 .coded (some 5) none].length = 1) ∧
      ((s 247).tq.queue = [record 1 .passed (some 4) (some .read)] ++
        [record 2 .coded (some 5) none, record 3 .coded (some 6) none, record 4 .coded (some 7) none] ++ [] ∧ 3 < 16) :=
  ⟨fun c e => handing_hands .read c _, by decide +kernel⟩

/-- R87, R91: a gap of 16 marks the three CODED records UNREAD; the frame's own read is an orphan then. -/
theorem test_read_gap_of_16 :
    let t := after .readFrame (handing .read (station 7 [0, 0])
      { reading with rm := { reading.rm with expectation := some 247 } })
    t.tq.queue.map (fun r => r.readResult) = [some .read, some .unread, some .unread, some .unread] ∧
      t.rm.counters.lostReads = 16 ∧ t.rm.counters.orphan = 14 ∧ t.rm.unreadRun = 3 := by decide +kernel

theorem test_witness_orphan_and_duplicate_reads :
    (∀ x ∈ up.tq.queue, x.stage ≠ .coded) ∧ parseRead reading.ma.setup (tagText 4) = (.tag 4 can.currentLot, false) ∧
      reading.tq.queue.filter (fun x => x.stage == .coded) =
        record 2 .coded (some 5) none :: [record 3 .coded (some 6) none, record 4 .coded (some 7) none] ∧
      (∀ y ∈ [record 3 .coded (some 6) none, record 4 .coded (some 7) none].take reading.ma.setup.lookahead, y.tag ≠ some 4) ∧
      ∃ x ∈ reading.tq.queue, x.stage = .passed ∧ x.tag = some 4 := by decide +kernel

/-- A state with a Tracking State, its two runs and the run that has risen. -/
def tracking (st : TrackingState) (clean unread : Nat) (risen : Option Run) (s : State) : State :=
  { s with rm := { s.rm with tracking := st, cleanRun := clean, unreadRun := unread, risen := risen } }

theorem test_witness_tracking_thresholds :
    (let s := tracking .lost 8 0 (some .clean) up;
      s.rm.risen = some .clean ∧ s.rm.tracking ≠ .synced ∧ s.ma.setup.syncReads ≤ s.rm.cleanRun) ∧
      (let s := tracking .lost 7 0 (some .clean) up;
        s.rm.risen = some .clean ∧ s.rm.cleanRun < s.ma.setup.syncReads) ∧
      (let s := tracking .synced 0 4 (some .unread) up;
        s.rm.risen = some .unread ∧ s.rm.tracking = .synced ∧ s.ma.setup.unreadLimit ≤ s.rm.unreadRun ∧
          s.ma.setup.freezeOnLost = true ∧ s.rc.freeze ≠ .alarm ∧
          (withSetup { freezeOnLost := false } s).ma.setup.freezeOnLost = false) ∧
      (let s := tracking .synced 0 3 (some .unread) up;
        s.rm.risen = some .unread ∧ s.rm.unreadRun < s.ma.setup.unreadLimit) ∧
      up.rm.risen = none := by decide +kernel

/-- R98, R100: without an increase no comparison is made, so a lowered limit changes nothing by itself. -/
theorem test_lowered_limit_waits_for_an_increase :
    (after .trackingSynced (tracking .lost 8 0 none up)).rm.tracking = .lost ∧
      (after .trackingLost (tracking .synced 0 4 none up)).rm.tracking = .synced := by decide +kernel

/-! ### Judgement and rejection -/

theorem test_witness_class_follows_table :
    (338486 : Int) = max (-2147483648) (min ((weighed (some 352436) 0).gross.getD 0 - can.tare) 2147483647) := by decide +kernel

theorem test_witness_fire_position :
    let p := (onLine 0 0 0 up).pos
    p.phase < p.pitch ∧ p.pitch ≤ 65535 ∧ ((1009830 : Word32) = 1000230 + BitVec.ofNat 32 9600 ∧
      (1009830 : Word32).toNat ≤ (firePosition p 9600 1000230).toNat) ∧
      ((4294967295 : Word32) = 4294957695 + BitVec.ofNat 32 9600 ∧
        (firePosition p 9600 4294957695).toNat < (4294967295 : Word32).toNat) := by decide +kernel

theorem test_witness_reject_fires :
    let s := withSetup { rejector := 30 } (onLine 500 350 0 (scheduled [firedEntry 1 100 500, waiting 2 500] up))
    s.jr.schedule = [firedEntry 1 100 500] ++ waiting 2 500 :: [] ∧ (∀ x ∈ [firedEntry 1 100 500], x.fired = true) ∧
      atOrAfter s.pos.linePos (waiting 2 500).firePos = true ∧ s.ma.setup.rejector ≠ 255 ∧
      (s.fp.port s.ma.setup.rejectorPort).linkUp = true ∧ (s.fp.port s.ma.setup.rejectorPort).reject.length < 4 ∧
      up.ma.setup.rejector = 255 ∧
      (s.jr.schedule = [] ++ firedEntry 1 100 500 :: [waiting 2 500] ∧ (firedEntry 1 100 500).deadline = some 500 ∧
        atOrAfter s.pos.linePos 500 = true) ∧
      s.ma.setup.freezeOnUnconfirmed = true ∧ s.rc.freeze ≠ .alarm := by decide +kernel

theorem test_witness_advance :
    let s := onLine 500 350 0 (scheduled [waiting 2 501, waiting 3 33267] up)
    (handing .encoder (station 0 [0x7F, 0xFF]) s).hands .encoder (station 0 [0x7F, 0xFF]) [] ∧ s.pos.lastCount = some 0 ∧
      (encoderCount [0x7F, 0xFF] - 0).toNat = 32767 ∧ (encoderCount [0, 1] - 0).toNat = 1 ∧
      ∃ t, exec .encoderFrame s = .next t :=
  ⟨handing_hands _ _ _, rfl, by decide +kernel, by decide +kernel, ⟨_, rfl⟩⟩

theorem test_witness_confirms :
    let s := scheduled [firedEntry 1 100 400, waiting 3 600, firedEntry 2 200 500] up
    (handing .confirm (station 7 []) s).hands .confirm (station 7 []) [] ∧ s.jr.confirmExp = none ∧
      s.jr.schedule.filter (fun e => e.fired) = [firedEntry 1 100 400, firedEntry 2 200 500] ∧
      (min 1 2 < 2 ∧ min 16 2 = 2 ∧ ((7 : Byte) - 6).toNat = 1 ∧ ((7 : Byte) - 247).toNat = 16 ∧
        17 ≤ ((7 : Byte) - 246).toNat) :=
  ⟨handing_hands _ _ _, rfl, by decide, by decide⟩

theorem test_witness_line_stop :
    let s : State := { up with jr := { up.jr with lineStop := true } }
    s.jr.lineStop = true ∧ s.pending = [] ∧ (∃ t, exec (.linkUp .a) s = .next t) ∧ ∃ t, step s = .next t :=
  ⟨rfl, rfl, ⟨_, rfl⟩, ⟨_, rfl⟩⟩

/-! ### Valves, trims and products -/

theorem test_witness_trim_decisions :
    can.inRange = true ∧ can.related = true ∧ can.trimMin ≤ -120 ∧ (120 : Int) ≤ can.trimMax ∧
      (trimDecision can 0 { trim := 120, n := 12, eAvg := -9601 }).1.limit = true ∧
      (trimDecision can 0 { trim := -120, n := 12, eAvg := -9601 }).2 = true ∧
      (trimDecision can 0 { trim := 3, n := 11, eAvg := 14292 }).2 = false ∧
      (trimDecision can 0 { trim := 3, n := 12, eAvg := 9600, limit := true }).1.limit = false := by decide +kernel

/-- Product 3 active under Trim Mode AUTO, with the record of valve 17. -/
def trimming (r : ValveRecord) (e : Option Word16) : State :=
  valve 17 r e 42 { filling with te := { filling.te with mode := .auto } }

theorem test_witness_follow_check :
    (∀ s, (handing .discharge (station 7 [17, 0x04, 0xAC]) s).hands .discharge (station 7 [17, 0x04, 0xAC]) []) ∧
      let s := trimming { unsettledRun := 30 } (some 1196)
      s.tq.dischargeExp = none ∧ s.pu.active = some 3 ∧ s.tq.queue.length < 128 ∧
        (17 : Fin Config.valves).val = dischargeValve [17, 0x04, 0xAC] ∧ 17 < s.ma.setup.valveCount ∧
        (s.te.mode ≠ .off ∧ s.te.table[17].mode = .auto ∧ s.te.valves[17].state = .settling) ∧
        s.rw.expected[17] = some (dischargeSetPoint [17, 0x04, 0xAC]) ∧
        (some 1196 : Option Word16) ≠ some (dischargeSetPoint [17, 0x04, 0xAB]) ∧ s.te.valves[17].unsettledRun + 1 < 32 ∧
        32 ≤ (trimming { unsettledRun := 31 } (some 1196)).te.valves[17].unsettledRun + 1 ∧
        (trimming {} none).rw.expected[17] = none ∧ filling.te.mode = .off :=
  ⟨fun s => handing_hands _ _ s, by decide +kernel⟩

theorem test_witness_trim_commands :
    (∀ s, (running [0x22, 0, 2] s).executes .trimControl (command [0x22, 0, 2])) ∧
      (∀ s, (running [0x22, 0, 4] s).executes .trimControl (command [0x22, 0, 4])) ∧
      (∀ s, (running [0x22, 0, 3, 95] s).executes .releaseValve (command [0x22, 0, 3, 95])) ∧
      (∀ s, (running [0x22, 0, 3, 96] s).executes .releaseValve (command [0x22, 0, 3, 96])) ∧
      (command [0x22, 0, 2]).args = trimModeCode .auto :: [] ∧ filling.te.trimHold = filling.holdsTrim ∧
      filling.te.mode ≠ .auto ∧ (command [0x22, 0, 3, 95]).args = 3 :: 95 :: [] ∧ filling.ma.load = none ∧
      (valve 95 { state := .fault } none 0 filling).te.valves[95].state = .fault ∧ filling.te.valves[95].state ≠ .fault :=
  ⟨fun s => running_executes s _ _ (by decide), fun s => running_executes s _ _ (by decide),
    fun s => running_executes s _ _ (by decide), fun s => running_executes s _ _ (by decide), by decide +kernel⟩

theorem test_witness_valve_events :
    (95 : Byte).toNat = (95 : Fin Config.valves).val ∧
      (let s := valve 95 { state := .collecting, unsettledRun := 32 } none 0 filling;
        95 < s.ma.setup.valveCount ∧ s.te.table[95].mode = .auto ∧ s.te.valves[95].state = .collecting ∧
          32 ≤ s.te.valves[95].unsettledRun) ∧
      (valve 95 { unsettledRun := 31 } none 0 filling).te.valves[95].unsettledRun < 32 ∧
      (let s : State := { filling with te := { filling.te with table := filling.te.table.set 95 { captureInterval := 1 } } };
        s.te.table[95].captureInterval ≠ 0 ∧ s.te.valves[95].countdown = 0) ∧
      filling.te.table[95].captureInterval = 0 := by decide +kernel

theorem test_witness_valve_inv : filling.valveInv ∧ filling.productInv ∧ filling.flagInv := by
  refine ⟨fun v => ?_, ⟨fun k hk => ?_, by decide +kernel⟩, ?_⟩
  · have h : ∀ v : Fin Config.valves, (v.val < filling.ma.setup.valveCount ∧ filling.te.table[v].mode = .auto) ∧
        filling.te.valves[v] = {} := by decide +kernel
    have hp : filling.activeProduct = some can := by decide +kernel
    unfold State.valveStateOk
    rw [if_pos (h v).1.1, (h v).1.2, (h v).2, hp]
    unfold trimOk
    decide +kernel
  · have h : ∀ k ∈ filling.pu.active, filling.pu.table[k].isSome = true := by decide +kernel
    exact h k hk
  · unfold State.flagInv
    decide +kernel

theorem test_witness_product_commands :
    (∀ s, (running [0x20, 0, 3] s).executes .selectProduct (command [0x20, 0, 3])) ∧
      (∀ s, (running [0x20, 0, 255] s).executes .selectProduct (command [0x20, 0, 255])) ∧
      (∀ s, (running [0x20, 0, 16] s).executes .selectProduct (command [0x20, 0, 16])) ∧
      (∀ s, (running [0x20, 0, 15] s).executes .selectProduct (command [0x20, 0, 15])) ∧
      (∀ s, (running (0x21 :: 0 :: can.currentLot) s).executes .setLot (command (0x21 :: 0 :: can.currentLot))) ∧
      filling.ma.load = none ∧ (filling.pu.table[3] = some can ∧ filling.pu.table[15] = none ∧ filling.pu.active = some 3) ∧
      8 ≤ (command (0x21 :: 0 :: can.currentLot)).args.length ∧ up.pu.active = none :=
  ⟨fun s => running_executes s _ _ (by decide), fun s => running_executes s _ _ (by decide),
    fun s => running_executes s _ _ (by decide), fun s => running_executes s _ _ (by decide),
    fun s => running_executes s _ _ (by decide +kernel), by decide +kernel⟩

theorem test_witness_average_inv : (trimming { state := .collecting, n := 12, eAvg := 16 * 17500 } none).averageInv := by
  intro v
  have ha : (trimming { state := .collecting, n := 12, eAvg := 16 * 17500 } none).activeProduct = some can := by
    decide +kernel
  have h : ∀ v : Fin Config.valves,
      (trimming { state := .collecting, n := 12, eAvg := 16 * 17500 } none).te.valves[v] =
        if v = 17 then { state := .collecting, n := 12, eAvg := 16 * 17500 } else {} := by decide +kernel
  rw [ha, h v]
  by_cases hv : v = 17
  · rw [if_pos hv]
    decide +kernel
  · rw [if_neg hv]
    decide +kernel

/-! ### Ring and Capture -/

/-- A frozen ring. -/
def frozen : State :=
  { filling with rc := { filling.rc with freeze := .command, cause := some .command } }

/-- A capture with 65 samples. -/
def capture : Capture :=
  { captureNumber := 500, record := record 1 .passed (some 5) (some .read), cls := .ok, net := none, late := false
    scheduled := false, result := { weighed none 0 with samples := List.replicate 65 7 } }

/-- Upload on, collector 30, a STORED capture in slot 2. -/
def stored : State :=
  withSetup { collector := 30, upload := true } { filling with rc := { filling.rc with
    slots := filling.rc.slots.set 2 (.stored capture), order := [2], captureReady := true } }

/-- The upload of slot 2 at a segment of two. -/
def uploading (next : Nat) : State :=
  withSetup { collector := 30, upload := true } { filling with rc := { filling.rc with
    slots := filling.rc.slots.set 2 (.uploading capture), order := [2], engine := .uploading 2 next 2 } }

theorem test_witness_ring_and_capture_commands :
    (∀ s, (running [0x41, 0] s).executes .ringFreeze (command [0x41, 0])) ∧
      (∀ s, (running [0x42, 0] s).executes .ringThaw (command [0x42, 0])) ∧
      (∀ s, (running [0x43, 0, 1] s).executes .captureControl (command [0x43, 0, 1])) ∧
      (∀ s, (running [0x43, 0, 2] s).executes .captureControl (command [0x43, 0, 2])) ∧
      (∀ s, (running [0x44, 0] s).executes .captureDiscard (command [0x44, 0])) ∧
      filling.te.trimHold = filling.holdsTrim ∧ filling.rc.freeze = .notFrozen ∧ frozen.rc.freeze ≠ .notFrozen ∧
      frozen.te.trimHold = frozen.holdsTrim ∧ filling.ma.load = none ∧ 1 ≤ stored.ma.setup.captureThreshold :=
  ⟨fun s => running_executes s _ _ (by decide), fun s => running_executes s _ _ (by decide),
    fun s => running_executes s _ _ (by decide), fun s => running_executes s _ _ (by decide),
    fun s => running_executes s _ _ (by decide), by decide +kernel⟩

theorem test_witness_upload :
    (stored.rc.engine = .idle ∧ stored.ma.setup.upload = true ∧ stored.ma.setup.collector ≠ 255 ∧
        stored.rc.order = [] ++ 2 :: [] ∧ stored.rc.slots[2] = .stored capture) ∧
      (uploading 0).rc.engine ≠ .idle ∧
      ((uploading 0).rc.engine = .uploading 2 0 2 ∧ (uploading 1).rc.engine = .uploading 2 1 2 ∧
        (uploading 0).rc.slots[2] = .uploading capture ∧ (uploading 0).fp.holdStanding = false ∧
        ((uploading 0).fp.port (uploading 0).ma.setup.collectorPort).linkUp = true ∧
        ((uploading 0).fp.port (uploading 0).ma.setup.collectorPort).capture.length < 2) ∧
      (State.reset.fp.port .a).linkUp = false := by decide +kernel

theorem test_witness_frozen_ring :
    frozen.rc.freeze ≠ .notFrozen ∧ frozen.pending = [] ∧ (∃ t, exec .windowResult frozen = .next t) ∧
      ∃ t, step frozen = .next t :=
  ⟨by decide +kernel, rfl, ⟨_, rfl⟩, ⟨_, rfl⟩⟩

theorem test_witness_ring_inv : (uploading 0).ringInv := by
  refine ⟨by decide +kernel, by decide +kernel, by decide +kernel, fun i => ?_, by decide +kernel, by decide +kernel⟩
  have h : (uploading 0).rc.engine = .uploading 2 0 2 ∧
      ∀ i : Fin 4, (uploading 0).rc.slots[i].isUploading = true ↔ i = 2 := by decide +kernel
  rw [h.2 i, h.1]
  exact ⟨fun e => ⟨0, 2, by rw [e]⟩, fun ⟨_, _, e⟩ => (Engine.uploading.inj e).1.symm⟩

theorem test_witness_frame_and_agent_inv : up.frameInv ∧ up.setupInv ∧ (intake 8 up).loadInv := by
  refine ⟨?_, ?_, by decide +kernel, (rfl : (intake 8 up).ma.staging = [])⟩
  · unfold State.frameInv PortState.withinCapacity PortState.silentWhenDown
    decide +kernel
  · unfold State.setupInv
    decide +kernel

/-! ### The Management Agent -/

theorem test_witness_intake_departure :
    (running [1, 0] up).ma.executing ≠ none ∧ up.ma.fifo = [] ∧
      ((intake 3 up).ma.executing = none ∧ (intake 3 up).ma.fifo = command [1, 0] :: List.replicate 2 (command [1, 0]) ∧
        (List.replicate 2 (command [1, 0])).length ≤ 2 ∧ commandClass [1, 0] = .known .identify) ∧
      ([1] : List Byte).length < 2 ∧ commandClass [0xFF, 0] = .unknown ∧ commandClass [0x50, 0] = .resetShort ∧
      commandClass [0x50, 0, 5] = .resetBad ∧ 4 < (5 : Byte).toNat ∧
      (0x45 : Byte) ∉ ([0x01, 0x02, 0x10, 0x11, 0x12, 0x13, 0x20, 0x21, 0x30, 0x31, 0x32, 0x33, 0x34, 0x35, 0x36, 0x40, 0x41,
        0x42, 0x43, 0x44] : List Byte) ∧
      (let s : State := { up with fp := { up.fp with held := [(10, .a)] } };
        s.fp.held = (10, .a) :: [] ∧ (s.fp.port .a).linkUp = true ∧ (s.fp.port .a).reply.length < 4) := by decide +kernel

/-- A load of 9 entries of a table in two segments that expects a segment. -/
def loading (t : TableId) (expected : Nat) (s : State) : State :=
  { s with ma := { s.ma with
      load := some { table := t, first := 0, count := 9, segments := 2, expected := expected }
      staging := List.replicate (8 * expected) [0, 0, 0, 0, 0], loadTimer := some 2000 } }

theorem test_witness_replies :
    ((up.fp.port .a).linkUp = true ∧ (up.fp.port .a).reply.length < 4) ∧ (State.reset.fp.port .a).linkUp = false ∧
      (∀ s, (running [0x20, 0] s).executes .selectProduct (command [0x20, 0])) ∧
      (command [0x20, 0]).args.length < CommandKind.selectProduct.need ∧
      (∀ s, (running [0x20, 0, 1] s).executes .selectProduct (command [0x20, 0, 1])) ∧
      CommandKind.selectProduct.need ≤ (command [0x20, 0, 1]).args.length ∧
      (loading .product 0 up).loadBars .selectProduct ∧ ∀ c, ¬ up.executes .identify c :=
  ⟨by decide +kernel, by decide +kernel, fun s => running_executes s _ _ (by decide), by decide,
    fun s => running_executes s _ _ (by decide), by decide, ⟨_, rfl, rfl⟩, fun _ h => nomatch h.1⟩

theorem test_witness_read_commands :
    (∀ s, (running [1, 0] s).executes .identify (command [1, 0])) ∧
      (∀ s, (running [2, 0] s).executes .getStatus (command [2, 0])) ∧
      (∀ s, (running [0x13, 0, 3, 8, 8] s).executes .readTable (command [0x13, 0, 3, 8, 8])) ∧
      (∀ s, (running [0x30, 0, 72, 24] s).executes .readValves (command [0x30, 0, 72, 24])) ∧
      (∀ s, (running [0x31, 0, 127] s).executes .readQueue (command [0x31, 0, 127])) ∧
      (∀ s, (running [0x32, 0] s).executes .readSchedule (command [0x32, 0])) ∧
      (∀ s, (running [0x33, 0] s).executes .readCounters (command [0x33, 0])) ∧
      (∀ s, (running [0x40, 0] s).executes .ringRead (command [0x40, 0])) ∧
      (tableOfCode 3 = some .product ∧ 8 + 8 ≤ tableSize .product ∧ tableOfCode 6 = none ∧ tableSize .product < 9 + 8) ∧
      (72 + 24 ≤ 96 ∧ 96 < 73 + 24) ∧ (127 : Byte).toNat ≤ 127 ∧ 127 < (128 : Byte).toNat :=
  ⟨fun s => running_executes s _ _ (by decide), fun s => running_executes s _ _ (by decide),
    fun s => running_executes s _ _ (by decide), fun s => running_executes s _ _ (by decide),
    fun s => running_executes s _ _ (by decide), fun s => running_executes s _ _ (by decide),
    fun s => running_executes s _ _ (by decide), fun s => running_executes s _ _ (by decide), by decide⟩

theorem test_witness_loads :
    (∀ s, (running [0x10, 0, 0, 23, 9, 2] s).executes .loadBegin (command [0x10, 0, 0, 23, 9, 2])) ∧
      (∀ s, (running [0x11, 0, 1, 1, 0, 0, 0, 0, 0] s).executes .loadSegment (command [0x11, 0, 1, 1, 0, 0, 0, 0, 0])) ∧
      (∀ s, (running [0x12, 0] s).executes .loadAbort (command [0x12, 0])) ∧
      (tableOfCode 0 = some .channel ∧ 23 + 9 ≤ tableSize .channel ∧ 2 = (9 + 7) / 8 ∧ tableSize .channel < 24 + 9) ∧
      up.ma.load = none ∧
      (9 - 8 * (2 - 1) = 1 ∧ (loading .channel 1 up).ma.load = some ⟨.channel, 0, 9, 2, 1⟩ ∧
        (loading .channel 0 up).ma.load = some ⟨.channel, 0, 9, 2, 0⟩) ∧
      (([0, 0, 0, 0] : List Byte).length < 1 * entrySize .channel ∧ 1 * entrySize .channel ≤ ([0, 0, 0, 0, 0] : List Byte).length) ∧
      (loading .channel 1 up).ma.loadTimer = some 2000 :=
  ⟨fun s => running_executes s _ _ (by decide), fun s => running_executes s _ _ (by decide),
    fun s => running_executes s _ _ (by decide), by decide +kernel⟩

theorem test_witness_table_commits :
    (let t := up.fp.channels.set 3 { port := 2, source := 5, channel := 9, role := 6, consume := 0 }
      ∀ i : Fin 32, t[i] = if 3 ≤ i.val ∧ i.val < 3 + [[(2 : Byte), 5, 9, 6, 0]].length then
        channelOf ([[(2 : Byte), 5, 9, 6, 0]].getD (i.val - 3) []) else up.fp.channels[i]) ∧
      (channelOf [3, 5, 9, 6, 0]).port.toNat = 3 ∧
      (byteAt [(0 : Byte)] 0 = 0 ∧ 2 ≤ 2 + 0 ∧ ¬ 2 ≤ 1 + 0) ∧ byteAt [(2 : Byte)] 0 ≠ 1 ∧
      (byteAt (productBytes (some can)) 0 = 1 ∧ (productFields (productBytes (some can))).inRange = true ∧
        (productFields (productBytes (some can))).related = true ∧ byteAt (productBytes none) 0 = 0) ∧
      byteAt (List.replicate 84 (2 : Byte)) 0 = 2 ∧ (filling.pu.active = some 3 ∧ 3 ≤ 3 ∧ 3 < 3 + 1) ∧
      (record 1 .filled none none).product = 3 := by decide +kernel

theorem test_witness_valve_and_setup_commits :
    let fixed : List Byte := [1, 0, 0x07, 0xFF, 0, 2]
    ((byteAt fixed 0).toNat ≤ 2 ∧ signedAt fixed 2 2 = 2047 ∧ signedAt [1, 0, 0x08, 0, 0, 0] 2 2 = 2048) ∧
      [fixed][(95 : Fin Config.valves).val - 95]? = some fixed ∧ 95 < filling.ma.setup.valveCount ∧
      filling.te.table[95].mode ≠ .fixed ∧
      (setupOf (setupBytes {}) = some filling.ma.setup ∧ setupOf (List.replicate 52 0) = none ∧
        setupOf (setupBytes { valveCount := 95, pitch := 400, phase := 150, collector := 30, statusInterval := 0 }) =
          some { valveCount := 95, pitch := 400, phase := 150, collector := 30, statusInterval := 0 }) := by decide +kernel

/-- R129: FIXED valve 94 and EXCLUDED valve 95 lie at or above a valve count of 94, with the ring frozen by an alarm. -/
def narrowed : State :=
  let s := withSetup { valveCount := 94 } frozen
  { s with
    te := { s.te with
      mode := .auto, trimHold := true
      table := (s.te.table.set 94 { mode := .fixed, fixedTrim := 500, captureInterval := 0 }).set 95
        { mode := .excluded, fixedTrim := 0, captureInterval := 0 } }
    rm := { s.rm with tracking := .synced }, rc := { s.rc with freeze := .alarm, cause := some .burst } }

theorem test_witness_setup_commits_of_valves_and_uploads :
    (narrowed.ma.setup.valveCount ≤ 94 ∧ narrowed.te.table[94].mode = .fixed ∧ narrowed.te.table[95].mode = .excluded) ∧
      (narrowed.te.trimHold = narrowed.holdsTrim ∧ narrowed.ma.setup.holdTrimOnFreeze = true ∧
        narrowed.te.table[0].mode = .auto) ∧
      setupOf (setupBytes { holdTrimOnFreeze := false }) = some { holdTrimOnFreeze := false } ∧
      ((uploading 1).rc.engine = .uploading 2 1 2 ∧ (uploading 1).rc.slots[2] = .uploading capture ∧
        (uploading 1).ma.setup.collector ≠ ({ collector := 31 } : LineSetup).collector ∧
        setupOf (setupBytes { collector := 31 }) = some { collector := 31 }) := by decide +kernel

/-- R129, R134, R178: a commit of the valve count, of hold trim on freeze and of the collector. -/
theorem test_setup_commits :
    let t := (commitTable .lineSetup 0 [setupBytes { holdTrimOnFreeze := false }] narrowed).1
    let u := (commitTable .lineSetup 0 [setupBytes { collector := 31 }] (uploading 1)).1
    (t.te.valves[94].state = .fixed ∧ t.te.valves[94].trim = 120 ∧ t.te.valves[95] = narrowed.te.valves[95] ∧
        t.te.trimHold = false) ∧
      u.rc.slots[2] = .stored capture ∧ u.rc.engine = .idle ∧ u.rc.counters.abandoned = 1 ∧ u.rc.order = [2] := by
  decide +kernel

theorem test_witness_clear_and_status :
    (∀ s, (running [0x34, 0] s).executes .clearCounters (command [0x34, 0])) ∧
      (∀ s, (running [0x35, 0] s).executes .clearAlarms (command [0x35, 0])) ∧
      (∀ s, (running [0x36, 0] s).executes .zeroNow (command [0x36, 0])) ∧
      up.fe.manualZero = false ∧ (zeroing 0 true).fe.manualZero = true ∧
      (up.ma.statusTimer = some 100 ∧ up.ma.setup.controller = 255 ∧ (withSetup { controller := 10 } up).ma.setup.controller ≠ 255 ∧
        (up.fp.port up.ma.setup.controllerPort).linkUp = true ∧
        (up.fp.port up.ma.setup.controllerPort).status.length ≤ 2 ∧
        (State.reset.fp.port State.reset.ma.setup.controllerPort).linkUp = false) :=
  ⟨fun s => running_executes s _ _ (by decide), fun s => running_executes s _ _ (by decide),
    fun s => running_executes s _ _ (by decide), by decide +kernel⟩

theorem test_witness_resets :
    (∀ s, (running [0x50, 0, 0] s).executes .resetFull (command [0x50, 0, 0])) ∧
      (∀ s, (running [0x50, 0, 1] s).executes .resetTracking (command [0x50, 0, 1])) ∧
      (∀ s, (running [0x50, 0, 2] s).executes .resetStatistics (command [0x50, 0, 2])) ∧
      (∀ s, (running [0x50, 0, 3] s).executes .resetLoad (command [0x50, 0, 3])) ∧
      (∀ s, (running [0x50, 0, 4] s).executes .resetCapture (command [0x50, 0, 4])) ∧
      filling.rc.ring.length ≤ 32 ∧ (up.ma.loadTimer.isSome = up.ma.load.isSome ∧ up.ma.staging = []) ∧
      1 ≤ stored.ma.setup.captureThreshold ∧ stored.te.trimHold = stored.holdsTrim :=
  ⟨fun s => running_executes s _ _ (by decide), fun s => running_executes s _ _ (by decide),
    fun s => running_executes s _ _ (by decide), fun s => running_executes s _ _ (by decide),
    fun s => running_executes s _ _ (by decide), by decide +kernel⟩

/-- R19, R20: of five stations held on Port A four are released there after a FULL reset, the fifth is counted as dropped. -/
theorem test_releases_of_five_stations :
    let s : State := { running [0x50, 0, 0] up with
      fp := { up.fp with held := [(10, .a), (11, .b), (12, .a), (13, .a), (14, .a), (15, .a)] } }
    (s.fp.keep.releases.map fun x => (x.1, byteAt x.2 15, byteAt x.2 18)) =
        [(.a, 10, 0), (.b, 11, 1), (.a, 12, 2), (.a, 13, 3), (.a, 14, 4)] ∧
      (after .resetFull s).fp.seqFlow = 5 ∧ (after .resetFull s).fp.portA.counters.dropped = 2 := by decide +kernel

/-- R148, R133: a TRACKING reset of a SYNCED device in AUTO brings Trim Hold, with two status frames to the controller, and
leaves the trims; R134: a CAPTURE reset that ends an alarm freeze ends Trim Hold and restarts the collection. -/
theorem test_resets_reach_the_trim_engine :
    let valves := filling.te.valves.set 1 { state := .collecting, trim := 7, n := 5, eAvg := 90 }
    let s : State := withSetup { controller := 10 } { filling with
      rm := { filling.rm with tracking := .synced }, te := { filling.te with mode := .auto, valves := valves } }
    let frozen : State := { s with
      rc := { s.rc with freeze := .alarm, cause := some .burst }, te := { s.te with trimHold := true } }
    let t := after .resetTracking (running [0x50, 0, 1] s)
    let u := after .resetCapture (running [0x50, 0, 4] frozen)
    (t.te.trimHold = true ∧ t.te.valves[1] = s.te.valves[1] ∧ t.fp.portA.status.length = 2 ∧ t.fp.seqMgmt = 3) ∧
      u.te.trimHold = false ∧ u.te.valves[1] = { s.te.valves[1] with n := 0, eAvg := 0 } ∧
      u.fp.portA.status.length = 2 := by decide +kernel

theorem test_witness_status_word :
    let s : State := { withSetup { controller := 10 } up with pending := [.encoderSilenceExpiry] }
    let t := after .encoderSilenceExpiry (withSetup { controller := 10 } up)
    step s = .next t ∧ t.statusWord ≠ s.statusWord ∧ s.ma.setup.controller ≠ 255 ∧
      t.ma.setup.controller = s.ma.setup.controller ∧ t.ma.setup.controllerPort = s.ma.setup.controllerPort ∧
      (t.fp.port t.ma.setup.controllerPort).linkUp = true :=
  ⟨rfl, by decide +kernel⟩

theorem test_witness_entries :
    (can.inRange = true ∧ can.related = true ∧ can.fits) ∧
      (({} : LineSetup).inRange = true ∧ ({} : LineSetup).related = true ∧ ({} : LineSetup).fits) ∧
      ((-2047 : Int) ≤ 2047 ∧ (-8388608 : Int) ≤ 8388607) := by
  have h : ∀ l ∈ can.previousLot, l.length = 8 := by decide +kernel
  refine ⟨⟨by decide +kernel, by decide +kernel, by decide +kernel, by decide +kernel, h, by decide +kernel⟩,
    ⟨by decide +kernel, by decide +kernel, ?_⟩, by decide⟩
  unfold LineSetup.fits
  decide +kernel

end Sys2Proof.Tests
end

section
/-!
PROOFS of 02_line_position_and_pitch.md: which copy a block takes and that reports and advance events leave the others waiting,
how ticks age the records, the ticks of a step as the boundaries it passes, and from these ENCODER_FRAME.
-/

namespace Sys2Proof.Machine

/-! ### Copies waiting for their blocks -/

/-- `removeFirst` is core's `eraseP`. -/
theorem removeFirst_eq_eraseP {α : Type} (p : α → Bool) (l : List α) : removeFirst p l = l.eraseP p := by
  induction l with
  | nil => rfl
  | cons a rest ih => cases h : p a <;> simp [removeFirst, h, ih]

/-- A block takes its oldest copy, which leaves the others waiting (R8). -/
theorem State.takeHanded_of_hands {s : State} {role : Role} {c : Copy} {rest : List (Role × Copy)}
    (h : s.hands role c rest) : s.takeHanded role = some (c, s.taken rest) := by
  obtain ⟨before, after, hsplit, hbefore, rfl⟩ := h
  have hskip : ∀ x ∈ before, ¬ (x.1 == role) = true := by simpa using hbefore
  have hfind : before.find? (fun x => x.1 == role) = none := List.find?_eq_none.mpr hskip
  simp [State.takeHanded, State.taken, removeFirst_eq_eraseP, hsplit, hfind, List.eraseP_append_right _ hskip]

theorem onHanded_of_hands {s : State} {role : Role} {c : Copy} {rest : List (Role × Copy)} (f : Copy → State → State)
    (h : s.hands role c rest) : onHanded role f s = f c (s.taken rest) := by
  simp [onHanded, State.takeHanded_of_hands h]

/-! ### Offers, reports and the freeze leave the copies waiting -/

@[simp] theorem FramePath.takeNumber_handed (fp : FramePath) (flow : Bool) : (fp.takeNumber flow).handed = fp.handed := by
  cases flow <;> rfl

@[simp] theorem FramePath.join_handed (fp : FramePath) (cls : EgressClass) (p : Port) (flow : Bool) (dest : Byte)
    (payload : List Byte) : (fp.join cls p flow dest payload).handed = fp.handed := by
  simp [FramePath.join]

@[simp] theorem FramePath.offer_handed (fp : FramePath) (cls : EgressClass) (p : Port) (flow : Bool) (dest : Byte)
    (payload : List Byte) : (fp.offer cls p flow dest payload).1.handed = fp.handed := by
  unfold FramePath.offer
  repeat' split
  all_goals simp

@[simp] theorem FramePath.offerStatus_handed (fp : FramePath) (p : Port) (dest : Byte) (payload : List Byte) :
    (fp.offerStatus p dest payload).handed = fp.handed := by
  unfold FramePath.offerStatus
  dsimp only
  repeat' split
  all_goals simp

@[simp] theorem buildStatus_handed (s : State) : (buildStatus s).fp.handed = s.fp.handed := by
  unfold buildStatus
  split <;> simp

@[simp] theorem report_handed (old new : State) : (report old new).fp.handed = new.fp.handed := by
  unfold report
  split <;> simp

@[simp] theorem raiseLineStop_handed (s : State) : (raiseLineStop s).fp.handed = s.fp.handed := by
  rw [raiseLineStop, report_handed]

@[simp] theorem evalTrimHold_handed (s : State) : (evalTrimHold s).fp.handed = s.fp.handed := by
  unfold evalTrimHold
  dsimp only
  repeat' split
  · rfl
  · rw [restartCollection, State.mapValves, report_handed]
  · rw [report_handed]

@[simp] theorem freezeRing_handed (cause : FreezeCause) (s : State) : (freezeRing cause s).fp.handed = s.fp.handed := by
  unfold freezeRing
  repeat' split
  all_goals simp

/-! ### Advance events leave the copies waiting -/

@[simp] theorem offerReject_handed (number : Option Word32) (cls : CanClass) (s : State) :
    (offerReject number cls s).1.fp.handed = s.fp.handed := by
  unfold offerReject
  split <;> simp

@[simp] theorem loseReject_handed (s : State) : (loseReject s).fp.handed = s.fp.handed := by
  rw [loseReject, raiseLineStop_handed]
  rfl

theorem fireFirst_handed (p : RejectEntry → Bool) (s : State) : (fireFirst p s).fp.handed = s.fp.handed := by
  unfold fireFirst
  split
  · rfl
  · next e _ =>
    have hoffer := offerReject_handed e.number e.cls s
    dsimp only
    split
    · exact hoffer
    · rw [loseReject_handed]
      exact hoffer

theorem timeoutFirst_handed (p : RejectEntry → Bool) (s : State) : (timeoutFirst p s).fp.handed = s.fp.handed := by
  unfold timeoutFirst
  split
  · rfl
  · dsimp only
    split
    · rw [freezeRing_handed, raiseLineStop_handed]
      rfl
    · rw [raiseLineStop_handed]
      rfl

theorem advanceOnce_handed (l : Word32) (d key : Nat) (s : State) : (advanceOnce l d key s).fp.handed = s.fp.handed := by
  unfold advanceOnce
  split
  · exact fireFirst_handed _ s
  · exact timeoutFirst_handed _ s

theorem advanceRun_handed (l : Word32) (d fuel : Nat) (s : State) :
    (advanceRun l d fuel s).fp.handed = s.fp.handed := by
  induction fuel generalizing s with
  | zero => rfl
  | succ n ih =>
    unfold advanceRun
    split
    · rfl
    · exact (ih _).trans (advanceOnce_handed l d _ s)

theorem advance_handed (l : Word32) (d : Nat) (s : State) : (advance l d s).fp.handed = s.fp.handed :=
  advanceRun_handed l d _ s

/-! ### Ticks age the records -/

@[simp] theorem agedBy_zero (maxAge : Nat) (q : List CanRecord) : agedBy 0 maxAge q = q := rfl

/-- One tick and then `n` more age the records as `n + 1` ticks do: a record above the max age after the first tick is above it
after them all. -/
theorem agedBy_agedBy_one (n maxAge : Nat) (q : List CanRecord) :
    agedBy n maxAge (agedBy 1 maxAge q) = agedBy (n + 1) maxAge q := by
  by_cases hn : n = 0
  · simp [hn]
  have hage (a : Nat) : min (min (a + 1) 1023 + n) 1023 = min (a + (n + 1)) 1023 := by omega
  simp only [agedBy, hn, if_false, Nat.add_eq_zero_iff, one_ne_zero, and_false, List.filter_map, List.map_map,
    List.filter_filter, Function.comp_def, hage]
  congr 1
  refine List.filter_congr fun r _ => ?_
  rw [Bool.eq_iff_iff]
  simp only [Bool.and_eq_true, decide_eq_true_eq]
  omega

theorem handMissing_queue (boundary : Word32) (records : List CanRecord) (s : State) :
    (handMissing boundary records s).tq.queue = s.tq.queue := by
  have htq (u : State) : (handRemoved .missing boundary records u).tq = u.tq :=
    (handRemoved_only _ _ _ u).keep .tq (by decide)
  rw [handMissing, htq]

/-- Once a tick has raised the ages, the records no older than the max age stay (R75). -/
theorem removeAged_queue {s : State} {b : Word32} (h : s.tq.ticked = some b) :
    (removeAged s).tq.queue = s.tq.queue.filter fun r => decide (r.age ≤ s.ma.setup.maxAge) := by
  simp only [removeAged, h, handMissing_queue, ← decide_not, not_lt]

/-- A pitch tick ages the records by one and removes those above the max age (R74, R75). -/
theorem pitchTick_queue (b : Word32) (s : State) :
    (pitchTick b s).tq.queue = agedBy 1 s.ma.setup.maxAge s.tq.queue :=
  removeAged_queue (s := raiseAges b s) (b := b) rfl

/-- Ticks in turn age the records by as many (R74, R75). -/
theorem ticks_queue (l : List Word32) (s : State) :
    (l.foldl (fun u b => pitchTick b u) s).tq.queue = agedBy l.length s.ma.setup.maxAge s.tq.queue := by
  induction l generalizing s with
  | nil => rfl
  | cons b rest ih =>
    have hma : (pitchTick b s).ma = s.ma := (pitchTick_only b s).keep .ma (by decide)
    rw [List.foldl_cons, ih, hma, pitchTick_queue, agedBy_agedBy_one, List.length_cons]

/-! ### The pitch grid -/

/-- `n` Line Positions in a row, the first one `x`. -/
def positionsFrom (x n : Nat) : List Word32 :=
  (List.range n).map fun i => BitVec.ofNat 32 (x + i)

theorem positionsFrom_add (x m n : Nat) : positionsFrom x (m + n) = positionsFrom x m ++ positionsFrom (x + m) n := by
  simp [positionsFrom, List.range_add, Nat.add_assoc]

/-- Line Positions are taken modulo 2^32 (R22). -/
theorem positionsFrom_wrap (n : Nat) : positionsFrom (2 ^ 32) n = positionsFrom 0 n := by
  refine List.map_congr_left fun i _ => BitVec.eq_of_toNat_eq ?_
  simp

theorem boundariesPassed_eq_filter (l : Word32) (d pitch phase : Nat) :
    boundariesPassed l d pitch phase = (positionsFrom (l.toNat + 1) d).filter (isBoundary pitch phase) := by
  refine congrArg _ (List.map_congr_left fun i _ => BitVec.eq_of_toNat_eq ?_)
  simp
  omega

theorem boundaries_succ (start pitch n : Nat) :
    boundaries start pitch (n + 1) = boundaries start pitch n ++ [BitVec.ofNat 32 (start + n * pitch)] := by
  simp [boundaries, List.range_succ]

/-- The boundaries among `n` positions from `x` on, where `r` is the residue of the position before `x`: one for each pitch
that `r + n` counts fill (R23). -/
theorem filter_positionsFrom {x n pitch phase r : Nat} (hr : r < pitch) (hres : (pitch : Int) ∣ x - 1 - phase - r)
    (hn : x + n ≤ 2 ^ 32) :
    (positionsFrom x n).filter (isBoundary pitch phase) =
      boundaries (x + (pitch - (r + 1))) pitch ((r + n) / pitch) := by
  induction n with
  | zero => simp [positionsFrom, boundaries, Nat.div_eq_of_lt hr]
  | succ n ih =>
    have hlast : isBoundary pitch phase (BitVec.ofNat 32 (x + n)) = decide (pitch ∣ r + n + 1) := by
      have hval : (BitVec.ofNat 32 (x + n)).toNat = x + n := Nat.mod_eq_of_lt (by omega)
      have hdist : ((x + n : Nat) : Int) - phase = (x - 1 - phase - r) + (r + n + 1 : Nat) := by push_cast; ring
      rw [isBoundary, hval, Bool.eq_iff_iff, beq_iff_eq, decide_eq_true_iff, ← Int.dvd_iff_emod_eq_zero, hdist,
        Int.dvd_add_right hres, Int.natCast_dvd_natCast]
    rw [positionsFrom_add, List.filter_append, ih (by omega), ← Nat.add_assoc, Nat.succ_div]
    by_cases hdvd : pitch ∣ r + n + 1
    · have hmul : ((r + n) / pitch + 1) * pitch = r + n + 1 := by
        rw [← Nat.div_mul_cancel hdvd, Nat.succ_div_of_dvd hdvd]
      have hpos : x + n = x + (pitch - (r + 1)) + (r + n) / pitch * pitch := by
        rw [Nat.add_mul] at hmul
        omega
      rw [if_pos hdvd, boundaries_succ, ← hpos]
      simp [positionsFrom, hlast, hdvd]
    · simp [positionsFrom, hlast, hdvd]

/-- The boundaries among the first `n + 1` Line Positions: one at the phase and one for each pitch from there on (R23). -/
theorem filter_positionsFrom_zero {n pitch phase : Nat} (h : phase < pitch) (hn : n + 1 ≤ 2 ^ 32) :
    (positionsFrom 0 (n + 1)).filter (isBoundary pitch phase) =
      if phase ≤ n then boundaries phase pitch ((n - phase) / pitch + 1) else [] := by
  rw [filter_positionsFrom (r := pitch - 1 - phase) (by omega) ⟨-1, by omega⟩ (by omega)]
  have hstart : 0 + (pitch - (pitch - 1 - phase + 1)) = phase := by omega
  rw [hstart]
  split
  · have hcount : pitch - 1 - phase + (n + 1) = n - phase + pitch := by omega
    rw [hcount, Nat.add_div_right _ (by omega)]
  · rw [Nat.div_eq_of_lt (by omega)]
    rfl

theorem gridResidue_cast (l : Word32) {pitch phase : Nat} (h : phase < pitch) :
    (gridResidue l pitch phase : Int) = ((l.toNat : Int) - phase) % pitch :=
  Int.toNat_of_nonneg (Int.emod_nonneg _ (by omega))

/-- The residue of a Line Position is a number below the pitch, and what it leaves is a whole number of pitches. -/
theorem gridResidue_spec (l : Word32) {pitch phase : Nat} (h : phase < pitch) :
    gridResidue l pitch phase < pitch ∧ (pitch : Int) ∣ l.toNat - phase - gridResidue l pitch phase := by
  have hcast := gridResidue_cast l h
  have hbelow := Int.emod_lt_of_pos ((l.toNat : Int) - phase) (b := pitch) (by omega)
  refine ⟨by omega, ?_⟩
  rw [hcast]
  exact Int.dvd_self_sub_emod

/-- The grid and the residue of a Position Unit fit (R21, R23). -/
def Position.onGrid (pos : Position) : Prop :=
  pos.phase < pos.pitch ∧ pos.residue = gridResidue pos.linePos pos.pitch pos.phase

/-- The ticks of a step are the boundaries that it passes, in order, with or without the wrap (R23). -/
theorem ticksOf_eq_boundariesPassed {pos : Position} (h : pos.onGrid) {d : Nat} (hd : d ≤ 32767) :
    ticksOf pos d = boundariesPassed pos.linePos d pos.pitch pos.phase := by
  obtain ⟨hphase, hres⟩ := h
  obtain ⟨hlt, hdvd⟩ := gridResidue_spec pos.linePos hphase
  rw [← hres] at hlt hdvd
  have hl := pos.linePos.isLt
  have hstretch (n : Nat) (hn : pos.linePos.toNat + 1 + n ≤ 2 ^ 32) :
      (positionsFrom (pos.linePos.toNat + 1) n).filter (isBoundary pos.pitch pos.phase) =
        boundaries (pos.linePos.toNat + (pos.pitch - pos.residue)) pos.pitch ((pos.residue + n) / pos.pitch) := by
    rw [filter_positionsFrom hlt (by push_cast; simpa using hdvd) hn]
    congr 1
    omega
  rw [boundariesPassed_eq_filter, ticksOf]
  dsimp only
  split
  · exact (hstretch d (by omega)).symm
  · next hwrap =>
    generalize hstop : pos.linePos.toNat + d - 2 ^ 32 = stop
    have hsplit : d = (2 ^ 32 - 1 - pos.linePos.toNat) + (stop + 1) := by omega
    have hseam : pos.linePos.toNat + 1 + (2 ^ 32 - 1 - pos.linePos.toNat) = 2 ^ 32 := by omega
    rw [hsplit, positionsFrom_add, hseam, positionsFrom_wrap, List.filter_append, hstretch _ (by omega),
      filter_positionsFrom_zero hphase (by omega)]

/-- The residue is kept along a step as that of the new Line Position (R23). -/
theorem Position.onGrid.step {pos : Position} (h : pos.onGrid) {d : Nat} (hd : d ≤ 32767) : (pos.step d).onGrid := by
  obtain ⟨hphase, hres⟩ := h
  refine ⟨hphase, ?_⟩
  change residueAfter pos d = gridResidue (pos.linePos + BitVec.ofNat 32 d) pos.pitch pos.phase
  rw [residueAfter]
  split
  · next hlt =>
    have hsum : (pos.linePos + BitVec.ofNat 32 d).toNat = pos.linePos.toNat + d := by
      rw [BitVec.toNat_add, BitVec.toNat_ofNat]
      omega
    rw [← Int.natCast_inj, gridResidue_cast _ hphase, hsum, hres, Int.natCast_mod, Int.natCast_add,
      gridResidue_cast _ hphase, Int.emod_add_emod]
    congr 1
    push_cast
    ring
  · rfl

/-! ### An encoder count, step by step -/

/-- The Position Unit after a pending grid has come into force (R27). -/
def Position.regrid (pos : Position) : Position :=
  let grid := pos.pendingGrid.getD (pos.pitch, pos.phase)
  { pos with
    pitch := grid.1, phase := grid.2, pendingGrid := none, residue := gridResidue pos.linePos grid.1 grid.2 }

theorem Position.onGrid.regrid {pos : Position} (h : pos.onGrid) (hpending : ∀ g, pos.pendingGrid = some g → g.2 < g.1) :
    pos.regrid.onGrid := by
  refine ⟨?_, rfl⟩
  cases hp : pos.pendingGrid with
  | none => simpa [Position.regrid, hp] using h.1
  | some g => simpa [Position.regrid, hp] using hpending g hp

theorem applyGrid_eq {s : State} (h : s.pos.onGrid) : applyGrid s = s.withPos s.pos.regrid := by
  unfold applyGrid
  split
  · next hp =>
    have hsame : s.pos.regrid = s.pos := by
      simp only [Position.regrid, hp, Option.getD_none, ← h.2]
      rw [← hp]
    rw [hsame]
    rfl
  · next g hp => simp only [Position.regrid, hp, Option.getD_some]

/-- The Position Unit once an encoder frame has restarted the timer, ended the fault and put the grid into force, its count
still to be handled (R22). -/
def Position.readied (pos : Position) (silence : Nat) : Position :=
  { pos with timer := some silence, fault := false }.regrid

/-- The state in which an encoder count is handled (R22, R26, R27). -/
def State.readied (s : State) : State :=
  applyGrid (clearEncoderFault (s.withPos { s.pos with timer := some s.ma.setup.encoderSilence }))

theorem takeCount_eq (c : Word16) (s : State) : takeCount c s = handleCount c s.readied :=
  rfl

theorem State.readied_only (s : State) : OnlyChanges [.fp, .pos] s s.readied :=
  (((withPos_only s _).mono (by decide)).andThen (clearEncoderFault_only _) (by decide)).andThen (applyGrid_only _)
    (by decide)

@[simp] theorem clearEncoderFault_pos (s : State) : (clearEncoderFault s).pos = { s.pos with fault := false } :=
  (report_only s _).keep .pos (by decide)

@[simp] theorem clearEncoderFault_handed (s : State) : (clearEncoderFault s).fp.handed = s.fp.handed := by
  simp [clearEncoderFault]

theorem State.readied_eq {s : State} (h : s.pos.onGrid) :
    s.readied = (clearEncoderFault (s.withPos { s.pos with timer := some s.ma.setup.encoderSilence })).withPos
      (s.pos.readied s.ma.setup.encoderSilence) := by
  rw [State.readied, applyGrid_eq (by rw [clearEncoderFault_pos]; exact h), clearEncoderFault_pos]
  rfl

theorem State.readied_pos {s : State} (h : s.pos.onGrid) : s.readied.pos = s.pos.readied s.ma.setup.encoderSilence := by
  rw [State.readied_eq h, State.withPos_pos]

theorem State.readied_handed {s : State} (h : s.pos.onGrid) : s.readied.fp.handed = s.fp.handed := by
  simp [State.readied_eq h]

/-- The step from the last count to a new one; the first count makes none (R22). -/
def countStep (last : Option Word16) (c : Word16) : Nat :=
  match last with
  | none => 0
  | some l => (c - l).toNat

theorem handleCount_forward {c : Word16} {s : State} {d : Nat} (hd : d = countStep s.pos.lastCount c) (hlow : 1 ≤ d)
    (hhigh : d ≤ 32767) : handleCount c s = forwardStep d (s.withPos { s.pos with lastCount := some c }) := by
  unfold handleCount
  split
  · next hl =>
    rw [hl] at hd
    exact absurd hd (by simp [countStep]; omega)
  · next l hl =>
    rw [hl] at hd
    change d = (c - l).toNat at hd
    dsimp only
    rw [← hd, if_neg (by omega), if_pos hhigh]

/-- A count that stands still or runs backwards is followed and moves nothing; running backwards is counted (R22, R29). -/
theorem handleCount_still {c : Word16} {s : State} {d : Nat} (hd : d = countStep s.pos.lastCount c)
    (hstill : ¬ (1 ≤ d ∧ d ≤ 32767)) :
    handleCount c s = s.withPos { s.pos with
      lastCount := some c
      counters := { s.pos.counters with
        reverse := if 32768 ≤ d then tally s.pos.counters.reverse 1 else s.pos.counters.reverse } } := by
  unfold handleCount
  split
  · next hl =>
    rw [hl] at hd
    rw [if_neg (by simp [hd, countStep])]
  · next l hl =>
    rw [hl] at hd
    change d = (c - l).toNat at hd
    dsimp only
    rw [← hd]
    by_cases hzero : d = 0
    · rw [if_pos hzero, if_neg (by omega)]
    · rw [if_neg hzero, if_neg (by omega), if_pos (by omega)]
      rfl

/-! ### What a forward step leaves -/

section ForwardStep

variable (d : Nat) (s : State)

/-- The state of a forward step before its advance event: the ticks have been taken (log 14). -/
def afterTicks : State :=
  (ticksOf s.pos d).foldl (fun u b => pitchTick b u) (s.withPos (s.pos.step d))

theorem forwardStep_eq : forwardStep d s = advance s.pos.linePos d (afterTicks d s) :=
  rfl

theorem afterTicks_only : OnlyChanges [.tq, .rc] (s.withPos (s.pos.step d)) (afterTicks d s) :=
  ticks_only _ _

theorem forwardStep_pos : (forwardStep d s).pos = s.pos.step d :=
  ((advance_only _ d _).keep .pos (by decide)).trans ((afterTicks_only d s).keep .pos (by decide))

theorem forwardStep_handed : (forwardStep d s).fp.handed = s.fp.handed := by
  have hfp : (afterTicks d s).fp = s.fp := (afterTicks_only d s).keep .fp (by decide)
  rw [forwardStep_eq, advance_handed, hfp]

theorem forwardStep_queue :
    (forwardStep d s).tq.queue = agedBy (ticksOf s.pos d).length s.ma.setup.maxAge s.tq.queue := by
  have htq : (forwardStep d s).tq = (afterTicks d s).tq := (advance_only _ d _).keep .tq (by decide)
  rw [htq, afterTicks, ticks_queue, State.withPos_tq, State.withPos_ma]

end ForwardStep

/-! ### ENCODER_FRAME -/

theorem exec_encoderFrame (s : State) : exec .encoderFrame s = execEncoderFrame s := by
  rfl

theorem exec_encoderFrame_of_hands {s : State} {c : Copy} {rest : List (Role × Copy)} (h : s.hands .encoder c rest) :
    exec .encoderFrame s = .next (takeCount (encoderCount c.payload) (s.taken rest)) := by
  rw [exec_encoderFrame, execEncoderFrame, onHanded_of_hands _ h]

theorem tally_zero (c : Counter) : tally c 0 = c := by
  simp [tally, c.isLt]

/-- The Position Unit that has followed a count, its step still to be made (R22). -/
def Position.following (pos : Position) (silence : Nat) (c : Word16) : Position :=
  { pos.readied silence with lastCount := some c }

theorem positionInv_onGrid {s : State} (h : s.positionInv) : s.pos.onGrid := by
  obtain ⟨hphase, hres, -, -⟩ := h
  exact ⟨hphase, hres⟩

theorem positionInv_following_onGrid {s : State} (h : s.positionInv) (silence : Nat) (c : Word16) :
    (s.pos.following silence c).onGrid := by
  have hgrid : Position.onGrid { s.pos with timer := some silence, fault := false } := positionInv_onGrid h
  obtain ⟨-, -, hpending, -⟩ := h
  exact hgrid.regrid hpending

section TakeCount

variable {s : State} {c : Word16} {d : Nat}

/-- A forward step: the Position Unit steps on the grid in force and the records age by its ticks (R22 to R24, R74, R75). -/
theorem takeCount_forward (h : s.pos.onGrid) (hd : d = countStep s.pos.lastCount c) (hlow : 1 ≤ d) (hhigh : d ≤ 32767) :
    (takeCount c s).pos = (s.pos.following s.ma.setup.encoderSilence c).step d ∧
      (takeCount c s).fp.handed = s.fp.handed ∧
      (takeCount c s).tq.queue =
        agedBy (ticksOf (s.pos.following s.ma.setup.encoderSilence c) d).length s.ma.setup.maxAge s.tq.queue := by
  have hd' : d = countStep s.readied.pos.lastCount c := by rwa [State.readied_pos h]
  have htq : s.readied.tq = s.tq := (State.readied_only s).keep .tq (by decide)
  have hma : s.readied.ma = s.ma := (State.readied_only s).keep .ma (by decide)
  rw [takeCount_eq, handleCount_forward hd' hlow hhigh, forwardStep_pos, forwardStep_handed, forwardStep_queue]
  simp only [State.withPos_pos, State.withPos_fp, State.withPos_tq, State.withPos_ma, State.readied_pos h,
    State.readied_handed h, htq, hma]
  exact ⟨rfl, trivial, rfl⟩

/-- A step of 0 or a reverse step: the Position Unit follows the count, and nothing else moves (R22). -/
theorem takeCount_still (h : s.pos.onGrid) (hd : d = countStep s.pos.lastCount c) (hstill : ¬ (1 ≤ d ∧ d ≤ 32767)) :
    (takeCount c s).pos = { s.pos.following s.ma.setup.encoderSilence c with
        counters := { s.pos.counters with
          reverse := if 32768 ≤ d then tally s.pos.counters.reverse 1 else s.pos.counters.reverse } } ∧
      (takeCount c s).fp.handed = s.fp.handed ∧ OnlyChanges [.fp, .pos] s (takeCount c s) := by
  have hd' : d = countStep s.readied.pos.lastCount c := by rwa [State.readied_pos h]
  rw [takeCount_eq, handleCount_still hd' hstill, State.withPos_pos, State.withPos_fp, State.readied_pos h]
  exact ⟨rfl, State.readied_handed h, (State.readied_only s).andThen (withPos_only _ _) (by decide)⟩

end TakeCount

/-- Settles O17, by the step of the count: a forward step is `takeCount_forward`, with the ticks counted by
`ticksOf_eq_boundariesPassed`; a step of 0 or a reverse step is `takeCount_still`. -/
theorem encoderFrameAdvances : Obligations.EncoderFrameAdvances := by
  unfold Obligations.EncoderFrameAdvances
  rintro s c rest d moved grid passed hinv hhands hd rfl rfl rfl
  have hgrid : (s.taken rest).pos.onGrid := positionInv_onGrid hinv
  have hstep : d = countStep (s.taken rest).pos.lastCount (encoderCount c.payload) := hd
  have honly : OnlyChanges encoderBlocks s (takeCount (encoderCount c.payload) (s.taken rest)) :=
    ((withFp_only s _).mono (by decide)).trans (takeCount_only _ _)
  refine ⟨_, exec_encoderFrame_of_hands hhands, honly, ?_⟩
  by_cases hmoves : 1 ≤ d ∧ d ≤ 32767
  · obtain ⟨hlow, hhigh⟩ := hmoves
    obtain ⟨hpos, hhanded, hqueue⟩ := takeCount_forward hgrid hstep hlow hhigh
    have hfollowing := positionInv_following_onGrid hinv s.ma.setup.encoderSilence (encoderCount c.payload)
    have hticks := congrArg List.length (ticksOf_eq_boundariesPassed hfollowing hhigh)
    obtain ⟨-, hresidue⟩ := hfollowing.step hhigh
    have hback : ¬ 32768 ≤ d := by omega
    simp only [hlow, hhigh, hpos, hhanded, hqueue, and_self, decide_true, if_true, if_neg hback]
    exact ⟨rfl, rfl, rfl, rfl, rfl, rfl, rfl, hresidue, congrArg (tally s.pos.counters.ticks) hticks, rfl, rfl,
      congrArg (agedBy · s.ma.setup.maxAge s.tq.queue) hticks, nofun⟩
  · obtain ⟨hpos, hhanded, hkeep⟩ := takeCount_still hgrid hstep hmoves
    have honlyFp : OnlyChanges [.fp, .pos] s (takeCount (encoderCount c.payload) (s.taken rest)) :=
      ((withFp_only s _).mono (by decide)).trans hkeep
    have hqueue : (takeCount (encoderCount c.payload) (s.taken rest)).tq.queue = s.tq.queue :=
      congrArg Tracking.queue (honlyFp.keep .tq (by decide))
    simp only [hmoves, decide_false, hpos, hhanded, hqueue, Bool.false_eq_true, if_false, List.length_nil, tally_zero,
      agedBy_zero]
    exact ⟨rfl, rfl, rfl, rfl, rfl, rfl, rfl, rfl, rfl, rfl, rfl, trivial, fun _ => honlyFp⟩

end Sys2Proof.Machine
end

section
/-!
PROOFS of 05_code_reading_and_resynchronisation.md: when a read shows no gap, the tests of R89 that lead to an orphan read and
to a duplicate read, and from these the two reads that change no record.
-/

namespace Sys2Proof.Machine

/-! ### A read frame without a gap -/

theorem seqGap_self (b : Byte) : seqGap b b = 0 := by
  simp [seqGap]

/-- A first read and a read with the expected sequence show no gap (R87). -/
theorem readGap_of_in_sequence {seq : Byte} {s : State}
    (h : s.rm.expectation = none ∨ s.rm.expectation = some seq) : readGap seq s = s := by
  unfold readGap
  rcases h with hnone | hsame
  · rw [hnone]
  · simp [hsame, seqGap_self]

/-- A parsed read frame is noted: the next sequence is expected and the frame is counted (R86, R87). -/
def State.notedRead (s : State) (seq : Byte) (invalid : Bool) : State :=
  { s with rm := { s.rm with
      expectation := some (seq + 1)
      counters := { s.rm.counters with
        readFrames := tally s.rm.counters.readFrames 1
        invalid := if invalid then tally s.rm.counters.invalid 1 else s.rm.counters.invalid } } }

/-- A read frame without a gap makes its own match alone (R87). -/
theorem takeRead_of_in_sequence {c : Copy} {s : State} {rd : CodeRead} {invalid : Bool}
    (h : s.rm.expectation = none ∨ s.rm.expectation = some c.sequence)
    (hparse : parseRead s.ma.setup c.payload = (rd, invalid)) :
    takeRead c s = matchRead rd (s.notedRead c.sequence invalid) := by
  rw [takeRead, readGap_of_in_sequence h, hparse]
  rfl

theorem exec_readFrame (s : State) : exec .readFrame s = execReadFrame s := by
  rfl

theorem exec_readFrame_of_in_sequence {s : State} {c : Copy} {rest : List (Role × Copy)} {rd : CodeRead} {invalid : Bool}
    (hands : s.hands .read c rest) (h : s.rm.expectation = none ∨ s.rm.expectation = some c.sequence)
    (hparse : parseRead s.ma.setup c.payload = (rd, invalid)) :
    exec .readFrame s = .next (matchRead rd ((s.taken rest).notedRead c.sequence invalid)) := by
  rw [exec_readFrame, execReadFrame, onHanded_of_hands _ hands, takeRead_of_in_sequence (s := s.taken rest) h hparse]

/-! ### The tests of R89 -/

theorem filter_isCoded_eq_nil {queue : List CanRecord} (h : ∀ x ∈ queue, x.stage ≠ .coded) :
    queue.filter CanRecord.isCoded = [] := by
  simpa [CanRecord.isCoded] using h

/-- Without a CODED record every read is an orphan read (R90). -/
theorem matchRead_of_none_coded (rd : CodeRead) {s : State} (h : ∀ x ∈ s.tq.queue, x.stage ≠ .coded) :
    matchRead rd s = orphanRead rd s := by
  rw [matchRead, filter_isCoded_eq_nil h]

/-- The lookahead finds no record where none within it carries the tag (R93). -/
theorem lookahead_eq_none {records : List CanRecord} {tag : Tag} (h : ∀ y ∈ records, y.tag ≠ some tag) :
    (records.findIdx? fun y => y.tag == some tag) = none := by
  simpa [List.findIdx?_eq_none_iff] using h

theorem any_passed_carries {queue : List CanRecord} {tag : Tag} (h : ∃ x ∈ queue, x.stage = .passed ∧ x.tag = some tag) :
    (queue.any fun x => x.isPassed && x.tag == some tag) = true := by
  simpa [CanRecord.isPassed] using h

/-- A tag that fails the exact match and the lookahead, and that a PASSED_READER record carries, makes a duplicate read
(R89, R94). -/
theorem matchRead_of_duplicate {s : State} {tag : Tag} (lot : List Byte) {expected : CanRecord} {following : List CanRecord}
    (hcoded : s.tq.queue.filter CanRecord.isCoded = expected :: following) (hexpected : expected.tag ≠ some tag)
    (hahead : ∀ y ∈ following.take s.ma.setup.lookahead, y.tag ≠ some tag)
    (hpassed : ∃ x ∈ s.tq.queue, x.stage = .passed ∧ x.tag = some tag) :
    matchRead (.tag tag lot) s = duplicateRead s := by
  rw [matchRead, hcoded]
  dsimp only
  rw [if_neg hexpected, lookahead_eq_none hahead]
  dsimp only
  rw [if_pos (any_passed_carries hpassed)]

/-! ### Orphan and duplicate reads -/

/-- Settles O33: the read shows no gap, so it is only noted and matched; the tests of R89 lead to `orphanRead` or to
`duplicateRead`, and both leave the Tracking Queue as it stands. -/
theorem orphanAndDuplicateReads : Obligations.OrphanAndDuplicateReads := by
  unfold Obligations.OrphanAndDuplicateReads
  rintro s c rest rd invalid base hands hseq hparse rfl
  rw [exec_readFrame_of_in_sequence hands hseq hparse]
  constructor
  · intro hnone
    rw [matchRead_of_none_coded rd (s := (s.taken rest).notedRead c.sequence invalid) hnone]
    cases rd with
    | tag tag lot => rfl
    | noRead => rfl
    | null => rfl
  · rintro tag lot expected following rfl hcoded hexpected hahead hpassed
    rw [matchRead_of_duplicate (s := (s.taken rest).notedRead c.sequence invalid) lot hcoded hexpected hahead hpassed]
    rfl

end Sys2Proof.Machine
end

section
/-!
PROOFS of 06_judgement_and_rejection.md: Table 6-2 as the list of its conditions, and the class it gives; which entries stay when
the oldest of a kind are removed, what a confirm's gap and its own confirm do to the Reject Schedule, and from these CONFIRM_FRAME.
-/

namespace Sys2Proof.Machine

/-! ### The class of a can (R105) -/

/-- A table of classes read from its first row on (Table 6-2). -/
theorem firstHolding_cons (cls : CanClass) (holds : Bool) (rows : List (CanClass × Bool)) :
    (((cls, holds) :: rows).find? (·.2)).map (·.1) = if holds then some cls else (rows.find? (·.2)).map (·.1) := by
  cases holds <;> rfl

theorem netWeight_of_no_gross (p : Product) {w : WindowResult} (h : w.gross = none) : netWeight (some p) w = none := by
  simp [netWeight, h]

theorem netWeight_of_gross (p : Product) {w : WindowResult} {g : Int} (h : w.gross = some g) :
    netWeight (some p) w = some (clampWeight (g - p.tare)) := by
  simp [netWeight, h]

/-- A can without a gross has no usable weight, whatever the later rows of the table say. -/
theorem classOf_of_no_net {p : Product} {w : WindowResult} (tracking : TrackingState) (read : Option ReadResult)
    (h : netWeight (some p) w = none) : classOf (some p) tracking read w = .noWeight := by
  simp [classOf, h]

/-- Settles O35: without a gross the first row of the table holds; with one, its rows are the tests of `classOf` in turn. -/
theorem classFollowsTable : Obligations.ClassFollowsTable := by
  unfold Obligations.ClassFollowsTable
  intro p tracking read w net hnet
  cases hgross : w.gross with
  | none =>
    rw [classOf_of_no_net tracking read (netWeight_of_no_gross p hgross), firstHolding_cons, if_pos (by simp)]
  | some g =>
    have hweight : netWeight (some p) w = some net := by
      rw [netWeight_of_gross p hgross, hnet, hgross]
      rfl
    simp only [firstHolding_cons, classOf, hweight, reduceCtorEq, false_or, decide_eq_true_eq, apply_ite some, if_true]

/-! ### Removing the oldest entries of a kind -/

section RemoveFirst

variable {α : Type} (p : α → Bool)

theorem removeFirst_sublist (l : List α) : (removeFirst p l).Sublist l := by
  rw [removeFirst_eq_eraseP]
  exact List.eraseP_sublist

/-- Of the elements of the kind, the oldest is gone. -/
theorem filter_removeFirst (l : List α) : (removeFirst p l).filter p = (l.filter p).drop 1 := by
  induction l with
  | nil => rfl
  | cons a rest ih => cases h : p a <;> simp [removeFirst, h, ih]

/-- The elements of any other kind stay. -/
theorem filter_not_removeFirst (l : List α) : (removeFirst p l).filter (fun a => !p a) = l.filter (fun a => !p a) := by
  induction l with
  | nil => rfl
  | cons a rest ih => cases h : p a <;> simp [removeFirst, h, ih]

theorem removeFirst_of_filter_eq_nil {p : α → Bool} {l : List α} (h : l.filter p = []) : removeFirst p l = l := by
  rw [removeFirst_eq_eraseP]
  exact List.eraseP_of_forall_not (by simpa using h)

theorem removeFirstN_sublist (n : Nat) (l : List α) : (removeFirstN p n l).Sublist l := by
  induction n generalizing l with
  | zero => exact List.Sublist.refl l
  | succ n ih => exact (ih _).trans (removeFirst_sublist p l)

theorem filter_removeFirstN (n : Nat) (l : List α) : (removeFirstN p n l).filter p = (l.filter p).drop n := by
  induction n generalizing l with
  | zero => rfl
  | succ n ih => rw [removeFirstN, ih, filter_removeFirst, List.drop_drop, Nat.add_comm]

theorem filter_not_removeFirstN (n : Nat) (l : List α) :
    (removeFirstN p n l).filter (fun a => !p a) = l.filter (fun a => !p a) := by
  induction n generalizing l with
  | zero => rfl
  | succ n ih => rw [removeFirstN, ih, filter_not_removeFirst]

/-- The last of the removals written outermost. -/
theorem removeFirst_removeFirstN (n : Nat) (l : List α) :
    removeFirst p (removeFirstN p n l) = removeFirstN p (n + 1) l := by
  induction n generalizing l with
  | zero => rfl
  | succ n ih => exact ih (removeFirst p l)

end RemoveFirst

/-! ### Lost confirms (R116) -/

/-- A counter saturates at its largest value (00_scope.md 1.7). -/
theorem tally_toNat (c : Counter) (n : Nat) : (tally c n).toNat = min (c.toNat + n) 4294967295 := by
  unfold tally
  split
  · rw [BitVec.toNat_ofNat]
    omega
  · have hmax : (BitVec.ofNat 32 (2 ^ 32 - 1)).toNat = 4294967295 := by decide
    omega

theorem tally_tally (c : Counter) (a b : Nat) : tally (tally c a) b = tally c (a + b) := by
  apply BitVec.eq_of_toNat_eq
  rw [tally_toNat, tally_toNat, tally_toNat]
  omega

/-- The FIRED entries of the Reject Schedule, the oldest first. -/
def State.firedEntries (s : State) : List RejectEntry :=
  s.jr.schedule.filter (fun e => e.fired)

theorem any_fired_iff (s : State) : s.jr.schedule.any (fun e => e.fired) = true ↔ 0 < s.firedEntries.length := by
  rw [State.firedEntries, List.length_filter_pos_iff, List.any_eq_true]

/-- The `n` oldest FIRED entries removed and counted as lost confirms. -/
def State.creditLost (s : State) (n : Nat) : State :=
  (s.withSchedule (removeFirstN (fun e => e.fired) n s.jr.schedule)).withRejectCounters
    { s.jr.counters with lostConfirms := tally s.jr.counters.lostConfirms n }

theorem creditLost_zero (s : State) : s.creditLost 0 = s := by
  rw [State.creditLost, tally_zero]
  rfl

theorem creditLost_creditLost_one (s : State) (n : Nat) : (s.creditLost 1).creditLost n = s.creditLost (n + 1) := by
  have hcount : tally s.jr.counters.lostConfirms (n + 1) = tally (tally s.jr.counters.lostConfirms 1) n := by
    rw [tally_tally, Nat.add_comm]
  unfold State.creditLost
  rw [hcount]
  rfl

theorem creditLost_firedEntries (s : State) (n : Nat) : (s.creditLost n).firedEntries = s.firedEntries.drop n :=
  filter_removeFirstN _ n s.jr.schedule

/-- A gap of `m` credits as many of the oldest FIRED entries as stand, up to `m`. -/
theorem confirmLost_eq (m : Nat) (s : State) : confirmLost m s = s.creditLost (min m s.firedEntries.length) := by
  induction m generalizing s with
  | zero => rw [Nat.zero_min, creditLost_zero, confirmLost]
  | succ m ih =>
    by_cases hfired : s.jr.schedule.any (fun e => e.fired) = true
    · have hlen : 0 < s.firedEntries.length := (any_fired_iff s).mp hfired
      have hmin : min m (s.firedEntries.length - 1) + 1 = min (m + 1) s.firedEntries.length := by omega
      calc confirmLost (m + 1) s = confirmLost m (s.creditLost 1) := if_pos hfired
        _ = s.creditLost (min m (s.firedEntries.length - 1) + 1) := by
          rw [ih, creditLost_firedEntries, List.length_drop, creditLost_creditLost_one]
        _ = s.creditLost (min (m + 1) s.firedEntries.length) := by rw [hmin]
    · have hlen : s.firedEntries.length = 0 := by
        rw [any_fired_iff] at hfired
        omega
      rw [hlen, Nat.min_zero, creditLost_zero]
      exact if_neg hfired

/-! ### The gap of a confirm frame (R116) -/

/-- The confirms missed before a frame: its gap against the expectation, none while there is no expectation. -/
def State.confirmsMissed (s : State) (seq : Byte) : Nat :=
  match s.jr.confirmExp with
  | none => 0
  | some e => seqGap seq e

/-- The FIRED entries that a gap of `m` confirms. -/
def State.lostTo (s : State) (m : Nat) : Nat :=
  if m ≤ 16 then min m s.firedEntries.length else 0

/-- The state after the gap `m` of a confirm frame that removes `lost` FIRED entries. -/
def State.afterConfirmGap (s : State) (seq : Byte) (m lost : Nat) : State :=
  { s with jr := { s.jr with
      schedule := removeFirstN (fun e => e.fired) lost s.jr.schedule
      confirmExp := some (seq + 1)
      counters := { s.jr.counters with
        lostConfirms := tally s.jr.counters.lostConfirms lost
        restarts := if 17 ≤ m then tally s.jr.counters.restarts 1 else s.jr.counters.restarts } } }

/-- The state with the confirm expectation after a frame of sequence `seq`. -/
def State.expectAfter (s : State) (seq : Byte) : State :=
  { s with jr := { s.jr with confirmExp := some (seq + 1) } }

theorem confirmGap_of_no_gap {s : State} {seq : Byte} (h : s.confirmsMissed seq = 0) :
    confirmGap seq s = s.expectAfter seq := by
  unfold State.confirmsMissed at h
  unfold confirmGap
  cases hexp : s.jr.confirmExp with
  | none => rfl
  | some e =>
    rw [hexp] at h
    exact congrArg (State.expectAfter · seq) (if_pos h)

theorem confirmGap_of_gap {s : State} {seq : Byte} (h : s.confirmsMissed seq ≠ 0) :
    confirmGap seq s =
      (if s.confirmsMissed seq ≤ 16 then confirmLost (s.confirmsMissed seq) s
        else s.withRejectCounters { s.jr.counters with restarts := tally s.jr.counters.restarts 1 }).expectAfter seq := by
  unfold State.confirmsMissed at h ⊢
  unfold confirmGap
  cases hexp : s.jr.confirmExp with
  | none =>
    rw [hexp] at h
    exact absurd rfl h
  | some e =>
    rw [hexp] at h
    exact congrArg (State.expectAfter · seq) (if_neg h)

theorem creditLost_expectAfter (s : State) (seq : Byte) {m : Nat} (hm : m ≤ 16) (lost : Nat) :
    (s.creditLost lost).expectAfter seq = s.afterConfirmGap seq m lost := by
  rw [State.afterConfirmGap, if_neg (by omega)]
  rfl

/-- Of its three outcomes, no gap and lost confirms credit what the gap covers, and a restart credits none. -/
theorem confirmGap_eq (s : State) (seq : Byte) :
    confirmGap seq s = s.afterConfirmGap seq (s.confirmsMissed seq) (s.lostTo (s.confirmsMissed seq)) := by
  by_cases hnone : s.confirmsMissed seq = 0
  · rw [confirmGap_of_no_gap hnone, hnone, State.lostTo, if_pos (Nat.zero_le 16), Nat.zero_min,
      ← creditLost_expectAfter s seq (Nat.zero_le 16), creditLost_zero]
  · rw [confirmGap_of_gap hnone]
    by_cases hlost : s.confirmsMissed seq ≤ 16
    · rw [if_pos hlost, confirmLost_eq, State.lostTo, if_pos hlost, creditLost_expectAfter s seq hlost]
    · rw [if_neg hlost, State.lostTo, if_neg hlost, State.afterConfirmGap, if_pos (by omega), tally_zero]
      rfl

theorem afterConfirmGap_firedEntries (s : State) (seq : Byte) (m lost : Nat) :
    (s.afterConfirmGap seq m lost).firedEntries = s.firedEntries.drop lost :=
  filter_removeFirstN _ lost s.jr.schedule

/-! ### The frame's own confirm (R117) -/

theorem confirmOwn_of_fired {s : State} (h : 0 < s.firedEntries.length) :
    confirmOwn s = (s.withSchedule (removeFirst (fun e => e.fired) s.jr.schedule)).withRejectCounters
      { s.jr.counters with confirms := tally s.jr.counters.confirms 1 } :=
  if_pos ((any_fired_iff s).mpr h)

theorem report_congr {old old' : State} (new : State) (h : old.statusWord = old'.statusWord) :
    report old new = report old' new := by
  simp only [report, h]

/-- An unexpected reject is reported against the state before it: its counter is not in the status word. -/
theorem confirmOwn_of_none_fired {s : State} (h : s.firedEntries = []) :
    confirmOwn s = report s { s with jr := { s.jr with
      unexpected := true
      counters := { s.jr.counters with unexpected := tally s.jr.counters.unexpected 1 } } } := by
  have hnone : ¬ s.jr.schedule.any (fun e => e.fired) = true := by
    rw [any_fired_iff, h]
    exact Nat.lt_irrefl _
  rw [confirmOwn, if_neg hnone]
  exact report_congr _ rfl

/-! ### CONFIRM_FRAME -/

theorem exec_confirmFrame (s : State) : exec .confirmFrame s = execConfirmFrame s := by
  rfl

theorem exec_confirmFrame_of_hands {s : State} {c : Copy} {rest : List (Role × Copy)} (h : s.hands .confirm c rest) :
    exec .confirmFrame s = .next (confirmOwn ((s.taken rest).afterConfirmGap c.sequence (s.confirmsMissed c.sequence)
      (s.lostTo (s.confirmsMissed c.sequence)))) := by
  rw [exec_confirmFrame, execConfirmFrame, onHanded_of_hands _ h, takeConfirm, confirmGap_eq]
  rfl

/-- Settles O39: the entries left are those after `lost + 1` removals of the oldest FIRED entry. The last one is the frame's own
confirm, which changes nothing when no FIRED entry is left. -/
theorem confirmRemovesOldestFired : Obligations.ConfirmRemovesOldestFired := by
  unfold Obligations.ConfirmRemovesOldestFired
  intro s c rest m lost fired hhands hm hfired hlost
  have hmissed : m = s.confirmsMissed c.sequence := hm
  have hlostTo : lost = s.lostTo m := by rw [hlost, hfired]; rfl
  have hleft : ((s.taken rest).afterConfirmGap c.sequence m lost).firedEntries = fired.drop lost := by
    rw [hfired]
    exact afterConfirmGap_firedEntries (s.taken rest) c.sequence m lost
  rw [exec_confirmFrame_of_hands hhands, ← hmissed, ← hlostTo]
  refine ⟨removeFirstN (fun e => e.fired) (lost + 1) s.jr.schedule, _, removeFirstN_sublist _ _ _, ?_,
    filter_not_removeFirstN _ _ _, rfl, ?_, ?_⟩
  · rw [hfired, filter_removeFirstN]
  · intro hsome
    rw [confirmOwn_of_fired (by rw [hleft, List.length_drop]; omega), ← removeFirst_removeFirstN]
    rfl
  · intro hall
    have hnone : ((s.taken rest).afterConfirmGap c.sequence m lost).firedEntries = [] := by
      rw [hleft, hall, List.drop_length]
    have hkept : removeFirst (fun e => e.fired) (removeFirstN (fun e => e.fired) lost s.jr.schedule) =
        removeFirstN (fun e => e.fired) lost s.jr.schedule := removeFirst_of_filter_eq_nil hnone
    rw [confirmOwn_of_none_fired hnone, ← removeFirst_removeFirstN, hkept]
    exact congrArg Host.Outcome.next (report_congr _ rfl)

end Sys2Proof.Machine
end

section
/-!
PROOFS of 07_valve_statistics_and_dose_trim.md: rounding does not enlarge a quotient, what feeding does to a record, the four
outcomes of a trim decision and how far it moves the trim; and the follow check of a discharge without a gap or a full queue.
-/

namespace Sys2Proof.Machine

/-! ### Rounding (00_scope.md 1.7) -/

/-- Of a magnitude, rounding to nearest leaves a magnitude no greater than it. -/
theorem roundedMagnitude_le {m : Int} {b : Nat} (hm : 0 ≤ m) (hb : 1 ≤ b) :
    0 ≤ (2 * m + b) / (2 * b) ∧ (2 * m + b) / (2 * b) ≤ m := by
  have hb' : (1 : Int) ≤ b := by exact_mod_cast hb
  refine ⟨Int.ediv_nonneg (by omega) (by omega), Int.lt_add_one_iff.mp (Int.ediv_lt_of_lt_mul (by omega) ?_)⟩
  nlinarith

theorem roundDiv_nonneg {a : Int} (b : Nat) (ha : 0 ≤ a) : 0 ≤ roundDiv a b := by
  rw [roundDiv, if_pos ha]
  exact Int.ediv_nonneg (by omega) (by omega)

/-- A rounded quotient lies between 0 and its dividend. -/
theorem roundDiv_between (a : Int) {b : Nat} (hb : 1 ≤ b) : min 0 a ≤ roundDiv a b ∧ roundDiv a b ≤ max 0 a := by
  unfold roundDiv
  split
  · next ha =>
    obtain ⟨hlow, hhigh⟩ := roundedMagnitude_le ha hb
    omega
  · next ha =>
    obtain ⟨hlow, hhigh⟩ := roundedMagnitude_le (m := -a) (by omega) hb
    omega

/-! ### Feeding (R142) -/

theorem fedRecord_eAvg_first (p : Product) (net : Int) {r : ValveRecord} (h : r.n = 0) :
    (fedRecord p net r).eAvg = 16 * (net - p.target) := by
  simp [fedRecord, h]

theorem fedRecord_eAvg_next (p : Product) (net : Int) {r : ValveRecord} (h : 1 ≤ r.n) :
    (fedRecord p net r).eAvg = r.eAvg + roundDiv (16 * (net - p.target) - r.eAvg) (2 ^ p.k) := by
  have hnext : min (r.n + 1) 65535 ≠ 1 := by omega
  simp [fedRecord, hnext]

/-- A fed average stays between the old one and the new error. -/
theorem fedRecord_eAvg_between (p : Product) (net : Int) {r : ValveRecord} (h : 1 ≤ r.n) :
    min r.eAvg (16 * (net - p.target)) ≤ (fedRecord p net r).eAvg ∧
      (fedRecord p net r).eAvg ≤ max r.eAvg (16 * (net - p.target)) := by
  obtain ⟨hlow, hhigh⟩ := roundDiv_between (16 * (net - p.target) - r.eAvg) (Nat.one_le_two_pow (n := p.k))
  rw [fedRecord_eAvg_next p net h]
  omega

/-! ### The step and the candidate (R144) -/

theorem stepMagnitude_between (p : Product) (eAvg : Int) :
    0 ≤ stepMagnitude p eAvg ∧ stepMagnitude p eAvg ≤ p.maxStep := by
  have hnonneg : 0 ≤ roundDiv ((eAvg.natAbs : Int) * p.g * 2) p.gq := roundDiv_nonneg _ (by positivity)
  rw [stepMagnitude]
  omega

/-- The trim that a decision aims at, before it is held within its limits (R144 step 3). -/
def trimCandidate (p : Product) (r : ValveRecord) : Int :=
  if 0 < r.eAvg then r.trim - stepMagnitude p r.eAvg else r.trim + stepMagnitude p r.eAvg

/-- A candidate held within the limits stays at most a step from a trim within them, and on the side against the average. -/
theorem clampTrim_candidate {p : Product} {r : ValveRecord} (hmin : p.trimMin ≤ r.trim) (hmax : r.trim ≤ p.trimMax) :
    p.trimMin ≤ clampTrim (some p) (trimCandidate p r) ∧ clampTrim (some p) (trimCandidate p r) ≤ p.trimMax ∧
      (clampTrim (some p) (trimCandidate p r) - r.trim).natAbs ≤ p.maxStep ∧
      (clampTrim (some p) (trimCandidate p r) ≠ r.trim →
        (clampTrim (some p) (trimCandidate p r) < r.trim ↔ 0 < r.eAvg)) := by
  obtain ⟨hnonneg, hstep⟩ := stepMagnitude_between p r.eAvg
  rw [clampTrim, trimCandidate]
  split
  · next hpos => simp only [hpos, iff_true]; omega
  · next hneg => simp only [hneg, iff_false]; omega

/-! ### The outcomes of a decision (R143 to R145) -/

section Decision

variable {p : Product} {r : ValveRecord} (can : Word32)

theorem trimDecision_of_few (h : r.n < p.nMin) : trimDecision p can r = (r, false) :=
  if_pos h

theorem trimDecision_of_slack (henough : p.nMin ≤ r.n)
    (h : r.eAvg.natAbs ≤ 16 * p.deadband ∨ stepMagnitude p r.eAvg = 0) :
    trimDecision p can r = ({ r with limit := false }, false) := by
  rw [trimDecision, if_neg (not_lt.mpr henough)]
  by_cases hband : r.eAvg.natAbs ≤ 16 * p.deadband
  · rw [if_pos hband]
  · rw [if_neg hband]
    exact if_pos (h.resolve_left hband)

variable (henough : p.nMin ≤ r.n) (hband : 16 * p.deadband < r.eAvg.natAbs) (hstep : stepMagnitude p r.eAvg ≠ 0)
include henough hband hstep

theorem trimDecision_of_held (h : clampTrim (some p) (trimCandidate p r) = r.trim) :
    trimDecision p can r = ({ r with n := 0, eAvg := 0, limit := true }, false) := by
  rw [trimDecision, if_neg (not_lt.mpr henough), if_neg (not_le.mpr hband)]
  exact (if_neg hstep).trans (if_pos h)

theorem trimDecision_of_moved (h : clampTrim (some p) (trimCandidate p r) ≠ r.trim) :
    trimDecision p can r = ({ r with
      trim := clampTrim (some p) (trimCandidate p r), state := .settling, n := 0, eAvg := 0
      trimChanges := tally r.trimChanges 1, lastChange := some can
      limit := decide (trimCandidate p r < p.trimMin ∨ p.trimMax < trimCandidate p r) }, true) := by
  rw [trimDecision, if_neg (not_lt.mpr henough), if_neg (not_le.mpr hband)]
  exact (if_neg hstep).trans (if_neg h)

/-- A decision that is taken leaves the candidate held within its limits as the trim, whether the trim moves or not. -/
theorem trimDecision_trim_of_taken :
    (trimDecision p can r).1.trim = clampTrim (some p) (trimCandidate p r) := by
  by_cases h : clampTrim (some p) (trimCandidate p r) = r.trim
  · rw [trimDecision_of_held can henough hband hstep h, h]
  · rw [trimDecision_of_moved can henough hband hstep h]

end Decision

/-- What a decision can make of the trim. -/
theorem trimDecision_trim_cases (p : Product) (can : Word32) (r : ValveRecord) :
    (trimDecision p can r).1.trim = r.trim ∨ (trimDecision p can r).1.trim = clampTrim (some p) (trimCandidate p r) := by
  by_cases hfew : r.n < p.nMin
  · rw [trimDecision_of_few can hfew]
    exact .inl rfl
  have henough : p.nMin ≤ r.n := not_lt.mp hfew
  by_cases hslack : r.eAvg.natAbs ≤ 16 * p.deadband ∨ stepMagnitude p r.eAvg = 0
  · rw [trimDecision_of_slack can henough hslack]
    exact .inl rfl
  · obtain ⟨hband, hstep⟩ := not_or.mp hslack
    exact .inr (trimDecision_trim_of_taken can henough (not_le.mp hband) hstep)

/-- From a trim within its limits a decision keeps within them, moves by at most max step, and moves against the average. -/
theorem trimDecision_trim_bounds {p : Product} (can : Word32) {r : ValveRecord} (hmin : p.trimMin ≤ r.trim)
    (hmax : r.trim ≤ p.trimMax) :
    p.trimMin ≤ (trimDecision p can r).1.trim ∧ (trimDecision p can r).1.trim ≤ p.trimMax ∧
      ((trimDecision p can r).1.trim - r.trim).natAbs ≤ p.maxStep ∧
      ((trimDecision p can r).1.trim ≠ r.trim → ((trimDecision p can r).1.trim < r.trim ↔ 0 < r.eAvg)) := by
  rcases trimDecision_trim_cases p can r with hsame | htaken
  · rw [hsame]
    exact ⟨hmin, hmax, by simp, fun h => absurd rfl h⟩
  · rw [htaken]
    exact clampTrim_candidate hmin hmax

/-- Settles O41, outcome by outcome of the decision; the bounds are those of the held candidate, `clampTrim_candidate`. -/
theorem trimDecisions : Obligations.TrimDecisions := by
  unfold Obligations.TrimDecisions
  rintro p can r q clear _ _ - - hmin hmax hq rfl rfl
  obtain ⟨rfl, rfl⟩ : q = (trimDecision p can r).1 ∧ clear = (trimDecision p can r).2 := Prod.mk.inj hq
  refine ⟨fun net _ => ⟨rfl, fedRecord_eAvg_first p net, fun hn =>
    ⟨fedRecord_eAvg_next p net hn, fedRecord_eAvg_between p net hn⟩⟩, ?_, ?_, ?_, trimDecision_trim_bounds can hmin hmax⟩
  · intro hfew
    rw [trimDecision_of_few can hfew]
    exact ⟨rfl, rfl⟩
  · intro henough hslack
    rw [trimDecision_of_slack can henough hslack]
    exact ⟨rfl, rfl⟩
  · intro henough hband hstep
    have htrim := trimDecision_trim_of_taken can henough hband hstep
    refine ⟨htrim, fun hheld => ?_, fun hmoved => ?_⟩
    · rw [trimDecision_of_held can henough hband hstep (htrim.symm.trans hheld)]
      exact ⟨rfl, rfl⟩
    · rw [trimDecision_of_moved can henough hband hstep (htrim ▸ hmoved)]
      exact ⟨rfl, rfl⟩

/-! ### The follow check (R137, R139) -/

/-- The follow check concerns the valve: an AUTO entry and a record that settles or collects, outside Trim Mode OFF (R137). -/
def State.awaitsFollow (s : State) (v : Fin Config.valves) : Prop :=
  s.te.mode ≠ .off ∧ s.te.table[v].mode = .auto ∧
    (s.te.valves[v].state = .settling ∨ s.te.valves[v].state = .collecting)

theorem ValveRecord.follows_iff (r : ValveRecord) : r.follows = true ↔ r.state = .settling ∨ r.state = .collecting := by
  simp [ValveRecord.follows]

theorem State.isAuto_iff (s : State) (v : Fin Config.valves) :
    s.isAuto v = true ↔ v.val < s.ma.setup.valveCount ∧ s.te.table[v].mode = .auto := by
  simp [State.isAuto]

theorem ValveRecord.settle_of_settling {r : ValveRecord} (h : r.state = .settling) :
    r.settle = { r with state := .collecting, n := 0, eAvg := 0, unsettledRun := 0 } :=
  if_pos h

theorem ValveRecord.settle_of_collecting {r : ValveRecord} (h : r.state = .collecting) :
    r.settle = { r with unsettledRun := 0 } :=
  if_neg (by simp [h])

theorem report_te (old new : State) : (report old new).te = new.te :=
  (report_only old new).keep .te (by decide)

theorem evalAttention_te (s : State) :
    (evalAttention s).te = { s.te with attention := s.te.valves.toList.any fun r => r.state == .fault } :=
  report_te _ _

/-- VALVE_ATTENTION stands once a valve in FAULT is put among the records (R139). -/
theorem evalAttention_attention_of_fault {s : State} {v : Fin Config.valves} (h : s.te.valves[v].state = .fault) :
    (evalAttention s).te.attention = true := by
  rw [evalAttention_te, List.any_eq_true]
  exact ⟨s.te.valves[v], by simp, beq_iff_eq.mpr h⟩

theorem enterFault_of_below {v : Fin Config.valves} {s : State} (h : s.te.valves[v].unsettledRun < 32) :
    enterFault v s = s := by
  have hbelow : decide (Config.unsettledLimit ≤ s.te.valves[v].unsettledRun) = false := decide_eq_false (not_le.mpr h)
  exact if_neg (by rw [hbelow, Bool.and_false]; exact Bool.false_ne_true)

theorem enterFault_of_reached {v : Fin Config.valves} {s : State} (hauto : s.isAuto v = true)
    (hfollows : s.te.valves[v].follows = true) (h : 32 ≤ s.te.valves[v].unsettledRun) :
    enterFault v s = evalAttention (s.setValve v { s.te.valves[v] with state := .fault, n := 0, eAvg := 0 }) := by
  have hreached : decide (Config.unsettledLimit ≤ s.te.valves[v].unsettledRun) = true := decide_eq_true h
  exact if_pos (by rw [hauto, hfollows, hreached]; rfl)

/-- A record put in with a run of 32 or more is in FAULT, and VALVE_ATTENTION stands (R139). -/
theorem enterFault_setValve_of_reached {v : Fin Config.valves} {s : State} {r : ValveRecord} (hauto : s.isAuto v = true)
    (hfollows : r.follows = true) (h : 32 ≤ r.unsettledRun) :
    (enterFault v (s.setValve v r)).te.valves[v] = { r with state := .fault, n := 0, eAvg := 0 } ∧
      (enterFault v (s.setValve v r)).te.attention = true := by
  have hrecord := s.setValve_same v r
  rw [enterFault_of_reached (s := s.setValve v r) hauto (by rwa [hrecord]) (by rwa [hrecord]), hrecord]
  refine ⟨?_, evalAttention_attention_of_fault (v := v) ?_⟩
  · rw [evalAttention_te]
    exact State.setValve_same _ _ _
  · rw [State.setValve_same]

/-- The Trim Engine differs from `s` in the record of one valve and in VALVE_ATTENTION at most. -/
def State.sameTrimBut (s : State) (v : Fin Config.valves) (t : State) : Prop :=
  (∀ u : Fin Config.valves, u ≠ v → t.te.valves[u] = s.te.valves[u]) ∧
    t.te = { s.te with valves := t.te.valves, attention := t.te.attention }

theorem State.sameTrimBut_refl (s : State) (v : Fin Config.valves) : s.sameTrimBut v s :=
  ⟨fun _ _ => rfl, rfl⟩

theorem State.sameTrimBut_setValve {s t : State} {v : Fin Config.valves} (h : s.sameTrimBut v t) (r : ValveRecord) :
    s.sameTrimBut v (t.setValve v r) := by
  obtain ⟨hothers, hte⟩ := h
  exact ⟨fun u hu => (t.setValve_other r (Ne.symm hu)).trans (hothers u hu), by rw [State.setValve_te, hte]⟩

theorem State.sameTrimBut_evalAttention {s t : State} {v : Fin Config.valves} (h : s.sameTrimBut v t) :
    s.sameTrimBut v (evalAttention t) := by
  obtain ⟨hothers, hte⟩ := h
  simp only [State.sameTrimBut, evalAttention_te]
  exact ⟨hothers, by rw [hte]⟩

theorem enterFault_sameTrimBut {s t : State} {v : Fin Config.valves} (h : s.sameTrimBut v t) :
    s.sameTrimBut v (enterFault v t) := by
  unfold enterFault
  dsimp only
  split
  · exact State.sameTrimBut_evalAttention (State.sameTrimBut_setValve h _)
  · exact h

theorem followDischarge_sameTrimBut (v : Fin Config.valves) (settled present : Bool) (s : State) :
    s.sameTrimBut v (followDischarge v settled present s) := by
  have hrefl := s.sameTrimBut_refl v
  unfold followDischarge
  dsimp only
  repeat' split
  · exact State.sameTrimBut_setValve hrefl _
  · exact enterFault_sameTrimBut (State.sameTrimBut_setValve hrefl _)
  · exact hrefl
  · exact hrefl

/-- An unsettled discharge without an expected set-point counts nothing (R137). -/
theorem followDischarge_of_absent (v : Fin Config.valves) (s : State) : followDischarge v false false s = s := by
  simp [followDischarge]

section Follow

variable {s : State} {v : Fin Config.valves} (hcount : v.val < s.ma.setup.valveCount)
include hcount

/-- The model's test of R137 for a valve below the valve count. -/
theorem followCondition_iff :
    (s.te.mode != .off && s.isAuto v && s.te.valves[v].follows) = true ↔ s.awaitsFollow v := by
  simp [State.awaitsFollow, State.isAuto_iff, ValveRecord.follows_iff, hcount, and_assoc]

theorem followDischarge_of_not_awaits (settled present : Bool) (h : ¬ s.awaitsFollow v) :
    followDischarge v settled present s = s :=
  if_neg (mt (followCondition_iff hcount).mp h)

theorem followDischarge_of_settled (present : Bool) (h : s.awaitsFollow v) :
    followDischarge v true present s = s.setValve v s.te.valves[v].settle :=
  if_pos ((followCondition_iff hcount).mpr h)

theorem followDischarge_of_unsettled (h : s.awaitsFollow v) :
    followDischarge v false true s =
      enterFault v (s.setValve v { s.te.valves[v] with unsettledRun := s.te.valves[v].unsettledRun + 1 }) :=
  if_pos ((followCondition_iff hcount).mpr h)

theorem followDischarge_counts (h : s.awaitsFollow v) (hrun : s.te.valves[v].unsettledRun + 1 < 32) :
    followDischarge v false true s =
      s.setValve v { s.te.valves[v] with unsettledRun := s.te.valves[v].unsettledRun + 1 } := by
  rw [followDischarge_of_unsettled hcount h, enterFault_of_below]
  rwa [State.setValve_same]

/-- The 32nd unsettled discharge in a row puts the valve in FAULT and raises VALVE_ATTENTION (R139). -/
theorem followDischarge_faults (h : s.awaitsFollow v) (hrun : 32 ≤ s.te.valves[v].unsettledRun + 1) :
    (followDischarge v false true s).te.valves[v] = { s.te.valves[v] with
        unsettledRun := s.te.valves[v].unsettledRun + 1, state := .fault, n := 0, eAvg := 0 } ∧
      (followDischarge v false true s).te.attention = true := by
  rw [followDischarge_of_unsettled hcount h]
  obtain ⟨-, hauto, hstate⟩ := h
  exact enterFault_setValve_of_reached ((s.isAuto_iff v).mpr ⟨hcount, hauto⟩)
    ((ValveRecord.follows_iff _).mpr hstate) hrun

end Follow

/-! ### DISCHARGE_FRAME without a gap or a full queue -/

theorem exec_dischargeFrame (s : State) : exec .dischargeFrame s = execDischargeFrame s := by
  rfl

theorem exec_dischargeFrame_of_hands {s : State} {c : Copy} {rest : List (Role × Copy)} (h : s.hands .discharge c rest) :
    exec .dischargeFrame s = .next (takeDischarge c (s.taken rest)) := by
  rw [exec_dischargeFrame, execDischargeFrame, onHanded_of_hands _ h]

/-- A first discharge and one with the expected sequence show no gap (R63). -/
theorem dischargeGap_of_in_sequence {seq : Byte} {s : State}
    (h : s.tq.dischargeExp = none ∨ s.tq.dischargeExp = some seq) : dischargeGap seq s = s := by
  unfold dischargeGap
  rcases h with hnone | hsame
  · rw [hnone]
  · simp [hsame, seqGap_self]

/-- With room in the queue a record is created and nothing else changes (R67). -/
theorem createRecord_of_room (k : Fin 16) (seed : RecordSeed) {s : State} (h : s.tq.queue.length < 128) :
    OnlyChanges [.tq] s (createRecord k seed s) := by
  have hroom : makeRoom s = s := if_pos h
  rw [createRecord, hroom]
  exact (OnlyChanges.refl _ s).put_tq _ (by decide)

theorem State.valveInRange_of_lt {s : State} {v : Fin Config.valves} (h : v.val < s.ma.setup.valveCount) :
    s.valveInRange v.val = some v := by
  simp [State.valveInRange, h]

/-- The discharge of a valve in range: its record is created, and the follow check made with its stamp (R67, R155, R137). -/
theorem admitDischarge_in_range (k : Fin 16) {w : Fin Config.valves} (setPoint : Word16) {s : State}
    (hcount : w.val < s.ma.setup.valveCount) (hroom : s.tq.queue.length < 128) :
    ∃ t : State, OnlyChanges [.tq] s t ∧ admitDischarge k w.val setPoint s =
      followDischarge w (s.rw.expected[w] == some setPoint) s.rw.expected[w].isSome t := by
  rw [admitDischarge, State.valveInRange_of_lt hcount]
  exact ⟨_, createRecord_of_room k _ hroom, rfl⟩

theorem takeDischarge_in_range {s : State} {c : Copy} {k : Fin 16} {w : Fin Config.valves}
    (hseq : s.tq.dischargeExp = none ∨ s.tq.dischargeExp = some c.sequence) (hactive : s.pu.active = some k)
    (hroom : s.tq.queue.length < 128) (hvalve : w.val = dischargeValve c.payload)
    (hcount : w.val < s.ma.setup.valveCount) :
    ∃ t : State, OnlyChanges [.tq] s t ∧ takeDischarge c s =
      followDischarge w (s.rw.expected[w] == some (dischargeSetPoint c.payload)) s.rw.expected[w].isSome t := by
  obtain ⟨t, honly, hadmit⟩ := admitDischarge_in_range k (dischargeSetPoint c.payload)
    (s := { s with tq := { s.tq with dischargeExp := some (c.sequence + 1) } }) hcount hroom
  refine ⟨t, ((OnlyChanges.refl _ s).put_tq _ (by decide)).trans honly, ?_⟩
  rw [takeDischarge, dischargeGap_of_in_sequence hseq]
  dsimp only
  rw [hactive, ← hvalve]
  exact hadmit

/-- DISCHARGE_FRAME of a valve in range, without a gap or a full queue, as a follow check made once the record is created. -/
theorem exec_dischargeFrame_in_range {s : State} {c : Copy} {rest : List (Role × Copy)} {k : Fin 16} {w : Fin Config.valves}
    (hhands : s.hands .discharge c rest) (hseq : s.tq.dischargeExp = none ∨ s.tq.dischargeExp = some c.sequence)
    (hactive : s.pu.active = some k) (hroom : s.tq.queue.length < 128) (hvalve : w.val = dischargeValve c.payload)
    (hcount : w.val < s.ma.setup.valveCount) :
    ∃ t : State, OnlyChanges [.fp, .tq] s t ∧ exec .dischargeFrame s = .next
      (followDischarge w (s.rw.expected[w] == some (dischargeSetPoint c.payload)) s.rw.expected[w].isSome t) := by
  obtain ⟨t, honly, htake⟩ := takeDischarge_in_range (s := s.taken rest) hseq hactive hroom hvalve hcount
  exact ⟨t, ((withFp_only s _).mono (by decide)).andThen honly (by decide),
    (exec_dischargeFrame_of_hands hhands).trans (congrArg Host.Outcome.next htake)⟩

/-- Settles O42: the discharge creates its record and makes the follow check, whose outcome its stamp and the unsettled run
give. -/
theorem followCheckActs : Obligations.FollowCheckActs := by
  unfold Obligations.FollowCheckActs
  rintro s c rest k w _ _ hhands hseq hactive hroom hvalve hcount rfl rfl
  obtain ⟨u, honly, hexec⟩ := exec_dischargeFrame_in_range hhands hseq hactive hroom hvalve hcount
  have hte : u.te = s.te := honly.keep .te (by decide)
  have hma : u.ma = s.ma := honly.keep .ma (by decide)
  have hrw : u.rw = s.rw := honly.keep .rw (by decide)
  rw [← hma] at hcount
  simp only [← hte]
  obtain ⟨hothers, hsame⟩ := followDischarge_sameTrimBut w
    (s.rw.expected[w] == some (dischargeSetPoint c.payload)) s.rw.expected[w].isSome u
  refine ⟨_, hexec, ((followDischarge_only _ _ _ u).keep .rw (by decide)).trans hrw, hothers, hsame, ?_, ?_, ?_⟩
  · rintro (hidle | habsent)
    · rw [followDischarge_of_not_awaits hcount _ _ hidle]
    · rw [habsent]
      exact congrArg State.te (followDischarge_of_absent w u)
  · intro hacts hexpected
    rw [hexpected, beq_self_eq_true, followDischarge_of_settled hcount _ hacts, State.setValve_same]
    exact ⟨rfl, ValveRecord.settle_of_settling, ValveRecord.settle_of_collecting⟩
  · intro x hacts hexpected hne
    have hunsettled : (s.rw.expected[w] == some (dischargeSetPoint c.payload)) = false := by
      rw [hexpected]
      simpa using hne
    rw [hunsettled, hexpected, Option.isSome_some]
    refine ⟨fun hrun => ?_, followDischarge_faults hcount hacts⟩
    rw [followDischarge_counts hcount hacts hrun]
    exact ⟨State.setValve_same _ _ _, rfl⟩

end Sys2Proof.Machine
end

section
/-!
PROOFS of 11_management_channel.md: how a row runs the command that has begun, the codes and sizes of the tables, what a
commit can reply, what LOAD_BEGIN and LOAD_SEGMENT make of their arguments, and from these the segmented load.
-/

namespace Sys2Proof.Machine

/-! ### A row and its command (R182, R183) -/

/-- A command that has all its arguments, and with which no load conflicts, is executed by its own rule and replied to. -/
theorem runCommand_of_executes {kind : CommandKind} {need : Nat} {busy : State → Bool}
    {body : List Byte → State → State × Reply} {s t : State} {c : Copy} {r : Reply} (h : s.executes kind c)
    (hneed : need ≤ c.args.length) (hbusy : busy s = false) (hbody : body c.args s = (t, r)) :
    runCommand kind need busy body s = t.replied c r := by
  obtain ⟨hexecuting, hclass⟩ := h
  have htested : testedCommand need busy body c.args s = (t, r) := by
    rw [testedCommand, if_neg (Nat.not_lt.mpr hneed), hbusy]
    exact hbody
  rw [runCommand, hexecuting]
  dsimp only
  rw [if_pos hclass, ← Copy.args, htested, State.replied]

theorem anyLoad_of_none {s : State} (h : s.ma.load = none) : anyLoad s = false := by
  rw [anyLoad, h]
  rfl

/-! ### The tables (Tables 12-1, 11-5 and 12-6) -/

/-- The six codes of the loadable tables, each with the number and the size of its entries. -/
theorem tableOfCode_of_listed (code : Byte) (k : Nat × TableId × Nat × Nat)
    (hk : k ∈ ([(0, .channel, 32, 5), (1, .lineSetup, 1, 52), (2, .calibration, 1, 6), (3, .product, 16, 84),
      (4, .valve, 96, 6), (5, .policy, 12, 1)] : List (Nat × TableId × Nat × Nat))) (hcode : code.toNat = k.1) :
    tableOfCode code = some k.2.1 ∧ tableSize k.2.1 = k.2.2.1 ∧ entrySize k.2.1 = k.2.2.2 := by
  simp only [List.mem_cons, List.not_mem_nil, or_false] at hk
  rcases hk with rfl | rfl | rfl | rfl | rfl | rfl <;> simp [tableOfCode, hcode, tableSize, entrySize]

theorem tableOfCode_of_unlisted {code : Byte} (h : 6 ≤ code.toNat) : tableOfCode code = none := by
  unfold tableOfCode
  split
  iterate 6 omega
  rfl

/-! ### What a commit can reply (R188) -/

theorem commitChannel_reply (first : Nat) (entries : List (List Byte)) (s : State) :
    (commitChannel first entries s).2 = {} ∨ ∃ i, commitChannel first entries s = refuseAt i s := by
  unfold commitChannel
  dsimp only
  split
  · exact .inr ⟨_, rfl⟩
  · exact .inl rfl

theorem commitLineSetup_reply (entries : List (List Byte)) (s : State) :
    (commitLineSetup entries s).2 = {} ∨ ∃ i, commitLineSetup entries s = refuseAt i s := by
  unfold commitLineSetup
  split
  · exact .inr ⟨_, rfl⟩
  · exact .inl rfl

theorem commitValve_reply (first : Nat) (entries : List (List Byte)) (s : State) :
    (commitValve first entries s).2 = {} ∨ ∃ i, commitValve first entries s = refuseAt i s := by
  unfold commitValve
  split
  · exact .inr ⟨_, rfl⟩
  · exact .inl rfl

theorem commitPolicy_reply (first : Nat) (entries : List (List Byte)) (s : State) :
    (commitPolicy first entries s).2 = {} ∨ ∃ i, commitPolicy first entries s = refuseAt i s := by
  unfold commitPolicy
  split
  · exact .inr ⟨_, rfl⟩
  · exact .inl rfl

/-- A product load alone can also be refused for a slot in use (R160). -/
theorem commitProduct_reply (first : Nat) (entries : List (List Byte)) (s : State) :
    (commitProduct first entries s).2 = {} ∨ (∃ i, commitProduct first entries s = refuseAt i s) ∨
      ∃ i, commitProduct first entries s = (s, { status := .inUse, index := i }) := by
  unfold commitProduct
  split
  · exact .inr (.inl ⟨_, rfl⟩)
  · split
    · exact .inr (.inr ⟨_, rfl⟩)
    · exact .inl rfl

/-- The owner of a table accepts a whole set, refuses it with the index of an entry, or refuses a product load IN_USE; a
refusal leaves the state as it was. -/
theorem commitTable_reply (t : TableId) (first : Nat) (entries : List (List Byte)) (s : State) :
    (commitTable t first entries s).2 = {} ∨ (∃ i, commitTable t first entries s = refuseAt i s) ∨
      (t = .product ∧ ∃ i, commitTable t first entries s = (s, { status := .inUse, index := i })) := by
  cases t with
  | channel => exact (commitChannel_reply first entries s).imp_right .inl
  | lineSetup => exact (commitLineSetup_reply entries s).imp_right .inl
  | calibration => exact .inl rfl
  | product => exact (commitProduct_reply first entries s).imp_right (.imp_right (⟨rfl, ·⟩))
  | valve => exact (commitValve_reply first entries s).imp_right .inl
  | policy => exact (commitPolicy_reply first entries s).imp_right .inl

/-- What a commit answers, of the state after it and the reply: refused, it changes nothing; no commit replies with data. -/
theorem commitTable_outcome {t : TableId} {first : Nat} {entries : List (List Byte)} {s u : State} {r : Reply}
    (h : (u, r) = commitTable t first entries s) :
    (r.status ≠ .ok → u = s) ∧
      (r.status = .ok ∨ r.status = .badArgument ∨ (r.status = .inUse ∧ t = .product)) ∧ r.data = [] := by
  rcases commitTable_reply t first entries s with hok | ⟨i, hbad⟩ | ⟨ht, i, huse⟩
  · rw [← h] at hok
    obtain rfl : r = {} := hok
    exact ⟨fun hne => absurd rfl hne, .inl rfl, rfl⟩
  · rw [← h, refuseAt] at hbad
    obtain ⟨rfl, rfl⟩ := Prod.mk.inj hbad
    exact ⟨fun _ => rfl, .inr (.inl rfl), rfl⟩
  · rw [← h] at huse
    obtain ⟨rfl, rfl⟩ := Prod.mk.inj huse
    exact ⟨fun _ => rfl, .inr (.inr ⟨rfl, ht⟩), rfl⟩

/-! ### The end of a load (R188, R189) -/

theorem endLoad_eq (s : State) :
    endLoad s = report s { s with ma := { s.ma with load := none, staging := [], loadTimer := none } } := by
  rw [endLoad, State.withMa]

/-- The counters of the Management Agent are not in the status word. -/
theorem statusWord_withMa_counters (s : State) (counters : MgmtCounters) :
    (s.withMa { s.ma with counters := counters }).statusWord = s.statusWord := rfl

/-- The state in which a load ended by SEQUENCE or LENGTH is reported. -/
theorem failLoad_eq (s : State) :
    failLoad s = report s { s with ma := { s.ma with
      load := none, staging := [], loadTimer := none
      counters := { s.ma.counters with sequenceErrors := tally s.ma.counters.sequenceErrors 1 } } } := by
  rw [failLoad, endLoad, report_congr _ (statusWord_withMa_counters s _)]
  rfl

/-- The state in which a load ended by inactivity is reported. -/
theorem loadExpiry_eq (s : State) :
    loadExpiry s = report s { s with ma := { s.ma with
      load := none, staging := [], loadTimer := none
      counters := { s.ma.counters with timeouts := tally s.ma.counters.timeouts 1 } } } := by
  rw [loadExpiry, endLoad, report_congr _ (statusWord_withMa_counters s _)]
  rfl

/-! ### LOAD_BEGIN (R187) -/

section BeginLoad

variable {code first count segments : Byte} {more : List Byte} {s : State}

theorem beginLoad_opens {t : TableId} (htable : tableOfCode code = some t) (hcount : 1 ≤ count.toNat)
    (hrange : first.toNat + count.toNat ≤ tableSize t) (hsegments : segments.toNat = (count.toNat + 7) / 8) :
    beginLoad (code :: first :: count :: segments :: more) s =
      (report s { s with ma := { s.ma with
        load := some { table := t, first := first.toNat, count := count.toNat, segments := segments.toNat, expected := 0 }
        staging := [], loadTimer := some 2000 } }, {}) := by
  have hfits : ¬ (count.toNat = 0 ∨ tableSize t < first.toNat + count.toNat) := by omega
  simp only [beginLoad, byteAt, List.getD_cons_zero, List.getD_cons_succ, htable, if_neg hfits,
    if_neg (not_not_intro hsegments)]
  rfl

theorem beginLoad_refuses
    (h : tableOfCode code = none ∨ count.toNat = 0 ∨ segments.toNat ≠ (count.toNat + 7) / 8 ∨
      ∃ t, tableOfCode code = some t ∧ tableSize t < first.toNat + count.toNat) :
    beginLoad (code :: first :: count :: segments :: more) s = (s, { status := .badArgument }) := by
  simp only [beginLoad, byteAt, List.getD_cons_zero, List.getD_cons_succ]
  cases htable : tableOfCode code with
  | none => rfl
  | some t =>
    dsimp only
    split
    · rfl
    · next hfits =>
      have hsegments : segments.toNat ≠ (count.toNat + 7) / 8 := by
        simpa [htable, not_or.mp hfits] using h
      exact if_pos hsegments

end BeginLoad

/-! ### LOAD_SEGMENT (R188) -/

/-- The entries of a segment are the slices of its bytes at the multiples of the entry size. -/
theorem cutEntries_eq_map_range (size n : Nat) (bytes : List Byte) :
    cutEntries size n bytes = (List.range n).map fun i => (bytes.drop (i * size)).take size := by
  induction n generalizing bytes with
  | zero => rfl
  | succ n ih => simp [cutEntries, ih, List.range_succ_eq_map, Function.comp_def, Nat.succ_mul, Nat.add_comm]

section TakeSegment

variable {d : LoadDesc} {index count : Nat} {bytes : List Byte} {s : State}

theorem takeSegment_out_of_sequence (h : index ≠ d.expected ∨ count ≠ d.segmentEntries) :
    takeSegment d index count bytes s = (failLoad s, { status := .sequence }) :=
  if_pos h

variable (hindex : index = d.expected) (hcount : count = d.segmentEntries)
include hindex hcount

theorem takeSegment_short (h : bytes.length < count * entrySize d.table) :
    takeSegment d index count bytes s = (failLoad s, { status := .length }) := by
  rw [takeSegment, if_neg (by simp [hindex, hcount]), if_pos h, refuse]

variable (hlength : count * entrySize d.table ≤ bytes.length)
include hlength

theorem takeSegment_stages (h : d.expected + 1 < d.segments) :
    takeSegment d index count bytes s = (stageSegment d (cutEntries (entrySize d.table) count bytes) s, {}) := by
  rw [takeSegment, if_neg (by simp [hindex, hcount]), if_neg (Nat.not_lt.mpr hlength)]
  exact if_pos h

theorem takeSegment_commits (h : d.segments ≤ d.expected + 1) :
    takeSegment d index count bytes s = lastSegment d (cutEntries (entrySize d.table) count bytes) s := by
  rw [takeSegment, if_neg (by simp [hindex, hcount]), if_neg (Nat.not_lt.mpr hlength)]
  exact if_neg (Nat.not_lt.mpr h)

end TakeSegment

/-- The owner's answer to the whole set is the reply to the last segment, and the load ends by itself. -/
theorem lastSegment_of_commit {d : LoadDesc} {entries : List (List Byte)} {s u : State} {r : Reply}
    (h : (u, r) = commitTable d.table d.first (s.ma.staging ++ entries) s) :
    lastSegment d entries s = (endLoad u, r) := by
  rw [lastSegment, ← h]

/-! ### The rows of the load -/

theorem exec_loadBegin (s : State) : exec .loadBegin s = execLoadBegin s := by
  rfl

theorem exec_loadSegment (s : State) : exec .loadSegment s = execLoadSegment s := by
  rfl

theorem exec_loadAbort (s : State) : exec .loadAbort s = execLoadAbort s := by
  rfl

theorem exec_loadInactivityExpiry (s : State) : exec .loadInactivityExpiry s = execLoadInactivityExpiry s := by
  rfl

/-- LOAD_BEGIN outside a load, with its four arguments (R187). -/
theorem exec_loadBegin_of_idle {s t : State} {c : Copy} {code first count segments : Byte} {more : List Byte} {r : Reply}
    (h : s.executes .loadBegin c) (hargs : c.args = code :: first :: count :: segments :: more) (hidle : s.ma.load = none)
    (hbody : beginLoad (code :: first :: count :: segments :: more) s = (t, r)) :
    exec .loadBegin s = .next (t.replied c r) := by
  rw [← hargs] at hbody
  rw [exec_loadBegin, execLoadBegin, runCommand_of_executes h (by simp [hargs]) (anyLoad_of_none hidle) hbody]

section LoadSegment

variable {s t : State} {c : Copy} {index count : Byte} {bytes : List Byte} {r : Reply}
  (h : s.executes .loadSegment c) (hargs : c.args = index :: count :: bytes)
include h hargs

theorem exec_loadSegment_of_args (hbody : segmentBody (index :: count :: bytes) s = (t, r)) :
    exec .loadSegment s = .next (t.replied c r) := by
  rw [← hargs] at hbody
  rw [exec_loadSegment, execLoadSegment, runCommand_of_executes h (by simp [hargs]) rfl hbody]

theorem exec_loadSegment_of_idle (hidle : s.ma.load = none) :
    exec .loadSegment s = .next (s.replied c { status := .notLoading }) :=
  exec_loadSegment_of_args h hargs (by rw [segmentBody, hidle, refuse])

/-- LOAD_SEGMENT during a load, with its two arguments and the bytes after them (R188). -/
theorem exec_loadSegment_of_loading {d : LoadDesc} (hload : s.ma.load = some d)
    (htake : takeSegment d index.toNat count.toNat bytes s = (t, r)) :
    exec .loadSegment s = .next (t.replied c r) :=
  exec_loadSegment_of_args h hargs (by rw [segmentBody, hload]; exact htake)

end LoadSegment

theorem exec_loadAbort_of_executes {s : State} {c : Copy} (h : s.executes .loadAbort c) :
    exec .loadAbort s = .next ((abortLoad s).replied c {}) := by
  rw [exec_loadAbort, execLoadAbort, runCommand_of_executes h (Nat.zero_le _) rfl rfl]

theorem exec_loadInactivityExpiry_of_running {s : State} {n : Nat} (h : s.ma.loadTimer = some n) :
    exec .loadInactivityExpiry s = .next (loadExpiry s) := by
  rw [exec_loadInactivityExpiry, execLoadInactivityExpiry, h, Option.isSome_some, if_pos rfl]

/-- Settles O53: a row runs its command by `runCommand_of_executes`. A segment is judged by the tests of `takeSegment` in
turn, and what the owner answers to the last one is `commitTable_outcome`. A running inactivity timer expires whatever its
count (log 5). -/
theorem loadCommands : Obligations.LoadCommands := by
  unfold Obligations.LoadCommands
  refine ⟨fun code => ⟨tableOfCode_of_listed code, tableOfCode_of_unlisted⟩, ?begin, ?segment, ?abort, ?expiry⟩
  case begin =>
    intro s c code first count segments more hexecutes hargs hidle
    exact ⟨fun t htable hcount hrange hsegments => exec_loadBegin_of_idle hexecutes hargs hidle
        (beginLoad_opens htable hcount hrange hsegments),
      fun hrefused => exec_loadBegin_of_idle hexecutes hargs hidle (beginLoad_refuses hrefused)⟩
  case segment =>
    rintro s c index count bytes _ hexecutes hargs rfl
    refine ⟨exec_loadSegment_of_idle hexecutes hargs, ?_⟩
    rintro d _ hload rfl
    refine ⟨fun hwrong => ?_, fun hindex hcount hshort => ?_, ?_⟩
    · rw [exec_loadSegment_of_loading hexecutes hargs hload (takeSegment_out_of_sequence hwrong), failLoad_eq]
    · rw [← hcount] at hshort
      rw [exec_loadSegment_of_loading hexecutes hargs hload (takeSegment_short hindex hcount hshort), failLoad_eq]
    · rintro _ hindex hcount hlength rfl
      rw [← hcount] at hlength ⊢
      rw [← cutEntries_eq_map_range]
      refine ⟨fun hmore => ?_, fun hlast => ?_⟩
      · exact exec_loadSegment_of_loading hexecutes hargs hload (takeSegment_stages hindex hcount hlength hmore)
      · obtain ⟨u, r, hcommit⟩ : ∃ u r, (u, r) = commitTable d.table d.first
            (s.ma.staging ++ cutEntries (entrySize d.table) count.toNat bytes) s := ⟨_, _, rfl⟩
        obtain ⟨hkept, hstatus, hdata⟩ := commitTable_outcome hcommit
        have hlastSegment := (takeSegment_commits hindex hcount hlength hlast).trans (lastSegment_of_commit hcommit)
        exact ⟨u, endLoad u, r, exec_loadSegment_of_loading hexecutes hargs hload hlastSegment, hcommit, endLoad_eq u,
          hkept, hstatus, hdata⟩
  case abort =>
    intro s c hexecutes
    rw [exec_loadAbort_of_executes hexecutes, abortLoad]
    refine ⟨fun hidle => ?_, fun hloading => ?_⟩
    · rw [hidle]
      rfl
    · rw [if_pos (Option.isSome_iff_ne_none.mpr hloading), endLoad_eq]
  case expiry =>
    intro s n htimer
    rw [exec_loadInactivityExpiry_of_running htimer, loadExpiry_eq]

end Sys2Proof.Machine
end

section
/-!
PROOFS, the layer of the rows: the next state of every command, the rows that execute a management command as one family, the
blocks that each row may change, and from these the two ways in which a step keeps an invariant: because it leaves the blocks
that the invariant speaks of, or because the operation of its row keeps it.
-/

namespace Sys2Proof.Machine

/-! ### The next state of a command -/

/-- The state that a command answers. -/
def effect (c : Instr) (s : State) : State :=
  match exec c s with
  | .next t => t
  | .fault _ => s
  | .refused _ => s

theorem exec_eq_effect (c : Instr) (s : State) : exec c s = .next (effect c s) := by
  cases c <;> rfl

theorem exec_eq_next {c : Instr} {s t : State} (h : exec c s = .next t) : t = effect c s := by
  rw [exec_eq_effect] at h
  exact (Host.Outcome.next.inj h).symm

/-- A step is the command at the front of the queue on the state with the queue's rest, or a millisecond. -/
theorem step_cases {s t : State} (h : step s = .next t) :
    (s.pending = [] ∧ t = millisecond s) ∨ ∃ c rest, s.pending = c :: rest ∧ t = effect c { s with pending := rest } := by
  unfold step at h
  split at h
  · exact .inl ⟨‹_›, (Host.Outcome.next.inj h).symm⟩
  · next c rest hp => exact .inr ⟨c, rest, hp, exec_eq_next h⟩

/-! ### The rows that execute a management command (Table 11-3) -/

/-- The bytes of arguments that a row asks for; a RESET row asks for its scope. -/
def CommandKind.required : CommandKind → Nat
  | .loadBegin => 4
  | .loadSegment => 2
  | .readTable => 3
  | .selectProduct => 1
  | .setLot => 8
  | .trimControl => 1
  | .releaseValve => 2
  | .readValves => 2
  | .readQueue => 1
  | .captureControl => 1
  | .resetFull | .resetTracking | .resetStatistics | .resetLoad | .resetCapture => 1
  | .identify | .getStatus | .loadAbort | .readSchedule | .readCounters | .clearCounters | .clearAlarms | .zeroNow
  | .ringRead | .ringFreeze | .ringThaw | .captureDiscard => 0

/-- The loads that a row is in conflict with. -/
def CommandKind.conflicts : CommandKind → State → Bool
  | .loadBegin => anyLoad
  | .selectProduct | .setLot => isLoading .product
  | .releaseValve => isLoading .valve
  | .captureControl => isLoading .lineSetup
  | .identify | .getStatus | .loadSegment | .loadAbort | .readTable | .trimControl | .readValves | .readQueue
  | .readSchedule | .readCounters | .clearCounters | .clearAlarms | .zeroNow | .ringRead | .ringFreeze | .ringThaw
  | .captureDiscard | .resetFull | .resetTracking | .resetStatistics | .resetLoad | .resetCapture => neverBusy

/-- The effect and the reply of the command of a row. -/
def CommandKind.body : CommandKind → List Byte → State → State × Reply
  | .identify => fun _ t => answer t.identification t
  | .getStatus => fun _ t => answer t.statusContents t
  | .loadBegin => beginLoad
  | .loadSegment => segmentBody
  | .loadAbort => fun _ t => (abortLoad t, {})
  | .readTable => readTableBody
  | .selectProduct => selectBody
  | .setLot => setLotBody
  | .trimControl => trimBody
  | .releaseValve => releaseBody
  | .readValves => readValvesBody
  | .readQueue => readQueueBody
  | .readSchedule => fun _ t => answer t.scheduleBytes t
  | .readCounters => fun _ t => answer t.countersData t
  | .clearCounters => fun _ t => (clearAllCounters t, {})
  | .clearAlarms => fun _ t => (Sys2Proof.Machine.clearAlarms t, {})
  | .zeroNow => fun _ t => zeroNowBody t
  | .ringRead => fun _ t => answer t.ringBytes t
  | .ringFreeze => fun _ t => (freezeRing .command t, {})
  | .ringThaw => fun _ t => (thawRing t, {})
  | .captureControl => captureControlBody
  | .captureDiscard => fun _ t => (discardCaptures t, {})
  | .resetFull => fun _ t => (fullReset t, {})
  | .resetTracking => fun _ t => (trackingReset t, {})
  | .resetStatistics => fun _ t => (statisticsReset t, {})
  | .resetLoad => fun _ t => (loadReset t, {})
  | .resetCapture => fun _ t => (resetCaptureState t, {})

/-- A row of Table 11-3 runs the command that has begun, when it is of its kind. -/
theorem effect_row (k : CommandKind) (s : State) : effect k.row s = runCommand k k.required k.conflicts k.body s := by
  cases k <;> rfl

/-- What a row does of its own accord keeps `P` when the body of its command and the reply do. -/
theorem effect_row_keeps {P : State → Prop} (k : CommandKind) {s : State} (hs : P s)
    (hbody : ∀ args, P (k.body args s).1) (hfinish : ∀ c r t, P t → P (finish c r t)) : P (effect k.row s) := by
  rw [effect_row]
  unfold runCommand testedCommand refuse
  split
  · exact hs
  · next c _ =>
    dsimp only
    split
    · refine hfinish _ _ _ ?_
      split
      · exact hs
      · split
        · exact hs
        · exact hbody _
    · exact hs

/-- A row of Table 11-3 leaves the state, or it answers the command that has begun: with a refusal and no effect, or with what
its body makes of it. -/
theorem effect_row_cases (k : CommandKind) (s : State) : effect k.row s = s ∨
    ∃ c, s.executes k c ∧ ((∃ status, effect k.row s = s.replied c { status := status }) ∨
      effect k.row s = (k.body c.args s).1.replied c (k.body c.args s).2) := by
  rw [effect_row]
  unfold runCommand testedCommand refuse
  split
  · exact .inl rfl
  · next c hc =>
    split
    · next hk =>
      refine .inr ⟨c, ⟨hc, hk⟩, ?_⟩
      dsimp only
      split
      · exact .inl ⟨_, rfl⟩
      · split
        · exact .inl ⟨_, rfl⟩
        · exact .inr rfl
    · exact .inl rfl

/-! ### The rows of the events -/

section Events

variable (s : State)

@[simp] theorem effect_powerOn (straps : BitVec 7) : effect (.powerOn straps) s = powerOnState straps s := rfl
@[simp] theorem effect_frameReceived (p : Port) (whole : Bool) (frame : List Byte) :
    effect (.frameReceived p whole frame) s = if (s.fp.port p).linkUp then receiveFrame p whole frame s else s := rfl
@[simp] theorem effect_holdExpiry : effect .holdExpiry s = if s.fp.holdTimer.isSome then clearHold s else s := rfl
@[simp] theorem effect_egressStart (p : Port) :
    effect (.egressStart p) s = s.withFp (s.fp.setPort p (s.fp.port p).start) := rfl
@[simp] theorem effect_transmitComplete (p : Port) :
    effect (.transmitComplete p) s = s.withFp (s.fp.setPort p (s.fp.port p).complete) := rfl
@[simp] theorem effect_linkDown (p : Port) (arriving : Bool) :
    effect (.linkDown p arriving) s = linkLost p arriving s := rfl
@[simp] theorem effect_linkUp (p : Port) :
    effect (.linkUp p) s = s.withFp (s.fp.setPort p { s.fp.port p with linkUp := true }) := rfl
@[simp] theorem effect_intakeDeparture : effect .intakeDeparture s = departIntake s := rfl
@[simp] theorem effect_loadInactivityExpiry :
    effect .loadInactivityExpiry s = if s.ma.loadTimer.isSome then loadExpiry s else s := rfl
@[simp] theorem effect_encoderFrame :
    effect .encoderFrame s = onHanded .encoder (fun c => takeCount (encoderCount c.payload)) s := rfl
@[simp] theorem effect_maxAgeRemoval : effect .maxAgeRemoval s = removeAged s := rfl
@[simp] theorem effect_rejectFire : effect .rejectFire s = fireFirst (RejectEntry.isDue s.pos.linePos) s := rfl
@[simp] theorem effect_confirmTimeout :
    effect .confirmTimeout s = timeoutFirst (RejectEntry.isOverdue s.pos.linePos) s := rfl
@[simp] theorem effect_encoderSilenceExpiry :
    effect .encoderSilenceExpiry s = if s.pos.timer.isSome then encoderSilence s else s := rfl
@[simp] theorem effect_sampleFrame : effect .sampleFrame s = onHanded .samples (fun c => takeSamples c.payload) s := rfl
@[simp] theorem effect_zeroReadingStart : effect .zeroReadingStart s = startZeroReading s := rfl
@[simp] theorem effect_zeroReadingComplete : effect .zeroReadingComplete s = completeZeroReading s := rfl
@[simp] theorem effect_settleComplete : effect .settleComplete s = completeSettle s := rfl
@[simp] theorem effect_windowClose : effect .windowClose s = completeWindow s := rfl
@[simp] theorem effect_digitiserSilenceExpiry :
    effect .digitiserSilenceExpiry s = if s.fe.timer.isSome then digitiserSilence s else s := rfl
@[simp] theorem effect_windowResult : effect .windowResult s = nextResult s := rfl
@[simp] theorem effect_captureArm (valve : Byte) :
    effect (.captureArm valve) s = if h : valve.toNat < Config.valves then armValve ⟨valve.toNat, h⟩ s else s := rfl
@[simp] theorem effect_dischargeFrame : effect .dischargeFrame s = onHanded .discharge takeDischarge s := rfl
@[simp] theorem effect_valveFault (valve : Byte) :
    effect (.valveFault valve) s = if h : valve.toNat < Config.valves then enterFault ⟨valve.toNat, h⟩ s else s := rfl
@[simp] theorem effect_seamFrame : effect .seamFrame s = onHanded .seam takeSeam s := rfl
@[simp] theorem effect_readFrame : effect .readFrame s = onHanded .read takeRead s := rfl
@[simp] theorem effect_trackingSynced : effect .trackingSynced s = becomeSynced s := rfl
@[simp] theorem effect_trackingLost : effect .trackingLost s = becomeLost s := rfl
@[simp] theorem effect_confirmFrame : effect .confirmFrame s = onHanded .confirm takeConfirm s := rfl
@[simp] theorem effect_uploadStart : effect .uploadStart s = startUpload s := rfl
@[simp] theorem effect_captureSegment : effect .captureSegment s = produceSegment s := rfl
@[simp] theorem effect_statusIntervalExpiry :
    effect .statusIntervalExpiry s = if s.ma.statusTimer.isSome then statusExpiry s else s := rfl

end Events

/-! ### The blocks a row may change -/

/-- The blocks that the body of a command may change. -/
def CommandKind.touches : CommandKind → List Block
  | .identify | .getStatus | .readTable | .readValves | .readQueue | .readSchedule | .readCounters | .ringRead => []
  | .loadBegin | .loadAbort | .resetLoad => [.fp, .ma]
  | .loadSegment => commitBlocks
  | .selectProduct => [.fp, .te, .rw, .pu]
  | .setLot => [.rm, .pu]
  | .trimControl => [.fp, .te]
  | .releaseValve => trimBlocks
  | .clearCounters => [.fp, .pos, .fe, .tq, .rm, .jr, .rw, .rc, .ma]
  | .clearAlarms => [.fp, .fe, .jr, .ma]
  | .zeroNow => frontBlocks
  | .ringFreeze | .ringThaw => [.fp, .te, .rc]
  | .captureControl => [.ma]
  | .captureDiscard => [.fp, .rc]
  | .resetFull => allBlocks
  | .resetTracking => [.fp, .fe, .tq, .rm, .te, .rc]
  | .resetStatistics => [.tq, .rm, .jr, .te]
  | .resetCapture => [.fp, .te, .rc]

theorem readTableBody_state (args : List Byte) (s : State) : (readTableBody args s).1 = s := by
  unfold readTableBody refuse answer
  dsimp only
  repeat' split
  all_goals rfl

theorem readValvesBody_state (args : List Byte) (s : State) : (readValvesBody args s).1 = s := by
  unfold readValvesBody refuse answer
  dsimp only
  split <;> rfl

theorem readQueueBody_state (args : List Byte) (s : State) : (readQueueBody args s).1 = s := by
  unfold readQueueBody refuse answer
  split <;> rfl

theorem OnlyChanges.of_eq {l : List Block} {s t : State} (h : t = s) : OnlyChanges l s t :=
  h ▸ .refl l s

theorem clearAllCounters_only (s : State) :
    OnlyChanges [.fp, .pos, .fe, .tq, .rm, .jr, .rw, .rc, .ma] s (clearAllCounters s) := by
  intro b hb
  cases b with
  | te => rfl
  | pu => rfl
  | pending => rfl
  | fp | pos | fe | tq | rm | jr | rw | rc | ma => exact absurd (by decide) hb

theorem CommandKind.body_only (k : CommandKind) (args : List Byte) (s : State) :
    OnlyChanges k.touches s (k.body args s).1 := by
  cases k <;> dsimp only [CommandKind.body, CommandKind.touches]
  case readTable => exact OnlyChanges.of_eq (readTableBody_state args s)
  case readValves => exact OnlyChanges.of_eq (readValvesBody_state args s)
  case readQueue => exact OnlyChanges.of_eq (readQueueBody_state args s)
  case loadBegin => exact beginLoad_only args s
  case loadSegment => exact segmentBody_only args s
  case loadAbort => exact abortLoad_only s
  case selectProduct => exact selectBody_only args s
  case setLot => exact setLotBody_only args s
  case trimControl => exact trimBody_only args s
  case releaseValve => exact releaseBody_only args s
  case clearCounters => exact clearAllCounters_only s
  case clearAlarms => exact Sys2Proof.Machine.clearAlarms_only s
  case zeroNow => exact zeroNowBody_only s
  case ringFreeze => exact freezeRing_only .command s
  case ringThaw => exact thawRing_only s
  case captureControl => exact captureControlBody_only args s
  case captureDiscard => exact discardCaptures_only s
  case resetFull => exact fullReset_only s
  case resetTracking => exact trackingReset_only s
  case resetStatistics => exact statisticsReset_only s
  case resetLoad => exact loadReset_only s
  case resetCapture => exact resetCaptureState_only s
  all_goals exact OnlyChanges.refl _ s

theorem effect_row_only (k : CommandKind) (s : State) : OnlyChanges (agentBlocks ++ k.touches) s (effect k.row s) :=
  effect_row_keeps (P := OnlyChanges (agentBlocks ++ k.touches) s) k (.refl _ s)
    (fun args => (k.body_only args s).mono fun _ hb => List.mem_append_right _ hb)
    fun c r t h => h.andThen (finish_only c r t) fun _ hb => List.mem_append_left _ hb

/-- The commands of Table 11-3 among the rows of the opcode table. -/
def kindOf : Instr → Option CommandKind
  | .identify => some .identify
  | .getStatus => some .getStatus
  | .loadBegin => some .loadBegin
  | .loadSegment => some .loadSegment
  | .loadAbort => some .loadAbort
  | .readTable => some .readTable
  | .selectProduct => some .selectProduct
  | .setLot => some .setLot
  | .trimControl => some .trimControl
  | .releaseValve => some .releaseValve
  | .readValves => some .readValves
  | .readQueue => some .readQueue
  | .readSchedule => some .readSchedule
  | .readCounters => some .readCounters
  | .clearCounters => some .clearCounters
  | .clearAlarms => some .clearAlarms
  | .zeroNow => some .zeroNow
  | .ringRead => some .ringRead
  | .ringFreeze => some .ringFreeze
  | .ringThaw => some .ringThaw
  | .captureControl => some .captureControl
  | .captureDiscard => some .captureDiscard
  | .resetFull => some .resetFull
  | .resetTracking => some .resetTracking
  | .resetStatistics => some .resetStatistics
  | .resetLoad => some .resetLoad
  | .resetCapture => some .resetCapture
  | .powerOn _ | .frameReceived .. | .holdExpiry | .egressStart _ | .transmitComplete _ | .linkDown .. | .linkUp _
  | .intakeDeparture | .loadInactivityExpiry | .encoderFrame | .maxAgeRemoval | .rejectFire | .confirmTimeout
  | .encoderSilenceExpiry | .sampleFrame | .zeroReadingStart | .zeroReadingComplete | .settleComplete | .windowClose
  | .digitiserSilenceExpiry | .windowResult | .captureArm _ | .dischargeFrame | .valveFault _ | .seamFrame | .readFrame
  | .trackingSynced | .trackingLost | .confirmFrame | .uploadStart | .captureSegment | .statusIntervalExpiry => none

theorem eq_row_of_kindOf {c : Instr} {k : CommandKind} (h : kindOf c = some k) : c = k.row := by
  cases c <;> cases h <;> rfl

/-- The blocks that an event's row may change. -/
def eventTouches : Instr → List Block
  | .powerOn _ => allBlocks
  | .frameReceived .. => frameBlocks
  | .intakeDeparture | .loadInactivityExpiry | .statusIntervalExpiry => agentBlocks
  | .encoderFrame => encoderBlocks
  | .maxAgeRemoval => [.tq, .rc]
  | .rejectFire | .confirmFrame => [.fp, .jr]
  | .confirmTimeout => advanceBlocks
  | .encoderSilenceExpiry => [.fp, .pos, .jr]
  | .sampleFrame | .zeroReadingComplete | .digitiserSilenceExpiry => frontBlocks
  | .zeroReadingStart | .settleComplete | .windowClose => [.fe]
  | .windowResult => [.fp, .fe, .tq, .jr, .te, .rw, .rc]
  | .captureArm _ => [.te]
  | .dischargeFrame | .seamFrame | .readFrame => queueBlocks
  | .valveFault _ => [.fp, .te]
  | .trackingSynced | .trackingLost => trackingBlocks
  | .uploadStart | .captureSegment => [.fp, .rc]
  | _ => [.fp]

theorem effect_event_only {c : Instr} (hk : kindOf c = none) (s : State) : OnlyChanges (eventTouches c) s (effect c s) := by
  cases c <;> simp only [eventTouches, effect_powerOn, effect_frameReceived, effect_holdExpiry, effect_egressStart,
    effect_transmitComplete, effect_linkDown, effect_linkUp, effect_intakeDeparture, effect_loadInactivityExpiry,
    effect_encoderFrame, effect_maxAgeRemoval, effect_rejectFire, effect_confirmTimeout, effect_encoderSilenceExpiry,
    effect_sampleFrame, effect_zeroReadingStart, effect_zeroReadingComplete, effect_settleComplete,
    effect_windowClose, effect_digitiserSilenceExpiry, effect_windowResult, effect_captureArm, effect_dischargeFrame,
    effect_valveFault, effect_seamFrame, effect_readFrame, effect_trackingSynced, effect_trackingLost,
    effect_confirmFrame, effect_uploadStart, effect_captureSegment, effect_statusIntervalExpiry]
  case powerOn straps => exact powerOnState_only straps s
  case frameReceived p whole f =>
    split
    · exact receiveFrame_only p whole f s
    · exact .refl _ s
  case holdExpiry =>
    split
    · exact withFp_only s _
    · exact .refl _ s
  case egressStart => exact withFp_only s _
  case transmitComplete => exact withFp_only s _
  case linkDown p a => exact linkLost_only p a s
  case linkUp => exact withFp_only s _
  case intakeDeparture => exact departIntake_only s
  case loadInactivityExpiry =>
    split
    · exact loadExpiry_only s
    · exact .refl _ s
  case statusIntervalExpiry =>
    split
    · exact statusExpiry_only s
    · exact .refl _ s
  case encoderFrame => exact onHanded_only (by decide) (fun c t => takeCount_only _ t) s
  case maxAgeRemoval => exact removeAged_only s
  case rejectFire => exact fireFirst_only _ s
  case confirmFrame => exact onHanded_only (by decide) takeConfirm_only s
  case confirmTimeout => exact timeoutFirst_only _ s
  case encoderSilenceExpiry =>
    split
    · exact encoderSilence_only s
    · exact .refl _ s
  case sampleFrame => exact onHanded_only (by decide) (fun c t => takeSamples_only _ t) s
  case zeroReadingComplete => exact completeZeroReading_only s
  case digitiserSilenceExpiry =>
    split
    · exact digitiserSilence_only s
    · exact .refl _ s
  case zeroReadingStart => exact startZeroReading_only s
  case settleComplete => exact completeSettle_only s
  case windowClose => exact completeWindow_only s
  case windowResult => exact nextResult_only s
  case captureArm v =>
    split
    · exact armValve_only _ s
    · exact .refl _ s
  case valveFault v =>
    split
    · exact enterFault_only _ s
    · exact .refl _ s
  case dischargeFrame => exact onHanded_only (by decide) takeDischarge_only s
  case seamFrame => exact onHanded_only (by decide) takeSeam_only s
  case readFrame => exact onHanded_only (by decide) takeRead_only s
  case trackingSynced => exact becomeSynced_only s
  case trackingLost => exact becomeLost_only s
  case uploadStart => exact startUpload_only s
  case captureSegment => exact produceSegment_only s
  all_goals cases hk

/-- The blocks that a row may change. -/
def touches (c : Instr) : List Block :=
  match kindOf c with
  | some k => agentBlocks ++ k.touches
  | none => eventTouches c

theorem effect_only (c : Instr) (s : State) : OnlyChanges (touches c) s (effect c s) := by
  unfold touches
  split
  · next k hk => exact eq_row_of_kindOf hk ▸ effect_row_only k s
  · next hk => exact effect_event_only hk s

/-! ### What keeps an invariant -/

/-- A block that takes its oldest copy keeps what holds without the copy and is kept by what it does with it. -/
theorem onHanded_of {P : State → Prop} {role : Role} {f : Copy → State → State} {s : State} (hs : P s)
    (htaken : ∀ rest, P (s.taken rest)) (hf : ∀ c t, P t → P (f c t)) : P (onHanded role f s) := by
  unfold onHanded State.takeHanded
  split
  · exact hs
  · next h hh =>
    split at hh
    · exact absurd hh (by simp)
    · obtain rfl := Option.some.inj hh
      exact hf _ _ (htaken _)

/-- `P` speaks of the blocks of `l` alone. -/
def SpeaksOf (l : List Block) (P : State → Prop) : Prop :=
  ∀ s t : State, (∀ b ∈ l, State.agrees b s t) → P s → P t

/-- A change outside the blocks that `P` speaks of keeps it. -/
theorem SpeaksOf.keep {l m : List Block} {P : State → Prop} (hP : SpeaksOf l P) {s t : State} (h : OnlyChanges m s t)
    (hdisjoint : ∀ b ∈ l, b ∉ m) (hs : P s) : P t :=
  hP s t (fun b hb => h b (hdisjoint b hb)) hs

/-- The rows of the five timers' expiries. -/
def isExpiry : Instr → Bool
  | .encoderSilenceExpiry | .digitiserSilenceExpiry | .holdExpiry | .loadInactivityExpiry | .statusIntervalExpiry => true
  | _ => false

/-- A millisecond is, timer by timer, the row of the expiry or the timer counted down. -/
theorem millisecond_keeps {P : State → Prop} {s : State} (hs : P s) (hrow : ∀ c t, isExpiry c = true → P t → P (effect c t))
    (hpos : ∀ t n, t.pos.timer = some n → ¬ n ≤ 1 → P t → P (t.withPos { t.pos with timer := some (n - 1) }))
    (hfe : ∀ t n, t.fe.timer = some n → ¬ n ≤ 1 → P t → P (t.withFe { t.fe with timer := some (n - 1) }))
    (hfp : ∀ t n, t.fp.holdTimer = some n → ¬ n ≤ 1 → P t → P (t.withFp { t.fp with holdTimer := some (n - 1) }))
    (hload : ∀ t n, t.ma.loadTimer = some n → ¬ n ≤ 1 → P t → P (t.withMa { t.ma with loadTimer := some (n - 1) }))
    (hstatus : ∀ t n, t.ma.statusTimer = some n → ¬ n ≤ 1 → P t → P (t.withMa { t.ma with statusTimer := some (n - 1) })) :
    P (millisecond s) := by
  have encoder (t : State) (ht : P t) : P (msEncoder t) := by
    unfold msEncoder
    split
    · exact ht
    · next n hn =>
      split
      · have h := hrow .encoderSilenceExpiry t rfl ht
        rwa [effect_encoderSilenceExpiry, hn, Option.isSome_some, if_pos rfl] at h
      · exact hpos t n hn ‹_› ht
  have digitiser (t : State) (ht : P t) : P (msDigitiser t) := by
    unfold msDigitiser
    split
    · exact ht
    · next n hn =>
      split
      · have h := hrow .digitiserSilenceExpiry t rfl ht
        rwa [effect_digitiserSilenceExpiry, hn, Option.isSome_some, if_pos rfl] at h
      · exact hfe t n hn ‹_› ht
  have hold (t : State) (ht : P t) : P (msHold t) := by
    unfold msHold
    split
    · exact ht
    · next n hn =>
      split
      · have h := hrow .holdExpiry t rfl ht
        rwa [effect_holdExpiry, hn, Option.isSome_some, if_pos rfl] at h
      · exact hfp t n hn ‹_› ht
  have load (t : State) (ht : P t) : P (msLoad t) := by
    unfold msLoad
    split
    · exact ht
    · next n hn =>
      split
      · have h := hrow .loadInactivityExpiry t rfl ht
        rwa [effect_loadInactivityExpiry, hn, Option.isSome_some, if_pos rfl] at h
      · exact hload t n hn ‹_› ht
  have status (t : State) (ht : P t) : P (msStatus t) := by
    unfold msStatus
    split
    · exact ht
    · next n hn =>
      split
      · have h := hrow .statusIntervalExpiry t rfl ht
        rwa [effect_statusIntervalExpiry, hn, Option.isSome_some, if_pos rfl] at h
      · exact hstatus t n hn ‹_› ht
  exact status _ (load _ (hold _ (digitiser _ (encoder s hs))))

/-- The timers of a state counted down stay what an invariant needs of them. -/
structure KeptByTimers (P : State → Prop) : Prop where
  pending : ∀ t l, P t → P { t with pending := l }
  pos : ∀ t n, t.pos.timer = some n → ¬ n ≤ 1 → P t → P (t.withPos { t.pos with timer := some (n - 1) })
  fe : ∀ t n, t.fe.timer = some n → ¬ n ≤ 1 → P t → P (t.withFe { t.fe with timer := some (n - 1) })
  hold : ∀ t n, t.fp.holdTimer = some n → ¬ n ≤ 1 → P t → P (t.withFp { t.fp with holdTimer := some (n - 1) })
  load : ∀ t n, t.ma.loadTimer = some n → ¬ n ≤ 1 → P t → P (t.withMa { t.ma with loadTimer := some (n - 1) })
  status : ∀ t n, t.ma.statusTimer = some n → ¬ n ≤ 1 → P t → P (t.withMa { t.ma with statusTimer := some (n - 1) })

/-- An invariant that every row and every counted timer keeps is kept by every step. -/
theorem KeptByTimers.step {P : State → Prop} (hP : KeptByTimers P) (hrow : ∀ c t, P t → P (effect c t)) {s t : State}
    (hs : P s) (h : step s = .next t) : P t := by
  obtain ⟨_, rfl⟩ | ⟨c, rest, _, rfl⟩ := step_cases h
  · exact millisecond_keeps hs (fun c t _ => hrow c t) hP.pos hP.fe hP.hold hP.load hP.status
  · exact hrow c _ (hP.pending s rest hs)

end Sys2Proof.Machine
end

section
/-!
PROOFS, the layer of the Frame Path: what an offer makes of a port, and the changes by which every block but the Frame Path acts,
each change of the status word reported as it comes (R191) and frames offered to classes that are named. From these follow
what no such change touches, and that the newest status frame carries the status word as it stands.
-/

namespace Sys2Proof.Machine

/-! ### A port that frames are offered to -/

/-- A port after offers to the classes of `l` and status frames: its link and its transmitter stand, the queues of other classes
do, with the link down every queue does, and no queue grows beyond its capacity (R14). -/
structure PortState.Grows (l : List EgressClass) (ps qs : PortState) : Prop where
  linkUp : qs.linkUp = ps.linkUp
  transmitting : qs.transmitting = ps.transmitting
  queue : ∀ cls, cls ∉ l → cls ≠ .status → qs.queue cls = ps.queue cls
  down : ps.linkUp = false → ∀ cls, qs.queue cls = ps.queue cls
  room : ∀ cls, (ps.queue cls).length ≤ classCapacity cls → (qs.queue cls).length ≤ classCapacity cls

theorem PortState.Grows.refl (l : List EgressClass) (ps : PortState) : ps.Grows l ps :=
  ⟨rfl, rfl, fun _ _ _ => rfl, fun _ _ => rfl, fun _ h => h⟩

theorem PortState.Grows.trans {l : List EgressClass} {a b c : PortState} (h : a.Grows l b) (k : b.Grows l c) :
    a.Grows l c where
  linkUp := k.linkUp.trans h.linkUp
  transmitting := k.transmitting.trans h.transmitting
  queue cls hl hs := (k.queue cls hl hs).trans (h.queue cls hl hs)
  down hd cls := (k.down (h.linkUp.trans hd) cls).trans (h.down hd cls)
  room cls hc := k.room cls (h.room cls hc)

theorem PortState.Grows.countDropped (l : List EgressClass) (ps : PortState) (n : Nat) : ps.Grows l (ps.countDropped n) :=
  ⟨rfl, rfl, fun _ _ _ => PortState.queue_countDropped .., fun _ _ => PortState.queue_countDropped ..,
    fun _ h => by rwa [PortState.queue_countDropped]⟩

/-- A queue of an up port replaced by one that is within its capacity when the old one is. -/
theorem PortState.Grows.setQueue {l : List EgressClass} {ps : PortState} {cls : EgressClass} {q : List Frame}
    (hcls : cls ∈ l ∨ cls = .status) (hup : ps.linkUp = true)
    (hq : (ps.queue cls).length ≤ classCapacity cls → q.length ≤ classCapacity cls) :
    ps.Grows l (ps.setQueue cls q) where
  linkUp := PortState.setQueue_linkUp ..
  transmitting := PortState.setQueue_transmitting ..
  queue other hl hs := ps.queue_setQueue_ne q fun h => hcls.elim (fun hc => hl (h ▸ hc)) fun hc => hs (h.trans hc)
  down hd := absurd hup (by simp [hd])
  room other ho := by
    by_cases h : other = cls
    · subst h
      rw [PortState.queue_setQueue]
      exact hq ho
    · rwa [ps.queue_setQueue_ne q h]

/-- A Frame Path after offers to the classes of `l` and status frames. -/
structure FramePath.Grows (l : List EgressClass) (fp gp : FramePath) : Prop where
  station : gp.station = fp.station
  parityFault : gp.parityFault = fp.parityFault
  channels : gp.channels = fp.channels
  malformed : gp.malformed = fp.malformed
  seqFlow : gp.seqFlow = fp.seqFlow
  holdStanding : gp.holdStanding = fp.holdStanding
  holdTimer : gp.holdTimer = fp.holdTimer
  held : gp.held = fp.held
  handed : gp.handed = fp.handed
  port : ∀ p, (fp.port p).Grows l (gp.port p)

theorem FramePath.Grows.refl (l : List EgressClass) (fp : FramePath) : fp.Grows l fp :=
  ⟨rfl, rfl, rfl, rfl, rfl, rfl, rfl, rfl, rfl, fun _ => .refl _ _⟩

theorem FramePath.Grows.trans {l : List EgressClass} {a b c : FramePath} (h : a.Grows l b) (k : b.Grows l c) :
    a.Grows l c :=
  ⟨k.station.trans h.station, k.parityFault.trans h.parityFault, k.channels.trans h.channels, k.malformed.trans h.malformed,
    k.seqFlow.trans h.seqFlow, k.holdStanding.trans h.holdStanding, k.holdTimer.trans h.holdTimer, k.held.trans h.held,
    k.handed.trans h.handed, fun p => (h.port p).trans (k.port p)⟩

theorem FramePath.Grows.setPort {l : List EgressClass} {fp : FramePath} {p : Port} {ps : PortState}
    (h : (fp.port p).Grows l ps) : fp.Grows l (fp.setPort p ps) := by
  constructor
  case port =>
    intro q
    by_cases hq : q = p
    · rwa [hq, FramePath.port_setPort]
    · rw [FramePath.port_setPort_ne fp ps hq]
      exact .refl _ _
  all_goals simp

theorem FramePath.Grows.takeNumber (l : List EgressClass) (fp : FramePath) : fp.Grows l (fp.takeNumber false) :=
  ⟨rfl, rfl, rfl, rfl, rfl, rfl, rfl, rfl, rfl, fun p => by cases p <;> exact .refl _ _⟩

/-- A frame that joins a class of `l`, or the STATUS queue, with room for it. -/
theorem FramePath.Grows.join {l : List EgressClass} {fp : FramePath} {cls : EgressClass} {p : Port} (dest : Byte)
    (payload : List Byte) (hcls : cls ∈ l ∨ cls = .status) (hup : (fp.port p).linkUp = true)
    (hroom : ((fp.port p).queue cls).length < classCapacity cls) : fp.Grows l (fp.join cls p false dest payload) := by
  refine (FramePath.Grows.takeNumber l fp).trans (.setPort ?_)
  rw [FramePath.takeNumber_port]
  exact .setQueue hcls hup fun _ => by rw [List.length_append, List.length_singleton]; exact hroom

theorem PortState.accepts_iff (ps : PortState) (cls : EgressClass) :
    ps.accepts cls = true ↔ ps.linkUp = true ∧ (ps.queue cls).length < classCapacity cls := by
  simp [PortState.accepts]

theorem FramePath.Grows.offer {l : List EgressClass} (fp : FramePath) {cls : EgressClass} (p : Port) (dest : Byte)
    (payload : List Byte) (hcls : cls ∈ l) : fp.Grows l (fp.offer cls p false dest payload).1 := by
  unfold FramePath.offer
  split
  · next h =>
    obtain ⟨hup, hroom⟩ := (PortState.accepts_iff ..).mp h
    exact .join dest payload (.inl hcls) hup hroom
  · split
    · exact .refl _ _
    · exact .setPort (.countDropped ..)

/-- A full STATUS queue loses its oldest frame, so that the new one takes its room (R14). -/
theorem PortState.Grows.replaceOldest (l : List EgressClass) {ps : PortState} (frame : Frame) (hup : ps.linkUp = true)
    (hfull : ¬ ps.status.length < classCapacity .status) :
    ps.Grows l (({ ps with status := ps.status.drop 1 }.countDropped 1).setQueue .status (ps.status.drop 1 ++ [frame])) := by
  have hset : ({ ps with status := ps.status.drop 1 }.countDropped 1).setQueue .status (ps.status.drop 1 ++ [frame]) =
      (ps.countDropped 1).setQueue .status (ps.status.drop 1 ++ [frame]) := rfl
  rw [hset]
  refine (PortState.Grows.countDropped l ps 1).trans (.setQueue (.inr rfl) hup fun hcap => ?_)
  have hlength : ps.status.length ≤ classCapacity .status := hcap
  simp only [classCapacity, List.length_append, List.length_drop, List.length_singleton] at hlength hfull ⊢
  omega

theorem FramePath.Grows.offerStatus (l : List EgressClass) (fp : FramePath) (p : Port) (dest : Byte) (payload : List Byte) :
    fp.Grows l (fp.offerStatus p dest payload) := by
  unfold FramePath.offerStatus
  dsimp only
  split
  · next hup =>
    split
    · next hroom => exact .join dest payload (.inr rfl) hup hroom
    · next hfull =>
      constructor
      case port =>
        intro q
        by_cases hq : q = p
        · subst hq
          simp only [FramePath.join, FramePath.port_setPort]
          exact .replaceOldest l _ hup hfull
        · rw [FramePath.join, FramePath.port_setPort_ne _ _ hq, FramePath.takeNumber_port, FramePath.port_setPort_ne _ _ hq]
          exact .refl _ _
      all_goals simp [FramePath.join, FramePath.takeNumber]
  · exact .setPort (.countDropped ..)

/-! ### Changes that report what they change -/

/-- `t` follows `s` by changes outside the Frame Path that leave the status word or report it, by status frames, and by offers to
the classes of `l`, the Line Setup record standing throughout. -/
inductive Tells (l : List EgressClass) : State → State → Prop
  | refl (s : State) : Tells l s s
  | quiet {s t u : State} (h : Tells l s t) (hfp : u.fp = t.fp) (hsetup : u.ma.setup = t.ma.setup)
      (hword : u.statusWord = t.statusWord) : Tells l s u
  | report {s t u : State} (h : Tells l s t) (hfp : u.fp = t.fp) (hsetup : u.ma.setup = t.ma.setup) :
      Tells l s (report t u)
  | status {s t : State} (h : Tells l s t) : Tells l s (buildStatus t)
  | offer {s t : State} (h : Tells l s t) (cls : EgressClass) (p : Port) (dest : Byte) (payload : List Byte)
      (hcls : cls ∈ l) (hstatus : cls ≠ .status) : Tells l s (t.withFp (t.fp.offer cls p false dest payload).1)

theorem Tells.trans {l : List EgressClass} {s t u : State} (h : Tells l s t) (k : Tells l t u) : Tells l s u := by
  induction k with
  | refl => exact h
  | quiet _ hfp hsetup hword ih => exact ih.quiet hfp hsetup hword
  | report _ hfp hsetup ih => exact ih.report hfp hsetup
  | status _ ih => exact ih.status
  | offer _ cls p dest payload hcls hstatus ih => exact ih.offer cls p dest payload hcls hstatus

theorem Tells.mono {l m : List EgressClass} {s t : State} (h : Tells l s t) (hlm : ∀ cls ∈ l, cls ∈ m) : Tells m s t := by
  induction h with
  | refl => exact .refl _
  | quiet _ hfp hsetup hword ih => exact ih.quiet hfp hsetup hword
  | report _ hfp hsetup ih => exact ih.report hfp hsetup
  | status _ ih => exact ih.status
  | offer _ cls p dest payload hcls hstatus ih => exact ih.offer cls p dest payload (hlm cls hcls) hstatus

theorem report_fp (old new : State) :
    (report old new).fp = new.fp ∨ (report old new).fp = (buildStatus new).fp := by
  unfold report
  split
  · exact .inl rfl
  · exact .inr rfl

theorem buildStatus_grows (l : List EgressClass) (s : State) : s.fp.Grows l (buildStatus s).fp := by
  unfold buildStatus
  split
  · exact .refl _ _
  · exact .offerStatus ..

theorem Tells.grows {l : List EgressClass} {s t : State} (h : Tells l s t) : s.fp.Grows l t.fp := by
  induction h with
  | refl => exact .refl _ _
  | quiet _ hfp _ _ ih => rwa [hfp]
  | @report t u _ hfp _ ih =>
    rw [← hfp] at ih
    obtain h | h := report_fp t u
    · rwa [h]
    · rw [h]
      exact ih.trans (buildStatus_grows l u)
  | status _ ih => exact ih.trans (buildStatus_grows l _)
  | offer _ cls p dest payload hcls _ ih => exact ih.trans (.offer _ p dest payload hcls)

/-- The Line Setup record stands. -/
theorem Tells.setup {l : List EgressClass} {s t : State} (h : Tells l s t) : t.ma.setup = s.ma.setup := by
  induction h with
  | refl => rfl
  | quiet _ _ hsetup _ ih => rw [hsetup, ih]
  | @report t u _ _ hsetup ih => rw [(report_only t u) .ma (by decide), hsetup, ih]
  | @status t _ ih => rw [(buildStatus_only t) .ma (by decide), ih]
  | offer _ _ _ _ _ _ _ ih => exact ih

end Sys2Proof.Machine
end

section
/-!
PROOFS of the layouts of 12_frame_and_record_layouts.md: numbers as bytes and back (R194), fields of bytes that are laid out one
after the other, and the frame that the device inserts (R11).
-/

namespace Sys2Proof.Machine

/-! ### Numbers and bytes (R194) -/

@[simp] theorem beBytes_length (n x : Nat) : (beBytes n x).length = n := by
  induction n with
  | zero => rfl
  | succ n ih => rw [beBytes, List.length_cons, ih]

@[simp] theorem beSigned_length (n : Nat) (x : Int) : (beSigned n x).length = n :=
  beBytes_length ..

@[simp] theorem fcsOf_length (bytes : List Byte) : (fcsOf bytes).length = 4 := by
  rw [fcsOf, List.length_reverse, beBytes_length]

theorem readBytes_cons (b : Byte) (bytes : List Byte) :
    readBytes (b :: bytes) = b.toNat * 256 ^ bytes.length + readBytes bytes := by
  have hfold (acc : Nat) : bytes.foldl (fun acc b => acc * 256 + b.toNat) acc = acc * 256 ^ bytes.length + readBytes bytes := by
    unfold readBytes
    induction bytes generalizing acc with
    | nil => simp
    | cons c rest ih =>
      rw [List.foldl_cons, ih, List.foldl_cons, ih (0 * 256 + c.toNat), List.length_cons, Nat.pow_succ]
      ring
  rw [readBytes, List.foldl_cons, hfold, Nat.zero_mul, Nat.zero_add]

theorem readBytes_beBytes (n x : Nat) : readBytes (beBytes n x) = x % 256 ^ n := by
  induction n with
  | zero => rw [pow_zero, Nat.mod_one]; rfl
  | succ n ih =>
    rw [beBytes, readBytes_cons, beBytes_length, ih, BitVec.toNat_ofNat, Nat.pow_succ]
    change x / 256 ^ n % 256 * 256 ^ n + x % 256 ^ n = x % (256 ^ n * 256)
    rw [Nat.mod_mul]
    ring

theorem readBytes_beBytes_of_lt {n x : Nat} (h : x < 256 ^ n) : readBytes (beBytes n x) = x := by
  rw [readBytes_beBytes, Nat.mod_eq_of_lt h]

/-! ### Fields one after the other -/

theorem bytesAt_append_left {a b : List Byte} {i n : Nat} (h : i + n ≤ a.length) : bytesAt (a ++ b) i n = bytesAt a i n := by
  rw [bytesAt, bytesAt, List.drop_append_of_le_length (by omega), List.take_append_of_le_length]
  rw [List.length_drop]
  omega

theorem bytesAt_append_right {a b : List Byte} {i n : Nat} (h : a.length ≤ i) :
    bytesAt (a ++ b) i n = bytesAt b (i - a.length) n := by
  rw [bytesAt, bytesAt, List.drop_append, List.drop_of_length_le h, List.nil_append]

theorem bytesAt_all {a : List Byte} {n : Nat} (h : a.length = n) : bytesAt a 0 n = a := by
  rw [bytesAt, List.drop_zero, ← h, List.take_length]

theorem byteAt_append_left {a b : List Byte} {i : Nat} (h : i < a.length) : byteAt (a ++ b) i = byteAt a i := by
  rw [byteAt, byteAt, List.getD_append _ _ _ _ h]

theorem byteAt_append_right {a b : List Byte} {i : Nat} (h : a.length ≤ i) :
    byteAt (a ++ b) i = byteAt b (i - a.length) := by
  rw [byteAt, byteAt, List.getD_append_right _ _ _ _ h]

/-! ### The frame that the device inserts (R11, Table 12-2) -/

section Inserted

variable (station dest channel seq : Byte) (payload : List Byte)

/-- The 22 bytes before the payload of an inserted frame. -/
def insertedHeader : List Byte :=
  [0xFF, 0xFF, 0xFF, 0xFF, 0xFF, 0xFF, 0x02, 0, 0, 0, 0, station, 0xB6, 0xE2, 1, dest, station, channel, seq, 0] ++
    beBytes 2 payload.length

/-- An inserted frame but for its FCS. -/
def insertedBody : List Byte :=
  insertedHeader station dest channel seq payload ++ payload ++ List.replicate (60 - (22 + payload.length)) 0

theorem insertedHeader_length : (insertedHeader station dest channel seq payload).length = 22 := by
  simp [insertedHeader]

theorem insertedBody_length : (insertedBody station dest channel seq payload).length = max 60 (22 + payload.length) := by
  simp only [insertedBody, List.length_append, insertedHeader_length, List.length_replicate]
  omega

theorem insertedFrame_eq : insertedFrame station dest channel seq payload =
    insertedBody station dest channel seq payload ++ fcsOf (insertedBody station dest channel seq payload) := by
  have hhead : List.replicate 6 (0xFF : Byte) ++ [0x02, 0, 0, 0, 0, station] ++ beBytes 2 Config.lineType ++
      [1, dest, station, channel, seq, 0] ++ beBytes 2 payload.length ++ payload =
        insertedHeader station dest channel seq payload ++ payload := by
    simp only [insertedHeader, List.append_assoc]
    rfl
  have hlength : (insertedHeader station dest channel seq payload ++ payload).length = 22 + payload.length := by
    rw [List.length_append, insertedHeader_length]
  unfold insertedFrame
  dsimp only
  rw [hhead, hlength]
  rfl

theorem insertedFrame_length :
    (insertedFrame station dest channel seq payload).length = max 64 (26 + payload.length) := by
  rw [insertedFrame_eq, List.length_append, insertedBody_length, fcsOf_length]
  omega

/-- Within the header an inserted frame is its header. -/
theorem bytesAt_insertedFrame_header {i n : Nat} (h : i + n ≤ 22) : bytesAt (insertedFrame station dest channel seq payload) i n =
    bytesAt (insertedHeader station dest channel seq payload) i n := by
  have hbody := insertedBody_length station dest channel seq payload
  have hhead := insertedHeader_length station dest channel seq payload
  rw [insertedFrame_eq, bytesAt_append_left (by omega), insertedBody, List.append_assoc, bytesAt_append_left (by omega)]

theorem byteAt_insertedFrame_header {i : Nat} (h : i < 22) : byteAt (insertedFrame station dest channel seq payload) i =
    byteAt (insertedHeader station dest channel seq payload) i := by
  have hbody := insertedBody_length station dest channel seq payload
  have hhead := insertedHeader_length station dest channel seq payload
  rw [insertedFrame_eq, byteAt_append_left (by omega), insertedBody, List.append_assoc, byteAt_append_left (by omega)]

/-- After the header stands the payload. -/
theorem bytesAt_insertedFrame_payload {i n : Nat} (h : i + n ≤ payload.length) :
    bytesAt (insertedFrame station dest channel seq payload) (22 + i) n = bytesAt payload i n := by
  have hbody := insertedBody_length station dest channel seq payload
  have hhead := insertedHeader_length station dest channel seq payload
  rw [insertedFrame_eq, bytesAt_append_left (by omega), insertedBody, List.append_assoc, bytesAt_append_right (by omega),
    bytesAt_append_left (by omega), hhead, Nat.add_sub_cancel_left]

/-- Between payload and FCS stands 0. -/
theorem byteAt_insertedFrame_pad {n : Nat} (hlow : 22 + payload.length ≤ n)
    (hhigh : n + 4 < (insertedFrame station dest channel seq payload).length) :
    byteAt (insertedFrame station dest channel seq payload) n = 0 := by
  have hbody := insertedBody_length station dest channel seq payload
  have hhead := insertedHeader_length station dest channel seq payload
  rw [insertedFrame_length] at hhigh
  rw [insertedFrame_eq, byteAt_append_left (by omega), insertedBody, byteAt_append_right (by rw [List.length_append]; omega),
    byteAt, List.getD_replicate]
  rw [List.length_append]
  omega

theorem fcsOk_insertedFrame : fcsOk (insertedFrame station dest channel seq payload) = true := by
  have hlength : (insertedFrame station dest channel seq payload).length - 4 =
      (insertedBody station dest channel seq payload).length := by
    rw [insertedFrame_eq, List.length_append, fcsOf_length, Nat.add_sub_cancel]
  have hfour : 4 ≤ (insertedFrame station dest channel seq payload).length := by
    rw [insertedFrame_length]
    omega
  rw [fcsOk, hlength, insertedFrame_eq, List.drop_left, List.take_left]
  simp

theorem lineFrame_insertedFrame (p : Port) (h : payload.length ≤ 1490) :
    lineFrame p (insertedFrame station dest channel seq payload) = some {
      port := p, dest := dest, source := station, channel := channel, sequence := seq, flags := 0, payload := payload } := by
  have hlength := insertedFrame_length station dest channel seq payload
  have hsize : fieldAt (insertedFrame station dest channel seq payload) 20 2 = payload.length := by
    rw [fieldAt, bytesAt_insertedFrame_header _ _ _ _ _ (by omega)]
    exact readBytes_beBytes_of_lt (n := 2) (by omega)
  have htype : fieldAt (insertedFrame station dest channel seq payload) 12 2 = Config.lineType := by
    rw [fieldAt, bytesAt_insertedFrame_header _ _ _ _ _ (by omega)]
    rfl
  have hpayload : bytesAt (insertedFrame station dest channel seq payload) 22 payload.length = payload := by
    rw [bytesAt_insertedFrame_payload (i := 0) (h := by omega), bytesAt_all rfl]
  have hbyte (i : Nat) (hi : i < 22) := byteAt_insertedFrame_header station dest channel seq payload hi
  unfold lineFrame
  dsimp only
  rw [hsize, htype, if_pos ⟨rfl, by omega, by rw [hbyte 14 (by omega)]; rfl, h, by omega⟩, hpayload, hbyte 15 (by omega),
    hbyte 16 (by omega), hbyte 17 (by omega), hbyte 18 (by omega), hbyte 19 (by omega)]
  rfl

end Inserted

/-- Settles O13: an inserted frame is a header of 22 bytes, the payload, zeros up to 60 bytes and the FCS over them
(`insertedFrame_eq`), and every field is read off that. -/
theorem insertedFrameReadsBack : Obligations.InsertedFrameReadsBack := by
  intro p station dest channel seq payload hpayload
  have hlength := insertedFrame_length station dest channel seq payload
  refine ⟨lineFrame_insertedFrame station dest channel seq payload p hpayload, ?_,
    fun n hlow hhigh => byteAt_insertedFrame_pad station dest channel seq payload hlow hhigh, hlength,
    fcsOk_insertedFrame station dest channel seq payload, by omega, by omega⟩
  exact bytesAt_insertedFrame_header station dest channel seq payload (i := 0) (n := 14) (by omega)

/-! ### The newest status frame (R191) -/

/-- The newest frame of the controller's STATUS queue is addressed to the controller and carries the status word. -/
def State.newestStatus (t : State) : Prop :=
  ∃ earlier frame, (t.fp.port t.ma.setup.controllerPort).status = earlier ++ [frame] ∧
    byteAt frame 15 = t.ma.setup.controller ∧ bytesAt frame 22 2 = [0x80, 0] ∧
    bytesAt frame 24 2 = beBytes 2 t.statusWord.toNat

/-- With a controller whose link is up, the newest status frame carries the status word as it stands. -/
def State.told (t : State) : Prop :=
  t.ma.setup.controller ≠ 255 → (t.fp.port t.ma.setup.controllerPort).linkUp = true → t.newestStatus

theorem FramePath.offerStatus_up {fp : FramePath} {p : Port} (dest : Byte) (payload : List Byte)
    (h : (fp.port p).linkUp = true) : ∃ earlier, ((fp.offerStatus p dest payload).port p).status =
      earlier ++ [insertedFrame fp.station dest 240 fp.seqMgmt payload] := by
  unfold FramePath.offerStatus
  dsimp only
  rw [if_pos h]
  split
  · exact ⟨_, by rw [FramePath.join, FramePath.port_setPort]; rfl⟩
  · refine ⟨(fp.port p).status.drop 1, ?_⟩
    simp only [FramePath.join, FramePath.nextFrame, FramePath.port_setPort, FramePath.setPort_station,
      FramePath.setPort_seqMgmt]
    rfl

theorem buildStatus_told (t : State) : (buildStatus t).told := by
  intro hcontroller hup
  have hma : (buildStatus t).ma = t.ma := (buildStatus_only t) .ma (by decide)
  have hword : (buildStatus t).statusWord = t.statusWord := by
    unfold buildStatus
    split <;> rfl
  rw [hma] at hcontroller hup
  have hlink : (t.fp.port t.ma.setup.controllerPort).linkUp = true := by
    rw [← ((buildStatus_grows [] t).port _).linkUp]
    exact hup
  obtain ⟨earlier, hstatus⟩ := t.fp.offerStatus_up t.ma.setup.controller t.statusPayload hlink
  have hlength : 4 ≤ t.statusPayload.length := by
    simp [State.statusPayload, State.statusContents]
  refine ⟨earlier, insertedFrame t.fp.station t.ma.setup.controller 240 t.fp.seqMgmt t.statusPayload, ?_, ?_, ?_, ?_⟩
  · rw [hma, buildStatus, if_neg hcontroller]
    exact hstatus
  · rw [byteAt_insertedFrame_header _ _ _ _ _ (by omega), hma]
    rfl
  · exact (bytesAt_insertedFrame_payload _ _ _ _ _ (i := 0) (by omega)).trans rfl
  · rw [hword]
    refine (bytesAt_insertedFrame_payload _ _ _ _ _ (i := 2) (by omega)).trans ?_
    rfl

/-- The status word, the Line Setup record, the links and the STATUS queues of two states are the same. -/
structure State.SameStatus (s t : State) : Prop where
  setup : t.ma.setup = s.ma.setup
  word : t.statusWord = s.statusWord
  link : ∀ p, (t.fp.port p).linkUp = (s.fp.port p).linkUp
  status : ∀ p, (t.fp.port p).status = (s.fp.port p).status

theorem State.SameStatus.told {s t : State} (h : s.SameStatus t) (hs : s.told) : t.told := by
  intro hcontroller hup
  unfold State.newestStatus
  rw [h.setup] at hcontroller hup ⊢
  rw [h.link] at hup
  rw [h.status, h.word]
  exact hs hcontroller hup

/-- A change of the status word is told to the controller. -/
def State.Shows (s t : State) : Prop :=
  t.told ∨ s.SameStatus t

theorem State.Shows.refl (s : State) : s.Shows s :=
  .inr ⟨rfl, rfl, fun _ => rfl, fun _ => rfl⟩

theorem State.Shows.trans {s t u : State} (h : s.Shows t) (k : t.Shows u) : s.Shows u := by
  obtain k | k := k
  · exact .inl k
  · obtain h | h := h
    · exact .inl (k.told h)
    · exact .inr ⟨k.setup.trans h.setup, k.word.trans h.word, fun p => (k.link p).trans (h.link p),
        fun p => (k.status p).trans (h.status p)⟩

theorem FramePath.offer_status (fp : FramePath) {cls : EgressClass} (p q : Port) (dest : Byte) (payload : List Byte)
    (hcls : cls ≠ .status) : ((fp.offer cls p false dest payload).1.port q).status = (fp.port q).status := by
  unfold FramePath.offer
  have hqueue (ps : PortState) (l : List Frame) : (ps.setQueue cls l).status = ps.status :=
    ps.queue_setQueue_ne (other := .status) l hcls.symm
  have hset (gp : FramePath) (ps : PortState) (h : ps.status = (gp.port p).status) :
      ((gp.setPort p ps).port q).status = (gp.port q).status := by
    by_cases hq : q = p
    · rw [hq, FramePath.port_setPort, h]
    · rw [FramePath.port_setPort_ne gp ps hq]
  split
  · rw [FramePath.join, hset _ _ (by rw [hqueue, FramePath.takeNumber_port]), FramePath.takeNumber_port]
  · split
    · rfl
    · exact hset _ _ rfl

/-- What changes the status word and reports it shows it. -/
theorem Tells.shows {l : List EgressClass} {s t : State} (h : Tells l s t) : s.Shows t := by
  induction h with
  | refl => exact .refl _
  | quiet _ hfp hsetup hword ih =>
    exact ih.trans (.inr ⟨hsetup, hword, fun p => by rw [hfp], fun p => by rw [hfp]⟩)
  | @report t u _ hfp hsetup ih =>
    unfold Machine.report
    split
    · next hword => exact ih.trans (.inr ⟨hsetup, hword, fun p => by rw [hfp], fun p => by rw [hfp]⟩)
    · exact .inl (buildStatus_told u)
  | status _ _ => exact .inl (buildStatus_told _)
  | @offer t _ cls p dest payload _ hstatus ih =>
    refine ih.trans (.inr ⟨rfl, rfl, fun q => ?_, fun q => t.fp.offer_status p q dest payload hstatus⟩)
    exact (((FramePath.Grows.offer (l := [cls]) t.fp p dest payload (List.mem_singleton_self _)).port q).linkUp)

end Sys2Proof.Machine
end

section
/-!
PROOFS, the layer of the reports: every operation of the blocks acts by changes that report what they change (`Tells`), with the
classes that it offers frames to.
-/

namespace Sys2Proof.Machine

section Tells

variable {l : List EgressClass} {s t : State}

/-! ### One block replaced -/

theorem Tells.pos {x : Position} (h : Tells l s t) (hfault : x.fault = t.pos.fault) :
    Tells l s { t with pos := x } :=
  h.quiet rfl rfl (by simp only [State.statusWord, State.ringFrozen, State.loadActive, hfault])

theorem Tells.fe {x : FrontEnd} (h : Tells l s t) (hzeroFault : x.zeroFault = t.fe.zeroFault) (hweigherSilent : x.weigherSilent = t.fe.weigherSilent) (hzeroDone : x.zeroDone = t.fe.zeroDone) :
    Tells l s { t with fe := x } :=
  h.quiet rfl rfl (by simp only [State.statusWord, State.ringFrozen, State.loadActive, hzeroFault, hweigherSilent, hzeroDone])

theorem Tells.tq {x : Tracking} (h : Tells l s t) :
    Tells l s { t with tq := x } :=
  h.quiet rfl rfl rfl

theorem Tells.rm {x : Reader} (h : Tells l s t) (htracking : x.tracking = t.rm.tracking) :
    Tells l s { t with rm := x } :=
  h.quiet rfl rfl (by simp only [State.statusWord, State.ringFrozen, State.loadActive, htracking])

theorem Tells.jr {x : Judge} (h : Tells l s t) (hlineStop : x.lineStop = t.jr.lineStop) (hunexpected : x.unexpected = t.jr.unexpected) :
    Tells l s { t with jr := x } :=
  h.quiet rfl rfl (by simp only [State.statusWord, State.ringFrozen, State.loadActive, hlineStop, hunexpected])

theorem Tells.te {x : Trim} (h : Tells l s t) (htrimHold : x.trimHold = t.te.trimHold) (hattention : x.attention = t.te.attention) :
    Tells l s { t with te := x } :=
  h.quiet rfl rfl (by simp only [State.statusWord, State.ringFrozen, State.loadActive, htrimHold, hattention])

theorem Tells.rw {x : Rewriter} (h : Tells l s t) :
    Tells l s { t with rw := x } :=
  h.quiet rfl rfl rfl

theorem Tells.pu {x : Products} (h : Tells l s t) :
    Tells l s { t with pu := x } :=
  h.quiet rfl rfl rfl

theorem Tells.rc {x : RingCapture} (h : Tells l s t) (hcaptureReady : x.captureReady = t.rc.captureReady) (hfreeze : x.freeze = t.rc.freeze) :
    Tells l s { t with rc := x } :=
  h.quiet rfl rfl (by simp only [State.statusWord, State.ringFrozen, State.loadActive, hcaptureReady, hfreeze])

theorem Tells.ma {x : Mgmt} (h : Tells l s t) (hsetup : x.setup = t.ma.setup) (hload : x.load.isSome = t.ma.load.isSome)
    (hoverrun : x.overrun = t.ma.overrun) : Tells l s { t with ma := x } :=
  h.quiet rfl hsetup (by simp only [State.statusWord, State.ringFrozen, State.loadActive, hload, hoverrun])

theorem Tells.report_pos {x : Position} (h : Tells l s t) : Tells l s (Machine.report t { t with pos := x }) :=
  h.report rfl rfl

theorem Tells.report_fe {x : FrontEnd} (h : Tells l s t) : Tells l s (Machine.report t { t with fe := x }) :=
  h.report rfl rfl

theorem Tells.report_rm {x : Reader} (h : Tells l s t) : Tells l s (Machine.report t { t with rm := x }) :=
  h.report rfl rfl

theorem Tells.report_jr {x : Judge} (h : Tells l s t) : Tells l s (Machine.report t { t with jr := x }) :=
  h.report rfl rfl

theorem Tells.report_te {x : Trim} (h : Tells l s t) : Tells l s (Machine.report t { t with te := x }) :=
  h.report rfl rfl

theorem Tells.report_rc {x : RingCapture} (h : Tells l s t) : Tells l s (Machine.report t { t with rc := x }) :=
  h.report rfl rfl

theorem Tells.report_ma {x : Mgmt} (h : Tells l s t) (hsetup : x.setup = t.ma.setup) :
    Tells l s (Machine.report t { t with ma := x }) :=
  h.report rfl hsetup

/-! ### Trim Hold, the ring and the Tracking State -/

theorem mapValves_tells (f : Fin Config.valves → ValveRecord → ValveRecord) (h : Tells l s t) : Tells l s (t.mapValves f) :=
  h.te rfl rfl

theorem evalTrimHold_tells (h : Tells l s t) : Tells l s (evalTrimHold t) := by
  have hreport : Tells l s (report t { t with te := { t.te with trimHold := t.holdsTrim } }) := h.report_te
  unfold evalTrimHold
  dsimp only
  split
  · exact h
  · split
    · exact mapValves_tells _ hreport
    · exact hreport

theorem evalAttention_tells (h : Tells l s t) : Tells l s (evalAttention t) :=
  h.report_te

theorem clearRequests_tells (p : Fin Config.valves → Bool) (h : Tells l s t) : Tells l s (clearRequests p t) :=
  h.rw

theorem freezeRing_tells (cause : FreezeCause) (h : Tells l s t) : Tells l s (freezeRing cause t) := by
  unfold freezeRing
  split
  · exact evalTrimHold_tells h.report_rc
  · next hfreeze =>
    split
    · refine evalTrimHold_tells (h.quiet rfl rfl ?_)
      simp only [State.statusWord, State.ringFrozen, State.loadActive, hfreeze]
      rfl
    · exact h
  · exact h

theorem writeRing_tells (e : RingEntry) (h : Tells l s t) : Tells l s (writeRing e t) := by
  unfold writeRing
  split
  · exact h.rc rfl rfl
  · exact h

theorem noteOutcome_tells (b : Bool) (h : Tells l s t) : Tells l s (noteOutcome b t) := by
  have hburst : Tells l s { t with rc := { t.rc with burst := pushBounded Config.ringCapacity t.rc.burst b } } :=
    h.rc rfl rfl
  unfold noteOutcome
  dsimp only
  split
  · exact freezeRing_tells _ hburst
  · exact hburst

theorem handRemoved_tells (fate : Fate) (x : Word32) (records : List CanRecord) (h : Tells l s t) :
    Tells l s (handRemoved fate x records t) := by
  unfold handRemoved
  induction records generalizing t with
  | nil => exact h
  | cons r rest ih => exact ih (writeRing_tells _ h)

theorem handMissing_tells (x : Word32) (records : List CanRecord) (h : Tells l s t) :
    Tells l s (handMissing x records t) :=
  handRemoved_tells _ _ _ h.tq

theorem setTracking_tells (st : TrackingState) (h : Tells l s t) : Tells l s (setTracking st t) := by
  have hset : Tells l s (evalTrimHold (report t { t with rm := { t.rm with tracking := st } })) :=
    evalTrimHold_tells (h.report_rm)
  unfold setTracking
  dsimp only
  split
  · exact h
  · split
    · exact freezeRing_tells _ hset
    · exact hset

theorem breakTracking_tells (h : Tells l s t) : Tells l s (breakTracking t) := by
  have hrun : Tells l s { t with rm := { t.rm with cleanRun := 0 } } := h.rm rfl
  unfold breakTracking
  dsimp only
  split
  · exact setTracking_tells _ hrun
  · exact hrun

theorem loseQueue_tells (h : Tells l s t) : Tells l s (loseQueue t) :=
  setTracking_tells _ (h.rm rfl)

theorem withRisen_tells (r : Option Run) (h : Tells l s t) : Tells l s (t.withRisen r) :=
  h.rm rfl

theorem becomeSynced_tells (h : Tells l s t) : Tells l s (becomeSynced t) := by
  unfold becomeSynced
  dsimp only
  split
  · split
    · exact setTracking_tells _ (withRisen_tells _ h)
    · exact withRisen_tells _ h
  · exact h

theorem becomeLost_tells (h : Tells l s t) : Tells l s (becomeLost t) := by
  unfold becomeLost
  dsimp only
  split
  · split
    · exact setTracking_tells _ (withRisen_tells _ h)
    · exact withRisen_tells _ h
  · exact h

theorem raiseLineStop_tells (h : Tells l s t) : Tells l s (raiseLineStop t) :=
  h.report_jr

theorem raiseForFault_tells (h : Tells l s t) : Tells l s (raiseForFault t) := by
  unfold raiseForFault
  split
  · exact raiseLineStop_tells h
  · exact h

/-! ### The Trim Engine -/

theorem setValve_tells (v : Fin Config.valves) (r : ValveRecord) (h : Tells l s t) : Tells l s (t.setValve v r) :=
  h.te rfl rfl

theorem enterFault_tells (v : Fin Config.valves) (h : Tells l s t) : Tells l s (enterFault v t) := by
  unfold enterFault
  dsimp only
  split
  · exact evalAttention_tells (setValve_tells v _ h)
  · exact h

theorem followDischarge_tells (v : Fin Config.valves) (a b : Bool) (h : Tells l s t) :
    Tells l s (followDischarge v a b t) := by
  unfold followDischarge
  dsimp only
  split
  · split
    · exact setValve_tells v _ h
    · split
      · exact enterFault_tells v (setValve_tells v _ h)
      · exact h
  · exact h

theorem setPointChanged_tells (v : Fin Config.valves) (h : Tells l s t) : Tells l s (setPointChanged v t) := by
  unfold setPointChanged
  dsimp only
  split
  · exact setValve_tells v _ h
  · exact h

theorem feedValve_tells (v : Fin Config.valves) (p : Product) (net : Int) (can : Word32) (h : Tells l s t) :
    Tells l s (feedValve v p net can t) := by
  unfold feedValve
  dsimp only
  split
  · exact clearRequests_tells _ (setValve_tells v _ h)
  · exact setValve_tells v _ h

theorem weighValve_tells (j : Judged) (h : Tells l s t) : Tells l s (weighValve j t) := by
  unfold weighValve
  split
  · exact h
  · next v _ =>
    have hcount : Tells l s (countJudged v j t) := setValve_tells v _ h
    dsimp only
    split
    · split
      · exact feedValve_tells _ _ _ _ hcount
      · exact hcount
    · exact hcount

theorem applyValveCommit_tells (old : Vector ValveEntry Config.valves) (first count : Nat) (h : Tells l s t) :
    Tells l s (applyValveCommit old first count t) :=
  evalAttention_tells (clearRequests_tells _ (mapValves_tells _ h))

theorem applyValveCount_tells (old : Nat) (h : Tells l s t) : Tells l s (applyValveCount old t) := by
  unfold applyValveCount
  dsimp only
  split
  · exact h
  · exact evalAttention_tells (clearRequests_tells _ (mapValves_tells _ h))

theorem applySelection_tells (h : Tells l s t) : Tells l s (applySelection t) := by
  unfold applySelection
  refine evalTrimHold_tells (evalAttention_tells (clearRequests_tells _ ?_))
  exact mapValves_tells _ h

theorem setTrimMode_tells (mode : TrimMode) (h : Tells l s t) : Tells l s (setTrimMode mode t) := by
  have hmode : Tells l s { t with te := { t.te with mode := mode } } := h.te rfl rfl
  unfold setTrimMode
  split
  · exact h
  · refine evalTrimHold_tells ?_
    split
    · exact mapValves_tells _ hmode
    · exact mapValves_tells _ hmode
    · exact hmode

theorem releaseFault_tells (v : Fin Config.valves) (h : Tells l s t) : Tells l s (releaseFault v t) := by
  unfold releaseFault
  dsimp only
  split
  · exact evalAttention_tells (clearRequests_tells _ (setValve_tells v _ h))
  · exact h

/-! ### Ring and Capture -/

theorem evalCaptureReady_tells (h : Tells l s t) : Tells l s (evalCaptureReady t) :=
  h.report_rc

theorem putCapture_tells (i : Fin 4) (j : Judged) (h : Tells l s t) : Tells l s (putCapture i j t) :=
  evalCaptureReady_tells (h.rc rfl rfl)

theorem storeCapture_tells (j : Judged) (h : Tells l s t) : Tells l s (storeCapture j t).1 := by
  unfold storeCapture
  dsimp only
  split
  · dsimp only
    exact putCapture_tells _ j h
  · split
    · split
      · dsimp only
        refine putCapture_tells _ j ?_
        exact h.rc rfl rfl
      · exact h.rc rfl rfl
    · exact h.rc rfl rfl

theorem armValve_tells (v : Fin Config.valves) (h : Tells l s t) : Tells l s (armValve v t) := by
  unfold armValve
  dsimp only
  split
  · exact setValve_tells v _ h
  · exact h

theorem captureArmed_tells (v : Fin Config.valves) (j : Judged) (h : Tells l s t) : Tells l s (captureArmed v j t) := by
  unfold captureArmed
  dsimp only
  split
  · split
    · exact setValve_tells v _ (storeCapture_tells j h)
    · exact storeCapture_tells j h
  · exact h

theorem captureJudged_tells (j : Judged) (h : Tells l s t) : Tells l s (captureJudged j t) := by
  unfold captureJudged
  split
  · exact h
  · next v _ =>
    dsimp only
    split
    · exact h
    · exact armValve_tells v (setValve_tells v _ (captureArmed_tells v j h))

theorem handJudged_tells (e : RingEntry) (cls : CanClass) (h : Tells l s t) : Tells l s (handJudged e cls t) :=
  noteOutcome_tells _ (writeRing_tells e h)

theorem startUpload_tells (h : Tells l s t) : Tells l s (startUpload t) := by
  unfold startUpload
  split
  · split
    · exact h
    · split
      · exact evalCaptureReady_tells (h.rc rfl rfl)
      · exact h
      · exact h
  · exact h

theorem completeUpload_tells (i : Fin 4) (h : Tells l s t) : Tells l s (completeUpload i t) := by
  unfold completeUpload
  refine startUpload_tells (evalCaptureReady_tells ?_)
  exact h.rc rfl rfl

theorem produceSegment_tells (hl : .capture ∈ l) (h : Tells l s t) : Tells l s (produceSegment t) := by
  unfold produceSegment
  dsimp only
  split
  · exact h
  · next i next count _ =>
    split
    · next c _ =>
      have hoffer := h.offer .capture t.ma.setup.collectorPort t.ma.setup.collector (segmentPayload c next count) hl (by decide)
      split
      · exact h
      · split
        · split
          · exact hoffer.rc rfl rfl
          · exact completeUpload_tells _ hoffer
        · exact h
    · exact h
    · exact h

theorem abandonUpload_tells (h : Tells l s t) : Tells l s (abandonUpload t) := by
  unfold abandonUpload
  split
  · exact h
  · exact evalCaptureReady_tells (h.rc rfl rfl)

theorem thawRing_tells (h : Tells l s t) : Tells l s (thawRing t) := by
  unfold thawRing
  split
  · exact h
  · exact evalTrimHold_tells h.report_rc

theorem discardCaptures_tells (h : Tells l s t) : Tells l s (discardCaptures t) :=
  evalCaptureReady_tells (h.rc rfl rfl)

theorem resetCaptureState_tells (h : Tells l s t) : Tells l s (resetCaptureState t) := by
  have hthawed : Tells l s (evalTrimHold (report t
      { t with rc := { t.rc with ring := [], burst := [], freeze := .notFrozen, cause := none } })) :=
    evalTrimHold_tells h.report_rc
  unfold resetCaptureState
  dsimp only
  generalize evalTrimHold _ = u at hthawed ⊢
  refine evalCaptureReady_tells ?_
  exact hthawed.rc rfl rfl

/-! ### Judgement and rejection -/

theorem withSchedule_tells (x : List RejectEntry) (h : Tells l s t) : Tells l s (t.withSchedule x) :=
  h.jr rfl rfl

theorem withRejectCounters_tells (x : RejectCounters) (h : Tells l s t) : Tells l s (t.withRejectCounters x) :=
  h.jr rfl rfl

theorem countClass_tells (cls : CanClass) (h : Tells l s t) : Tells l s (countClass cls t) :=
  h.jr rfl rfl

theorem loseReject_tells (h : Tells l s t) : Tells l s (loseReject t) :=
  raiseLineStop_tells (withRejectCounters_tells _ h)

theorem offerReject_tells (number : Option Word32) (cls : CanClass) (hl : .reject ∈ l) (h : Tells l s t) :
    Tells l s (offerReject number cls t).1 := by
  unfold offerReject
  split
  · exact h
  · exact h.offer .reject _ _ _ hl (by decide)

theorem fireFirst_tells (p : RejectEntry → Bool) (hl : .reject ∈ l) (h : Tells l s t) : Tells l s (fireFirst p t) := by
  unfold fireFirst
  split
  · exact h
  · next e _ =>
    have hoffer := offerReject_tells e.number e.cls hl h
    dsimp only
    split
    · exact withRejectCounters_tells _ (withSchedule_tells _ hoffer)
    · exact loseReject_tells (withSchedule_tells _ hoffer)

theorem timeoutFirst_tells (p : RejectEntry → Bool) (h : Tells l s t) : Tells l s (timeoutFirst p t) := by
  unfold timeoutFirst
  split
  · exact h
  · dsimp only
    split
    · exact freezeRing_tells _ (raiseLineStop_tells (withRejectCounters_tells _ (withSchedule_tells _ h)))
    · exact raiseLineStop_tells (withRejectCounters_tells _ (withSchedule_tells _ h))

theorem raiseAfterScheduling_tells (h : Tells l s t) : Tells l s (raiseAfterScheduling t) := by
  unfold raiseAfterScheduling
  split
  · exact raiseLineStop_tells h
  · exact h

theorem scheduleLate_tells (number : Option Word32) (cls : CanClass) (hl : .reject ∈ l) (h : Tells l s t) :
    Tells l s (scheduleLate number cls t).state := by
  have hoffer := offerReject_tells number cls hl
    (withRejectCounters_tells { t.jr.counters with late := tally t.jr.counters.late 1 } h)
  unfold scheduleLate
  dsimp only
  split
  · dsimp only
    refine raiseAfterScheduling_tells (withRejectCounters_tells _ ?_)
    exact withSchedule_tells _ hoffer
  · dsimp only
    exact raiseAfterScheduling_tells (loseReject_tells hoffer)

theorem scheduleReject_tells (number : Option Word32) (cls : CanClass) (x : Word32) (hl : .reject ∈ l) (h : Tells l s t) :
    Tells l s (scheduleReject number cls x t).state := by
  unfold scheduleReject
  dsimp only
  split
  · dsimp only
    exact loseReject_tells h
  · split
    · exact scheduleLate_tells _ _ hl h
    · dsimp only
      refine raiseAfterScheduling_tells ?_
      exact withSchedule_tells _ h

theorem rejectIfAsked_tells (number : Option Word32) (cls : CanClass) (x : Word32) (hl : .reject ∈ l) (h : Tells l s t) :
    Tells l s (rejectIfAsked number cls x t).state := by
  unfold rejectIfAsked
  split
  · exact scheduleReject_tells _ _ _ hl h
  · exact h

theorem judgeRecord_tells (r : CanRecord) (w : WindowResult) (hl : .reject ∈ l) (h : Tells l s t) :
    Tells l s (judgeRecord r w t).1 :=
  rejectIfAsked_tells _ _ _ hl (countClass_tells _ h)

theorem handOn_tells (j : Judged) (h : Tells l s t) : Tells l s (handOn j t) :=
  captureJudged_tells j (weighValve_tells j h)

theorem judgeOrphan_tells (w : WindowResult) (hl : .reject ∈ l) (h : Tells l s t) : Tells l s (judgeOrphan w t) :=
  handJudged_tells _ _ (rejectIfAsked_tells _ _ _ hl (countClass_tells _ h))

theorem advanceOnce_tells (x : Word32) (d key : Nat) (hl : .reject ∈ l) (h : Tells l s t) :
    Tells l s (advanceOnce x d key t) := by
  unfold advanceOnce
  split
  · exact fireFirst_tells _ hl h
  · exact timeoutFirst_tells _ h

theorem advanceRun_tells (x : Word32) (d fuel : Nat) (hl : .reject ∈ l) (h : Tells l s t) :
    Tells l s (advanceRun x d fuel t) := by
  induction fuel generalizing t with
  | zero => exact h
  | succ n ih =>
    unfold advanceRun
    split
    · exact h
    · exact ih (advanceOnce_tells x d _ hl h)

theorem confirmLost_tells (m : Nat) (h : Tells l s t) : Tells l s (confirmLost m t) := by
  induction m generalizing t with
  | zero => exact h
  | succ n ih =>
    unfold confirmLost
    dsimp only
    split
    · exact ih (withRejectCounters_tells _ (withSchedule_tells _ h))
    · exact h

theorem confirmGap_tells (seq : Byte) (h : Tells l s t) : Tells l s (confirmGap seq t) := by
  unfold confirmGap
  dsimp only
  refine Tells.jr ?_ rfl rfl
  split
  · exact h
  · split
    · exact h
    · split
      · exact confirmLost_tells _ h
      · exact withRejectCounters_tells _ h

theorem takeConfirm_tells (c : Copy) (h : Tells l s t) : Tells l s (takeConfirm c t) := by
  have hgap := confirmGap_tells c.sequence h
  unfold takeConfirm confirmOwn
  dsimp only
  split
  · exact withRejectCounters_tells _ (withSchedule_tells _ hgap)
  · exact (withRejectCounters_tells _ hgap).report_jr

/-! ### The Tracking Queue -/

theorem withQueue_tells (q : List CanRecord) (h : Tells l s t) : Tells l s (t.withQueue q) :=
  h.tq

theorem withTrackingCounters_tells (x : TrackingCounters) (h : Tells l s t) : Tells l s (t.withTrackingCounters x) :=
  h.tq

theorem flushRecords_tells (h : Tells l s t) : Tells l s (flushRecords t) :=
  handRemoved_tells _ _ _ (withTrackingCounters_tells _ (withQueue_tells _ h))

theorem makeRoom_tells (h : Tells l s t) : Tells l s (makeRoom t) := by
  unfold makeRoom
  split
  · exact h
  · exact loseQueue_tells (withTrackingCounters_tells _ (flushRecords_tells h))

theorem createRecord_tells (k : Fin 16) (seed : RecordSeed) (h : Tells l s t) : Tells l s (createRecord k seed t) :=
  (makeRoom_tells h).tq

theorem createPlaceholders_tells (k : Fin 16) (m : Nat) (h : Tells l s t) : Tells l s (createPlaceholders k m t) := by
  induction m generalizing t with
  | zero => exact h
  | succ n ih => exact ih (withTrackingCounters_tells _ (createRecord_tells k _ h))

theorem admitDischarge_tells (k : Fin 16) (v : Nat) (x : Word16) (h : Tells l s t) : Tells l s (admitDischarge k v x t) := by
  unfold admitDischarge
  split
  · exact createRecord_tells k _ h
  · exact followDischarge_tells _ _ _ (createRecord_tells k _ h)

theorem dischargeGap_tells (seq : Byte) (h : Tells l s t) : Tells l s (dischargeGap seq t) := by
  unfold dischargeGap
  dsimp only
  repeat' split
  · exact h
  · exact h
  · exact h
  · exact createPlaceholders_tells _ _ h
  · exact breakTracking_tells h

theorem takeDischarge_tells (c : Copy) (h : Tells l s t) : Tells l s (takeDischarge c t) := by
  have hgap : Tells l s { dischargeGap c.sequence t with
      tq := { (dischargeGap c.sequence t).tq with dischargeExp := some (c.sequence + 1) } } :=
    (dischargeGap_tells c.sequence h).tq
  unfold takeDischarge
  dsimp only
  split
  · exact withTrackingCounters_tells _ hgap
  · exact admitDischarge_tells _ _ _ hgap

theorem orphanSeams_tells (n : Nat) (h : Tells l s t) : Tells l s (orphanSeams n t) :=
  breakTracking_tells (withTrackingCounters_tells _ h)

theorem seamGap_tells (seq : Byte) (h : Tells l s t) : Tells l s (seamGap seq t) := by
  unfold seamGap
  dsimp only
  repeat' split
  · exact h
  · exact h
  · exact withQueue_tells _ h
  · exact orphanSeams_tells _ (withQueue_tells _ h)
  · exact breakTracking_tells h

theorem issueTag_tells (n : Word32) (hl : .printTag ∈ l) (h : Tells l s t) : Tells l s (issueTag n t).1 := by
  have hcounter : Tells l s { t with tq := { t.tq with tagCounter := nextTag t.tq.tagCounter } } := h.tq
  unfold issueTag
  dsimp only
  split
  · exact hcounter
  · exact hcounter.offer .printTag _ _ _ hl (by decide)

theorem takeSeam_tells (c : Copy) (hl : .printTag ∈ l) (h : Tells l s t) : Tells l s (takeSeam c t) := by
  have hgap : Tells l s { seamGap c.sequence t with
      tq := { (seamGap c.sequence t).tq with seamExp := some (c.sequence + 1) } } :=
    (seamGap_tells c.sequence h).tq
  unfold takeSeam seamOwn
  dsimp only
  split
  · exact orphanSeams_tells _ hgap
  · exact withQueue_tells _ (issueTag_tells _ hl hgap)

theorem removeAged_tells (h : Tells l s t) : Tells l s (removeAged t) := by
  unfold removeAged
  split
  · exact h
  · exact handMissing_tells _ _ h.tq

theorem pitchTick_tells (b : Word32) (h : Tells l s t) : Tells l s (pitchTick b t) :=
  removeAged_tells h.tq

theorem takeResult_tells (w : WindowResult) (hl : .reject ∈ l) (h : Tells l s t) : Tells l s (takeResult w t) := by
  unfold takeResult
  split
  · exact judgeOrphan_tells w hl (withTrackingCounters_tells _ h)
  · exact handJudged_tells _ _ (withQueue_tells _ (handOn_tells _ (judgeRecord_tells _ w hl (withQueue_tells _ h))))

theorem nextResult_tells (hl : .reject ∈ l) (h : Tells l s t) : Tells l s (nextResult t) := by
  unfold nextResult
  split
  · exact h
  · exact takeResult_tells _ hl (h.fe rfl rfl rfl)

/-! ### The Reader Matcher -/

theorem withReaderCounters_tells (x : ReaderCounters) (h : Tells l s t) : Tells l s (t.withReaderCounters x) :=
  h.rm rfl

theorem withRuns_tells (m n : Nat) (h : Tells l s t) : Tells l s (t.withRuns m n) :=
  h.rm rfl

theorem markFirst_tells (lot : List Byte) (h : Tells l s t) : Tells l s (markFirst lot t) := by
  unfold markFirst
  dsimp only
  split
  · exact withQueue_tells _ h
  · exact withReaderCounters_tells _ (withQueue_tells _ h)

theorem orphanRead_tells (rd : CodeRead) (h : Tells l s t) : Tells l s (orphanRead rd t) := by
  unfold orphanRead
  dsimp only
  split
  · exact withRuns_tells _ _ (withReaderCounters_tells _ h)
  · exact withReaderCounters_tells _ h
  · exact withReaderCounters_tells _ h

theorem unreadMark_tells (h : Tells l s t) : Tells l s (unreadMark t) :=
  becomeLost_tells (withRisen_tells _ (withRuns_tells _ _ (withReaderCounters_tells _ (withQueue_tells _ h))))

theorem exactMatch_tells (lot : List Byte) (h : Tells l s t) : Tells l s (exactMatch lot t) :=
  becomeSynced_tells (withRisen_tells _ (withRuns_tells _ _ (withReaderCounters_tells _ (markFirst_tells lot h))))

theorem lookaheadMatch_tells (k : Nat) (lot : List Byte) (h : Tells l s t) : Tells l s (lookaheadMatch k lot t) :=
  withRuns_tells _ _ (withReaderCounters_tells _ (markFirst_tells lot (handMissing_tells _ _ (withQueue_tells _ h))))

theorem matchRead_tells (rd : CodeRead) (h : Tells l s t) : Tells l s (matchRead rd t) := by
  unfold matchRead
  repeat' split
  · exact orphanRead_tells rd h
  · exact unreadMark_tells h
  · exact unreadMark_tells h
  · exact exactMatch_tells _ h
  · exact lookaheadMatch_tells _ _ h
  · exact withReaderCounters_tells _ h
  · exact unreadMark_tells h

theorem matchLost_tells (m : Nat) (h : Tells l s t) : Tells l s (matchLost m t) := by
  induction m generalizing t with
  | zero => exact h
  | succ n ih => exact ih (matchRead_tells _ h)

theorem readGap_tells (seq : Byte) (h : Tells l s t) : Tells l s (readGap seq t) := by
  unfold readGap
  dsimp only
  repeat' split
  · exact h
  · exact h
  · exact withReaderCounters_tells _ (matchLost_tells _ h)
  · exact breakTracking_tells (withReaderCounters_tells _ h)

theorem takeRead_tells (c : Copy) (h : Tells l s t) : Tells l s (takeRead c t) :=
  matchRead_tells _ ((readGap_tells c.sequence h).rm rfl)

/-! ### The Position Unit -/

theorem forwardStep_tells (d : Nat) (hl : .reject ∈ l) (h : Tells l s t) : Tells l s (forwardStep d t) := by
  have hticks (ticks : List Word32) {u : State} (hu : Tells l s u) :
      Tells l s (ticks.foldl (fun u b => pitchTick b u) u) := by
    induction ticks generalizing u with
    | nil => exact hu
    | cons b rest ih => exact ih (pitchTick_tells b hu)
  exact advanceRun_tells _ _ _ hl (hticks _ (h.pos rfl))

theorem applyGrid_tells (h : Tells l s t) : Tells l s (applyGrid t) := by
  unfold applyGrid
  split
  · exact h
  · exact h.pos rfl

theorem takeCount_tells (c : Word16) (hl : .reject ∈ l) (h : Tells l s t) : Tells l s (takeCount c t) := by
  have hready : Tells l s (applyGrid (clearEncoderFault
      (t.withPos { t.pos with timer := some t.ma.setup.encoderSilence }))) :=
    applyGrid_tells (Tells.report_pos (h.pos rfl))
  unfold takeCount handleCount
  dsimp only
  generalize applyGrid _ = u at hready ⊢
  repeat' split
  · exact hready.pos rfl
  · exact hready.pos rfl
  · exact forwardStep_tells _ hl (hready.pos rfl)
  · exact hready.pos rfl

theorem encoderSilence_tells (h : Tells l s t) : Tells l s (encoderSilence t) :=
  raiseForFault_tells (h.report_pos)

theorem commitGrid_tells (old : LineSetup) (h : Tells l s t) : Tells l s (commitGrid old t) := by
  unfold commitGrid
  dsimp only
  split
  · exact h
  · exact h.pos rfl

/-! ### The Weighing Front End -/

theorem setZeroFault_tells (b : Bool) (h : Tells l s t) : Tells l s (setZeroFault b t) :=
  h.report_fe

theorem setZeroDone_tells (b : Bool) (h : Tells l s t) : Tells l s (setZeroDone b t) :=
  h.report_fe

theorem setWeigherSilent_tells (b : Bool) (h : Tells l s t) : Tells l s (setWeigherSilent b t) :=
  h.report_fe

theorem cutWindow_tells (h : Tells l s t) : Tells l s (cutWindow t) := by
  unfold cutWindow
  split
  · exact h.fe rfl rfl rfl
  · exact h.fe rfl rfl rfl
  · exact h

theorem completeSettle_tells (h : Tells l s t) : Tells l s (completeSettle t) := by
  unfold completeSettle
  repeat' split
  · exact h.fe rfl rfl rfl
  · exact h
  · exact h

theorem completeWindow_tells (h : Tells l s t) : Tells l s (completeWindow t) := by
  unfold completeWindow
  dsimp only
  repeat' split
  · exact h.fe rfl rfl rfl
  · exact h
  · exact h

theorem startZeroReading_tells (h : Tells l s t) : Tells l s (startZeroReading t) := by
  unfold startZeroReading
  dsimp only
  repeat' split
  · exact h.fe rfl rfl rfl
  · exact h.fe rfl rfl rfl
  · exact h

theorem rejectZero_tells (h : Tells l s t) : Tells l s (rejectZero t) :=
  setZeroFault_tells _ (h.fe rfl rfl rfl)

theorem completeZeroReading_tells (h : Tells l s t) : Tells l s (completeZeroReading t) := by
  unfold completeZeroReading
  split
  · refine Tells.fe ?_ rfl rfl rfl
    split
    · unfold manualZero
      dsimp only
      split
      · exact setZeroDone_tells _ (setZeroFault_tells _ (h.fe rfl rfl rfl))
      · exact rejectZero_tells (h.fe rfl rfl rfl)
    · unfold trackZero
      dsimp only
      split
      · exact setZeroFault_tells _ (h.fe rfl rfl rfl)
      · exact rejectZero_tells h
  · exact h

theorem plainSample_tells (x : Int) (h : Tells l s t) : Tells l s (plainSample x t) := by
  unfold plainSample
  repeat' split
  · exact startZeroReading_tells (h.fe rfl rfl rfl)
  · exact startZeroReading_tells (h.fe rfl rfl rfl)
  · exact completeZeroReading_tells (h.fe rfl rfl rfl)
  · exact h
  · exact completeSettle_tells (h.fe rfl rfl rfl)
  · exact h
  · exact completeWindow_tells (h.fe rfl rfl rfl)
  · exact h

theorem handleSample_tells (x : Word16 × Int × Bool) (h : Tells l s t) : Tells l s (handleSample t x) := by
  unfold handleSample
  split
  · exact (cutWindow_tells h).fe rfl rfl rfl
  · exact plainSample_tells _ h

theorem handleGap_tells (h : Tells l s t) : Tells l s (handleGap t) := by
  unfold handleGap
  split
  · exact h.fe rfl rfl rfl
  · exact h.fe rfl rfl rfl
  · exact h.fe rfl rfl rfl
  · exact h.fe rfl rfl rfl
  · exact h.fe rfl rfl rfl
  · exact h

theorem countGap_tells (g : Nat) (h : Tells l s t) : Tells l s (countGap g t) := by
  unfold countGap
  split
  · exact h
  · exact handleGap_tells (h.fe rfl rfl rfl)

theorem leaveSilent_tells (h : Tells l s t) : Tells l s (leaveSilent t) := by
  unfold leaveSilent
  split
  · have hfallen := setWeigherSilent_tells false h
    dsimp only
    generalize setWeigherSilent false t = u at hfallen ⊢
    exact hfallen.fe rfl rfl rfl
  · exact h

theorem samples_tells (x : List (Word16 × Int × Bool)) (h : Tells l s t) : Tells l s (x.foldl handleSample t) := by
  induction x generalizing t with
  | nil => exact h
  | cons y rest ih => exact ih (handleSample_tells y h)

theorem takeSamples_tells (payload : List Byte) (h : Tells l s t) : Tells l s (takeSamples payload t) := by
  unfold takeSamples
  split
  · exact h.fe rfl rfl rfl
  · exact samples_tells _ (Tells.fe (leaveSilent_tells (countGap_tells _ h)) rfl rfl rfl)

theorem closeSilent_tells (h : Tells l s t) : Tells l s (closeSilent t) := by
  unfold closeSilent
  split
  · exact h.fe rfl rfl rfl
  · exact h.fe rfl rfl rfl
  · exact h.fe rfl rfl rfl
  · exact h

theorem digitiserSilence_tells (h : Tells l s t) : Tells l s (digitiserSilence t) :=
  setWeigherSilent_tells true ((closeSilent_tells h).fe rfl rfl rfl)

theorem abandonWindow_tells (h : Tells l s t) : Tells l s (abandonWindow t) := by
  unfold abandonWindow
  split
  · exact h.fe rfl rfl rfl
  · exact h.fe rfl rfl rfl
  all_goals exact h

/-! ### The Rewriter and the intake -/

theorem rewriteEntry_tells (p : Product) (first : Nat) (r : Rewrite) (i : Nat) (h : Tells l s r.state) :
    Tells l s (rewriteEntry p first r i).state := by
  unfold rewriteEntry
  split
  · exact h
  · have hclamp (b : Bool) : Tells l s (countClamp b r.state) := by
      unfold countClamp
      split
      · exact h.rw
      · exact h
    dsimp only
    unfold noteWritten
    split
    · exact hclamp _
    · exact setPointChanged_tells _ (Tells.rw (hclamp _))

theorem rewriteDose_tells (payload : List Byte) (frame : Frame) (h : Tells l s t) :
    Tells l s (rewriteDose payload frame t).1 := by
  have hfold (p : Product) (first : Nat) (x : List Nat) (r : Rewrite) (hr : Tells l s r.state) :
      Tells l s (x.foldl (rewriteEntry p first) r).state := by
    induction x generalizing r with
    | nil => exact hr
    | cons i rest ih => exact ih _ (rewriteEntry_tells p first r i hr)
  unfold rewriteDose rewriteEntries
  dsimp only
  repeat' split
  · exact h
  · exact h
  · exact Tells.rw (hfold _ _ _ _ h)
  · exact hfold _ _ _ _ h

theorem joinIntake_tells (c : Copy) (h : Tells l s t) : Tells l s (joinIntake c t) := by
  unfold joinIntake
  split
  · exact h.ma rfl rfl rfl
  · exact h.report_ma rfl

/-! ### The Management Agent -/

theorem finish_tells (c : Copy) (r : Reply) (hl : .reply ∈ l) (h : Tells l s t) : Tells l s (finish c r t) :=
  (h.offer .reply c.port c.source (replyPayload c r) hl (by decide)).ma rfl rfl rfl

theorem endLoad_tells (h : Tells l s t) : Tells l s (endLoad t) :=
  h.report_ma rfl

theorem failLoad_tells (h : Tells l s t) : Tells l s (failLoad t) :=
  endLoad_tells (h.ma rfl rfl rfl)

theorem loadExpiry_tells (h : Tells l s t) : Tells l s (loadExpiry t) :=
  endLoad_tells (h.ma rfl rfl rfl)

theorem abortLoad_tells (h : Tells l s t) : Tells l s (abortLoad t) := by
  unfold abortLoad
  split
  · exact endLoad_tells h
  · exact h

theorem beginLoad_tells (args : List Byte) (h : Tells l s t) : Tells l s (beginLoad args t).1 := by
  unfold beginLoad refuse
  dsimp only
  repeat' split
  · exact h
  · exact h
  · exact h
  · dsimp only
    exact h.report_ma rfl

theorem selectBody_tells (args : List Byte) (h : Tells l s t) : Tells l s (selectBody args t).1 := by
  have hselect (k : Option (Fin 16)) : Tells l s (selectProduct k t) := by
    unfold selectProduct
    exact applySelection_tells h.pu
  unfold selectBody refuse
  dsimp only
  repeat' split
  · dsimp only
    exact hselect _
  · dsimp only
    exact hselect _
  · exact h
  · exact h

theorem setLotBody_tells (args : List Byte) (h : Tells l s t) : Tells l s (setLotBody args t).1 := by
  unfold setLotBody refuse
  repeat' split
  · exact h
  · exact h
  · unfold changeLot
    exact h.quiet rfl rfl rfl

theorem trimBody_tells (args : List Byte) (h : Tells l s t) : Tells l s (trimBody args t).1 := by
  unfold trimBody refuse
  split
  · exact setTrimMode_tells _ h
  · exact setTrimMode_tells _ h
  · exact setTrimMode_tells _ h
  · exact h

theorem releaseBody_tells (args : List Byte) (h : Tells l s t) : Tells l s (releaseBody args t).1 := by
  unfold releaseBody refuse
  split
  · exact releaseFault_tells _ h
  · exact h

theorem zeroNowBody_tells (h : Tells l s t) : Tells l s (zeroNowBody t).1 := by
  unfold zeroNowBody refuse
  split
  · exact h
  · dsimp only
    refine setZeroDone_tells _ ?_
    exact h.fe rfl rfl rfl

theorem clearAlarms_tells (h : Tells l s t) : Tells l s (clearAlarms t) := by
  have hraised : Tells l s (raiseForFault (clearUnexpected (clearLineStop t))) := by
    refine raiseForFault_tells ?_
    unfold clearUnexpected clearLineStop
    exact Tells.report_jr h.report_jr
  unfold clearAlarms
  generalize raiseForFault _ = u at hraised ⊢
  refine setZeroDone_tells _ ?_
  exact hraised.report_ma rfl

theorem statisticsReset_tells (h : Tells l s t) : Tells l s (statisticsReset t) := by
  have hcleared : Tells l s { t with
      tq := { t.tq with counters := {} }
      rm := { t.rm with counters := {} }
      jr := { t.jr with classes := Vector.replicate 12 0, rejectTotal := 0 } } := h.quiet rfl rfl rfl
  exact mapValves_tells _ hcleared

theorem trackingReset_tells (h : Tells l s t) : Tells l s (trackingReset t) := by
  have hflushed := flushRecords_tells h
  unfold trackingReset
  generalize flushRecords t = u at hflushed ⊢
  refine abandonWindow_tells (loseQueue_tells ?_)
  exact hflushed.quiet rfl rfl rfl

/-! ### Commits -/

theorem commitCalibration_tells (entries : List (List Byte)) (h : Tells l s t) :
    Tells l s (commitCalibration entries t).1 := by
  unfold commitCalibration
  dsimp only
  refine setZeroFault_tells _ ?_
  exact h.fe rfl rfl rfl

theorem commitPolicy_tells (first : Nat) (entries : List (List Byte)) (h : Tells l s t) :
    Tells l s (commitPolicy first entries t).1 := by
  unfold commitPolicy refuseAt
  split
  · exact h
  · exact h.jr rfl rfl

theorem commitValve_tells (first : Nat) (entries : List (List Byte)) (h : Tells l s t) :
    Tells l s (commitValve first entries t).1 := by
  unfold commitValve refuseAt
  split
  · exact h
  · dsimp only
    refine applyValveCommit_tells _ _ _ ?_
    exact h.te rfl rfl

theorem commitProduct_tells (first : Nat) (entries : List (List Byte)) (h : Tells l s t) :
    Tells l s (commitProduct first entries t).1 := by
  unfold commitProduct refuseAt
  repeat' split
  · exact h
  · exact h
  · exact h.quiet rfl rfl rfl

theorem commitTrimHold_tells (old : LineSetup) (h : Tells l s t) : Tells l s (commitTrimHold old t) := by
  unfold commitTrimHold
  split
  · exact h
  · exact evalTrimHold_tells h

theorem commitThreshold_tells (old : LineSetup) (h : Tells l s t) : Tells l s (commitThreshold old t) := by
  unfold commitThreshold
  split
  · exact h
  · exact evalCaptureReady_tells h

theorem commitInterval_tells (old : LineSetup) (h : Tells l s t) : Tells l s (commitInterval old t) := by
  unfold commitInterval
  dsimp only
  repeat' split
  · exact h.ma rfl rfl rfl
  · exact h.ma rfl rfl rfl
  · exact h

end Tells

/-! ### Every row outside the Frame Path -/

/-- The classes that blocks outside the Frame Path offer frames to. -/
def insertedClasses : List EgressClass :=
  [.reject, .printTag, .reply, .capture]

/-- The events of the Frame Path itself and of the intake. -/
def isFrameEvent : Instr → Bool
  | .powerOn _ | .frameReceived .. | .holdExpiry | .egressStart _ | .transmitComplete _ | .linkDown .. | .linkUp _
  | .intakeDeparture => true
  | _ => false

theorem statusExpiry_tells {l : List EgressClass} {s t : State} (h : Tells l s t) : Tells l s (statusExpiry t) := by
  have hbuilt := Tells.status h
  unfold statusExpiry restartStatus
  generalize buildStatus t = u at hbuilt ⊢
  exact hbuilt.ma rfl rfl rfl

theorem onHanded_tells {l : List EgressClass} {role : Role} {f : Copy → State → State} (hf : ∀ c t, Tells l t (f c t))
    (s : State) : ∃ rest, Tells l (s.taken rest) (onHanded role f s) := by
  unfold onHanded State.takeHanded
  split
  · exact ⟨s.fp.handed, .refl s⟩
  · next h hh =>
    split at hh
    · exact absurd hh (by simp)
    · obtain rfl := Option.some.inj hh
      exact ⟨_, hf _ _⟩

/-- An event of another block acts, once that has taken its copy, by changes that report what they change. -/
theorem effect_event_tells {c : Instr} (hc : kindOf c = none) (hframe : isFrameEvent c = false) (s : State) :
    ∃ rest, Tells insertedClasses (s.taken rest) (effect c s) := by
  have r := Tells.refl (l := insertedClasses) s
  have plain {t : State} (h : Tells insertedClasses s t) : ∃ rest, Tells insertedClasses (s.taken rest) t :=
    ⟨s.fp.handed, h⟩
  have running {p : Prop} [Decidable p] {t : State} (h : Tells insertedClasses s t) :
      ∃ rest, Tells insertedClasses (s.taken rest) (if p then t else s) := by
    split
    · exact plain h
    · exact plain r
  have valve (b : Byte) {f : Fin Config.valves → State → State} (h : ∀ v, Tells insertedClasses s (f v s)) :
      ∃ rest, Tells insertedClasses (s.taken rest) (if h : b.toNat < Config.valves then f ⟨b.toNat, h⟩ s else s) := by
    split
    · exact plain (h _)
    · exact plain r
  cases c
  case loadInactivityExpiry => exact running (loadExpiry_tells r)
  case encoderFrame =>
    exact onHanded_tells (f := fun c => takeCount (encoderCount c.payload))
      (fun _ t => takeCount_tells _ (by decide) (.refl t)) s
  case maxAgeRemoval => exact plain (removeAged_tells r)
  case rejectFire => exact plain (fireFirst_tells _ (by decide) r)
  case confirmTimeout => exact plain (timeoutFirst_tells _ r)
  case encoderSilenceExpiry => exact running (encoderSilence_tells r)
  case sampleFrame =>
    exact onHanded_tells (f := fun c => takeSamples c.payload) (fun _ t => takeSamples_tells _ (.refl t)) s
  case zeroReadingStart => exact plain (startZeroReading_tells r)
  case zeroReadingComplete => exact plain (completeZeroReading_tells r)
  case settleComplete => exact plain (completeSettle_tells r)
  case windowClose => exact plain (completeWindow_tells r)
  case digitiserSilenceExpiry => exact running (digitiserSilence_tells r)
  case windowResult => exact plain (nextResult_tells (by decide) r)
  case captureArm b => exact valve b fun v => armValve_tells v r
  case dischargeFrame => exact onHanded_tells (fun c t => takeDischarge_tells c (.refl t)) s
  case valveFault b => exact valve b fun v => enterFault_tells v r
  case seamFrame => exact onHanded_tells (fun c t => takeSeam_tells c (by decide) (.refl t)) s
  case readFrame => exact onHanded_tells (fun c t => takeRead_tells c (.refl t)) s
  case trackingSynced => exact plain (becomeSynced_tells r)
  case trackingLost => exact plain (becomeLost_tells r)
  case confirmFrame => exact onHanded_tells (fun c t => takeConfirm_tells c (.refl t)) s
  case uploadStart => exact plain (startUpload_tells r)
  case captureSegment => exact plain (produceSegment_tells (by decide) r)
  case statusIntervalExpiry => exact running (statusExpiry_tells r)
  case powerOn | frameReceived | holdExpiry | egressStart | transmitComplete | linkDown | linkUp | intakeDeparture =>
    cases hframe
  all_goals cases hc

/-- The commands whose bodies act otherwise than by changes that report what they change. -/
def CommandKind.isSpecial : CommandKind → Bool
  | .loadSegment | .clearCounters | .captureControl | .resetFull | .resetLoad => true
  | _ => false

theorem CommandKind.body_tells {k : CommandKind} (hk : k.isSpecial = false) (args : List Byte) (s : State) :
    Tells insertedClasses s (k.body args s).1 := by
  have r := Tells.refl (l := insertedClasses) s
  cases k <;> dsimp only [CommandKind.body]
  case readTable => rwa [readTableBody_state]
  case readValves => rwa [readValvesBody_state]
  case readQueue => rwa [readQueueBody_state]
  case loadBegin => exact beginLoad_tells args r
  case loadAbort => exact abortLoad_tells r
  case selectProduct => exact selectBody_tells args r
  case setLot => exact setLotBody_tells args r
  case trimControl => exact trimBody_tells args r
  case releaseValve => exact releaseBody_tells args r
  case clearAlarms => exact Sys2Proof.Machine.clearAlarms_tells r
  case zeroNow => exact zeroNowBody_tells r
  case ringFreeze => exact freezeRing_tells .command r
  case ringThaw => exact thawRing_tells r
  case captureDiscard => exact discardCaptures_tells r
  case resetTracking => exact trackingReset_tells r
  case resetStatistics => exact statisticsReset_tells r
  case resetCapture => exact resetCaptureState_tells r
  case loadSegment | clearCounters | captureControl | resetFull | resetLoad => cases hk
  all_goals exact r

end Sys2Proof.Machine
end

section
/-!
PROOFS, the status word and the controller: every step either leaves the status word, or leaves no controller, or shows the
controller the word as it stands (R191).
-/

namespace Sys2Proof.Machine

/-! ### Changes of the Frame Path that no status frame comes of -/

/-- The links and the STATUS queues of two Frame Paths are the same. -/
structure FramePath.SameStatus (fp gp : FramePath) : Prop where
  link : ∀ p, (gp.port p).linkUp = (fp.port p).linkUp
  status : ∀ p, (gp.port p).status = (fp.port p).status

theorem FramePath.SameStatus.refl (fp : FramePath) : fp.SameStatus fp :=
  ⟨fun _ => rfl, fun _ => rfl⟩

theorem FramePath.SameStatus.trans {a b c : FramePath} (h : a.SameStatus b) (k : b.SameStatus c) : a.SameStatus c :=
  ⟨fun p => (k.link p).trans (h.link p), fun p => (k.status p).trans (h.status p)⟩

theorem FramePath.SameStatus.setPort (fp : FramePath) {p : Port} {ps : PortState} (hlink : ps.linkUp = (fp.port p).linkUp)
    (hstatus : ps.status = (fp.port p).status) : fp.SameStatus (fp.setPort p ps) where
  link q := by
    by_cases hq : q = p
    · rw [hq, FramePath.port_setPort, hlink]
    · rw [FramePath.port_setPort_ne fp ps hq]
  status q := by
    by_cases hq : q = p
    · rw [hq, FramePath.port_setPort, hstatus]
    · rw [FramePath.port_setPort_ne fp ps hq]

theorem FramePath.SameStatus.countPort (fp : FramePath) (p : Port) (f : PortCounters → PortCounters) :
    fp.SameStatus (fp.countPort p f) :=
  .setPort fp rfl rfl

theorem FramePath.SameStatus.forward (fp : FramePath) (arrival : Port) (frame : Frame) :
    fp.SameStatus (fp.forward arrival frame) := by
  unfold FramePath.forward
  dsimp only
  split
  · exact .setPort fp rfl rfl
  · exact .setPort fp rfl rfl

theorem FramePath.SameStatus.takeNumber (fp : FramePath) (flow : Bool) : fp.SameStatus (fp.takeNumber flow) := by
  unfold FramePath.takeNumber
  split
  · exact ⟨fun p => by cases p <;> rfl, fun p => by cases p <;> rfl⟩
  · exact ⟨fun p => by cases p <;> rfl, fun p => by cases p <;> rfl⟩

theorem FramePath.SameStatus.offerFlow (fp : FramePath) (kind station : Byte) (p : Port) :
    fp.SameStatus (fp.offerFlow kind station p) := by
  unfold FramePath.offerFlow FramePath.offer
  split
  · refine (FramePath.SameStatus.takeNumber fp true).trans (.setPort _ ?_ ?_)
    · rw [FramePath.takeNumber_port]
      rfl
    · rw [FramePath.takeNumber_port]
      rfl
  · exact .setPort fp rfl rfl

theorem FramePath.SameStatus.releaseHeld (fp : FramePath) : fp.SameStatus fp.releaseHeld := by
  have hfold (l : List (Byte × Port)) (gp : FramePath) :
      gp.SameStatus (l.foldl (fun f h => f.offerFlow 2 h.1 h.2) gp) := by
    induction l generalizing gp with
    | nil => exact .refl gp
    | cons h rest ih => exact (FramePath.SameStatus.offerFlow gp 2 h.1 h.2).trans (ih _)
  unfold FramePath.releaseHeld
  refine (hfold fp.held fp).trans ?_
  exact ⟨fun p => by cases p <;> rfl, fun p => by cases p <;> rfl⟩

theorem State.statusWord_withFp (s : State) (fp : FramePath) : (s.withFp fp).statusWord = s.statusWord :=
  rfl

theorem FramePath.SameStatus.shows {s : State} {fp : FramePath} (h : s.fp.SameStatus fp) : s.Shows (s.withFp fp) :=
  .inr ⟨rfl, s.statusWord_withFp fp, h.link, h.status⟩

/-- The Frame Path changed outside its ports. -/
theorem shows_withFp (s : State) (fp : FramePath) (ha : fp.portA = s.fp.portA) (hb : fp.portB = s.fp.portB) :
    s.Shows (s.withFp fp) := by
  have hport (p : Port) : fp.port p = s.fp.port p := by
    cases p
    · exact ha
    · exact hb
  exact FramePath.SameStatus.shows ⟨fun p => by rw [hport], fun p => by rw [hport]⟩

theorem shows_withPos (s : State) (x : Position) (hfault : x.fault = s.pos.fault) : s.Shows (s.withPos x) :=
  (Tells.pos (l := []) (.refl s) hfault).shows

theorem shows_withFe (s : State) (x : FrontEnd) (hfault : x.zeroFault = s.fe.zeroFault)
    (hsilent : x.weigherSilent = s.fe.weigherSilent) (hdone : x.zeroDone = s.fe.zeroDone) : s.Shows (s.withFe x) :=
  (Tells.fe (l := []) (.refl s) hfault hsilent hdone).shows

theorem shows_withMa (s : State) (x : Mgmt) (hsetup : x.setup = s.ma.setup) (hload : x.load.isSome = s.ma.load.isSome)
    (hoverrun : x.overrun = s.ma.overrun) : s.Shows (s.withMa x) :=
  (Tells.ma (l := []) (.refl s) hsetup hload hoverrun).shows

/-! ### The rows of the Frame Path -/

theorem forwardFrame_shows (p : Port) (frame : Frame) (s : State) : s.Shows (forwardFrame p frame s) :=
  FramePath.SameStatus.shows (.forward s.fp p frame)

theorem forwardUnless_shows (consume : Bool) (p : Port) (frame : Frame) (s : State) :
    s.Shows (forwardUnless consume p frame s) := by
  unfold forwardUnless
  split
  · exact .refl s
  · exact forwardFrame_shows p frame s

theorem holdArrival_shows (c : Copy) (s : State) : s.Shows (holdArrival c s) := by
  unfold holdArrival
  split
  · refine FramePath.SameStatus.shows (.trans ?_ (.offerFlow _ 1 c.source c.port))
    exact ⟨fun p => by cases p <;> rfl, fun p => by cases p <;> rfl⟩
  · exact .refl s

theorem offerIntake_shows (c : Copy) (s : State) : s.Shows (offerIntake c s) :=
  (joinIntake_tells (l := []) c (.refl s)).shows.trans (holdArrival_shows c _)

theorem clearHold_shows (s : State) : s.Shows (clearHold s) :=
  shows_withFp s _ rfl rfl

theorem takeFlow_shows (c : Copy) (s : State) : s.Shows (takeFlow c s) := by
  unfold takeFlow
  repeat' split
  · exact shows_withFp s _ rfl rfl
  · exact clearHold_shows s
  all_goals exact .refl s

theorem matchedFrame_shows (e : ChannelEntry) (c : Copy) (frame : Frame) (s : State) :
    s.Shows (matchedFrame e c frame s) := by
  unfold matchedFrame
  dsimp only
  repeat' split
  · refine State.Shows.trans ?_ (forwardUnless_shows _ c.port frame _)
    exact shows_withFp s _ rfl rfl
  · exact (rewriteDose_tells (l := []) c.payload frame (.refl s)).shows.trans (forwardFrame_shows c.port _ _)
  · refine State.Shows.trans ?_ (forwardUnless_shows _ c.port frame _)
    exact shows_withFp s _ rfl rfl

theorem classifyFrame_shows (c : Copy) (frame : Frame) (s : State) : s.Shows (classifyFrame c frame s) := by
  have hforward := forwardFrame_shows c.port frame s
  unfold classifyFrame
  repeat' split
  · exact hforward
  · unfold stationFrame
    split
    · exact hforward
    · exact matchedFrame_shows _ c frame s
  · unfold mgmtFrame
    repeat' split
    · exact offerIntake_shows c s
    · exact (offerIntake_shows c s).trans (forwardFrame_shows c.port frame _)
    · exact hforward
  · unfold flowFrame
    split
    · exact takeFlow_shows c s
    · exact hforward
  · exact hforward

theorem receiveFrame_shows (p : Port) (whole : Bool) (frame : Frame) (s : State) :
    s.Shows (receiveFrame p whole frame s) := by
  have hreceived : s.Shows (s.withFp (s.fp.countPort p .addReceived)) :=
    FramePath.SameStatus.shows (.countPort s.fp p _)
  unfold receiveFrame
  dsimp only
  repeat' split
  · exact hreceived.trans (FramePath.SameStatus.shows (.countPort _ p _))
  · exact hreceived.trans (FramePath.SameStatus.shows (.countPort _ p _))
  · refine hreceived.trans ?_
    unfold acceptFrame
    split
    · exact forwardFrame_shows p frame _
    · exact classifyFrame_shows _ frame _

/-! ### Segments of a load -/

/-- The state with its Line Setup record replaced. -/
def State.withSetup (s : State) (u : LineSetup) : State :=
  s.withMa { s.ma with setup := u }

theorem commitCollector_shows (old : LineSetup) (s : State) : s.Shows (commitCollector old s) := by
  have hcleared : s.Shows (if old.collector = s.ma.setup.collector then s else clearHold s) := by
    split
    · exact .refl s
    · exact clearHold_shows s
  unfold commitCollector
  dsimp only
  split
  · exact hcleared
  · exact hcleared.trans (abandonUpload_tells (l := []) (.refl _)).shows

theorem deliverSetup_shows (old : LineSetup) (s : State) : s.Shows (deliverSetup old s) := by
  unfold deliverSetup
  refine State.Shows.trans ?_ (commitInterval_tells (l := []) old (.refl _)).shows
  refine State.Shows.trans ?_ (commitThreshold_tells (l := []) old (.refl _)).shows
  refine State.Shows.trans ?_ (commitCollector_shows old _)
  exact (commitTrimHold_tells (l := []) old (applyValveCount_tells _ (commitGrid_tells old (.refl s)))).shows

/-- A commit shows what it changes, counted from the state with the Line Setup record that it leaves. -/
theorem commitTable_shows (table : TableId) (first : Nat) (entries : List (List Byte)) (s : State) :
    ∃ u, (s.withSetup u).Shows (commitTable table first entries s).1 := by
  unfold commitTable
  cases table with
  | channel =>
    refine ⟨s.ma.setup, ?_⟩
    unfold commitChannel refuseAt
    dsimp only
    split
    · exact .refl s
    · exact shows_withFp s _ rfl rfl
  | lineSetup =>
    dsimp only
    unfold commitLineSetup refuseAt
    split
    · exact ⟨s.ma.setup, .refl s⟩
    · next u _ => exact ⟨u, deliverSetup_shows s.ma.setup _⟩
  | calibration => exact ⟨s.ma.setup, (commitCalibration_tells (l := []) entries (.refl s)).shows⟩
  | product => exact ⟨s.ma.setup, (commitProduct_tells (l := []) first entries (.refl s)).shows⟩
  | valve => exact ⟨s.ma.setup, (commitValve_tells (l := []) first entries (.refl s)).shows⟩
  | policy => exact ⟨s.ma.setup, (commitPolicy_tells (l := []) first entries (.refl s)).shows⟩

/-- A change that leaves the Line Setup record. -/
theorem State.Shows.sameSetup {s t : State} (h : s.Shows t) : ∃ u, (s.withSetup u).Shows t :=
  ⟨s.ma.setup, h⟩

theorem stageSegment_shows {s : State} {d : LoadDesc} (hload : s.ma.load = some d) (entries : List (List Byte)) :
    s.Shows (stageSegment d entries s) :=
  shows_withMa s _ rfl (by rw [hload]; rfl) rfl

theorem segmentBody_shows (args : List Byte) (s : State) : ∃ u, (s.withSetup u).Shows (segmentBody args s).1 := by
  unfold segmentBody takeSegment lastSegment refuse
  repeat' split
  · exact (State.Shows.refl s).sameSetup
  · dsimp only
    exact (failLoad_tells (l := []) (.refl s)).shows.sameSetup
  · dsimp only
    exact (failLoad_tells (l := []) (.refl s)).shows.sameSetup
  · next hload _ _ _ =>
    dsimp only
    exact (stageSegment_shows hload _).sameSetup
  · next d _ _ _ _ =>
    dsimp only
    obtain ⟨u, hu⟩ := commitTable_shows d.table d.first
      (s.ma.staging ++ cutEntries (entrySize d.table) (byteAt args 1).toNat (args.drop 2)) s
    exact ⟨u, hu.trans (endLoad_tells (l := []) (.refl _)).shows⟩

/-! ### Every row and every step -/

theorem loadReset_shows (s : State) : s.Shows (loadReset s) := by
  have haborted := abortLoad_tells (l := []) (.refl s)
  unfold loadReset
  dsimp only
  generalize abortLoad s = t at haborted ⊢
  refine haborted.shows.trans ((shows_withMa t { t.ma with fifo := [] } rfl rfl rfl).trans ?_)
  exact FramePath.SameStatus.shows (.releaseHeld _)

theorem clearAllCounters_shows (s : State) : s.Shows (clearAllCounters s) :=
  .inr ⟨rfl, rfl, fun p => by cases p <;> rfl, fun p => by cases p <;> rfl⟩

/-- What the body of a command changes it shows, a FULL reset excepted. -/
theorem CommandKind.body_shows {k : CommandKind} (hk : k ≠ .resetFull) (args : List Byte) (s : State) :
    ∃ u, (s.withSetup u).Shows (k.body args s).1 := by
  by_cases hspecial : k.isSpecial = false
  · exact (k.body_tells hspecial args s).shows.sameSetup
  · cases k <;> try exact absurd rfl hspecial
    case resetFull => exact absurd rfl hk
    case loadSegment => exact segmentBody_shows args s
    case clearCounters => exact (clearAllCounters_shows s).sameSetup
    case captureControl =>
      dsimp only [CommandKind.body]
      unfold captureControlBody refuse
      split
      · exact (State.Shows.refl s).sameSetup
      · next on _ => exact ⟨{ s.ma.setup with upload := on }, .refl _⟩
    case resetLoad => exact (loadReset_shows s).sameSetup

/-- The status word stands, or there is no controller, or the change is shown. -/
def State.Answers (s t : State) : Prop :=
  t.statusWord = s.statusWord ∨ t.ma.setup.controller = 255 ∨ ∃ u, (s.withSetup u).Shows t

theorem State.Shows.answers {s t : State} (h : s.Shows t) : s.Answers t :=
  .inr (.inr ⟨s.ma.setup, h⟩)

theorem effect_row_answers (k : CommandKind) (s : State) : s.Answers (effect k.row s) := by
  have hfinish (c : Copy) (r : Reply) (t : State) : t.Shows (t.replied c r) :=
    (finish_tells (l := [.reply]) c r (by decide) (.refl t)).shows
  obtain h | ⟨c, _, ⟨status, h⟩ | h⟩ := effect_row_cases k s
  · exact .inl (by rw [h])
  · rw [h]
    exact (hfinish c _ s).answers
  · rw [h]
    by_cases hk : k = .resetFull
    · subst hk
      exact .inr (.inl rfl)
    · obtain ⟨u, hu⟩ := CommandKind.body_shows hk c.args s
      exact .inr (.inr ⟨u, hu.trans (hfinish c _ _)⟩)

theorem departIntake_shows (s : State) : s.Shows (departIntake s) := by
  unfold departIntake
  repeat' split
  · exact .refl s
  · exact .refl s
  · next c rest _ =>
    have hbegun : s.Shows (s.withMa { s.ma with fifo := rest, executing := some c }) :=
      shows_withMa s _ rfl rfl rfl
    have hreleased : s.Shows (releaseOnDeparture (s.withMa { s.ma with fifo := rest, executing := some c })) := by
      unfold releaseOnDeparture
      split
      · exact hbegun.trans (FramePath.SameStatus.shows (.releaseHeld _))
      · exact hbegun
    generalize releaseOnDeparture _ = t at hreleased ⊢
    unfold beginCommand
    refine hreleased.trans ?_
    repeat' split
    · exact shows_withMa t _ rfl rfl rfl
    · exact (finish_tells (l := [.reply]) c _ (by decide) (.refl t)).shows
    · exact (finish_tells (l := [.reply]) c _ (by decide) (.refl t)).shows
    · exact (finish_tells (l := [.reply]) c _ (by decide) (.refl t)).shows
    · exact .refl t

theorem linkLost_word (p : Port) (arriving : Bool) (s : State) : (linkLost p arriving s).statusWord = s.statusWord := by
  unfold linkLost cutFrame
  dsimp only
  repeat' split
  all_goals rfl

theorem effect_event_answers {c : Instr} (hc : kindOf c = none) (s : State) : s.Answers (effect c s) := by
  have hif {p : Prop} [Decidable p] {t : State} (h : s.Shows t) : s.Answers (if p then t else s) := by
    split
    · exact h.answers
    · exact (State.Shows.refl s).answers
  by_cases hframe : isFrameEvent c = false
  · obtain ⟨rest, h⟩ := effect_event_tells hc hframe s
    have htaken : s.Shows (s.taken rest) := shows_withFp s _ rfl rfl
    exact (htaken.trans h.shows).answers
  · cases c <;> try exact absurd rfl hframe
    case powerOn => exact .inr (.inl rfl)
    case frameReceived p whole frame => exact hif (receiveFrame_shows p whole frame s)
    case holdExpiry => exact hif (clearHold_shows s)
    case egressStart => exact .inl rfl
    case transmitComplete => exact .inl rfl
    case linkDown p arriving => exact .inl (linkLost_word p arriving s)
    case linkUp => exact .inl rfl
    case intakeDeparture => exact (departIntake_shows s).answers

theorem effect_answers (c : Instr) (s : State) : s.Answers (effect c s) := by
  cases hc : kindOf c with
  | none => exact effect_event_answers hc s
  | some k => exact eq_row_of_kindOf hc ▸ effect_row_answers k s

/-- The timers' expiries show what they change. -/
theorem millisecond_shows (s : State) : s.Shows (millisecond s) := by
  have encoder (t : State) : t.Shows (msEncoder t) := by
    unfold msEncoder
    repeat' split
    · exact .refl t
    · exact (encoderSilence_tells (l := []) (.refl t)).shows
    · exact shows_withPos t _ rfl
  have digitiser (t : State) : t.Shows (msDigitiser t) := by
    unfold msDigitiser
    repeat' split
    · exact .refl t
    · exact (digitiserSilence_tells (l := []) (.refl t)).shows
    · exact shows_withFe t _ rfl rfl rfl
  have hold (t : State) : t.Shows (msHold t) := by
    unfold msHold
    repeat' split
    · exact .refl t
    · exact clearHold_shows t
    · exact shows_withFp t _ rfl rfl
  have load (t : State) : t.Shows (msLoad t) := by
    unfold msLoad
    repeat' split
    · exact .refl t
    · exact (loadExpiry_tells (l := []) (.refl t)).shows
    · exact shows_withMa t _ rfl rfl rfl
  have status (t : State) : t.Shows (msStatus t) := by
    unfold msStatus
    repeat' split
    · exact .refl t
    · exact (statusExpiry_tells (l := []) (.refl t)).shows
    · exact shows_withMa t _ rfl rfl rfl
  exact ((((encoder s).trans (digitiser _)).trans (hold _)).trans (load _)).trans (status _)

theorem step_answers {s t : State} (h : step s = .next t) : s.Answers t := by
  obtain ⟨_, rfl⟩ | ⟨c, rest, _, rfl⟩ := step_cases h
  · exact (millisecond_shows s).answers
  · obtain h | h | ⟨u, h⟩ := effect_answers c { s with pending := rest }
    · exact .inl h
    · exact .inr (.inl h)
    · have hrest : (s.withSetup u).Shows (State.withSetup { s with pending := rest } u) :=
        .inr ⟨rfl, rfl, fun _ => rfl, fun _ => rfl⟩
      exact .inr (.inr ⟨u, hrest.trans h⟩)

/-- Settles O58: a step answers the state by changes that report what they change, so a status word that differs is in the newest
frame of the controller's STATUS queue. -/
theorem statusWordShown : Obligations.StatusWordShown := by
  unfold Obligations.StatusWordShown
  intro s t hstep hword hcontroller hstands _ hup
  have htold : t.newestStatus := by
    obtain h | h | ⟨u, h | h⟩ := step_answers hstep
    · exact absurd h hword
    · exact absurd (hstands.symm.trans h) hcontroller
    · exact h (hstands ▸ hcontroller) hup
    · exact absurd h.word hword
  exact htold

end Sys2Proof.Machine
end

section
/-!
PROOFS, the invariants of the Frame Path and of the Management Agent: capacities and downed ports through every operation of the
Frame Path, and the Line Setup record, the load and the FIFO through every operation that touches the Agent.
-/

namespace Sys2Proof.Machine

/-! ### Ports within their capacities, and empty when down -/

/-- No queue of the port exceeds its capacity, and with its link down the port holds no frame and sends none. -/
structure PortState.Sound (ps : PortState) : Prop where
  room : ∀ cls, (ps.queue cls).length ≤ classCapacity cls
  empty : ps.linkUp = false → ∀ cls, ps.queue cls = []
  idle : ps.linkUp = false → ps.transmitting = none

theorem PortState.sound_iff (ps : PortState) : ps.Sound ↔ ps.withinCapacity ∧ ps.silentWhenDown := by
  constructor
  · intro h
    refine ⟨⟨h.room .reject, h.room .forward, h.room .printTag, h.room .reply, h.room .status, h.room .capture⟩, fun hd => ?_⟩
    have hempty := h.empty hd
    exact ⟨hempty .reject, hempty .forward, hempty .printTag, hempty .reply, hempty .status, hempty .capture, h.idle hd⟩
  · rintro ⟨⟨hreject, hforward, hprint, hreply, hstatus, hcapture⟩, hsilent⟩
    constructor
    case room => rintro (_ | _ | _ | _ | _ | _) <;> assumption
    case empty =>
      intro hd
      obtain ⟨ereject, eforward, eprint, ereply, estatus, ecapture, _⟩ := hsilent hd
      rintro (_ | _ | _ | _ | _ | _) <;> assumption
    case idle =>
      intro hd
      obtain ⟨_, _, _, _, _, _, hidle⟩ := hsilent hd
      exact hidle

theorem PortState.Grows.sound {l : List EgressClass} {ps qs : PortState} (h : ps.Grows l qs) (hps : ps.Sound) : qs.Sound where
  room cls := h.room cls (hps.room cls)
  empty hd cls := by
    have hdown : ps.linkUp = false := h.linkUp ▸ hd
    rw [h.down hdown, hps.empty hdown]
  idle hd := by
    rw [h.transmitting]
    exact hps.idle (h.linkUp ▸ hd)

/-- The same queues, with the link up or nothing more sent than before. -/
theorem PortState.Sound.of_queues {ps qs : PortState} (h : ps.Sound) (hqueue : ∀ cls, qs.queue cls = ps.queue cls)
    (hdown : qs.linkUp = false → ps.linkUp = false ∧ (ps.transmitting = none → qs.transmitting = none)) : qs.Sound where
  room cls := hqueue cls ▸ h.room cls
  empty hd cls := (hqueue cls).trans (h.empty (hdown hd).1 cls)
  idle hd := (hdown hd).2 (h.idle (hdown hd).1)

theorem PortState.Sound.counters {ps : PortState} (h : ps.Sound) (x : PortCounters) : PortState.Sound { ps with counters := x } :=
  h.of_queues (fun cls => by cases cls <;> rfl) fun hd => ⟨hd, id⟩

/-- A queue of an up port replaced by one within its capacity. -/
theorem PortState.Sound.setQueue {ps : PortState} (h : ps.Sound) (hup : ps.linkUp = true) {cls : EgressClass} {q : List Frame}
    (hq : q.length ≤ classCapacity cls) : (ps.setQueue cls q).Sound := by
  have hlink : (ps.setQueue cls q).linkUp = true := by rw [PortState.setQueue_linkUp, hup]
  have hdown {p : Prop} (hd : (ps.setQueue cls q).linkUp = false) : p := absurd (hlink.symm.trans hd) (by decide)
  refine ⟨fun other => ?_, hdown, hdown⟩
  by_cases hother : other = cls
  · rwa [hother, PortState.queue_setQueue]
  · rw [ps.queue_setQueue_ne q hother]
    exact h.room other

theorem PortState.Sound.start {ps : PortState} (h : ps.Sound) : ps.start.Sound := by
  unfold PortState.start
  split
  · next hcondition =>
    have hup : ps.linkUp = true := by
      simp only [Bool.and_eq_true] at hcondition
      exact hcondition.1
    split
    · exact h
    · next cls _ =>
      split
      · exact h
      · next frame rest hqueue =>
        have hroom := h.room cls
        rw [hqueue, List.length_cons] at hroom
        have hlink : (ps.setQueue cls rest).linkUp = true := by rw [PortState.setQueue_linkUp, hup]
        exact (h.setQueue hup (Nat.le_of_succ_le hroom)).of_queues (fun other => by cases other <;> rfl)
          fun hd => absurd (hlink.symm.trans hd) (by decide)
  · exact h

theorem PortState.Sound.complete {ps : PortState} (h : ps.Sound) : ps.complete.Sound := by
  unfold PortState.complete
  split
  · exact h
  · exact h.of_queues (fun cls => by cases cls <;> rfl) fun hd => ⟨hd, fun _ => rfl⟩

theorem PortState.sound_lose (ps : PortState) : ps.lose.Sound :=
  ⟨fun cls => by cases cls <;> exact Nat.zero_le _, fun _ cls => by cases cls <;> rfl, fun _ => rfl⟩

theorem PortState.Sound.linkUp {ps : PortState} (h : ps.Sound) : PortState.Sound { ps with linkUp := true } :=
  h.of_queues (fun cls => by cases cls <;> rfl) fun hd => nomatch hd

theorem PortState.Sound.keep {ps : PortState} (h : ps.Sound) : ps.keep.Sound where
  room cls := by
    cases cls
    case forward => exact h.room .forward
    all_goals exact Nat.zero_le _
  empty hd cls := by
    cases cls
    case forward => exact h.empty hd .forward
    all_goals rfl
  idle hd := h.idle hd

theorem PortState.Sound.forward {ps : PortState} (h : ps.Sound) (frame : Frame) :
    (if ps.accepts .forward then { ps with forward := ps.forward ++ [frame] } else ps.countDropped 1).Sound := by
  split
  · next haccepts =>
    obtain ⟨hup, hroom⟩ := (ps.accepts_iff .forward).mp haccepts
    refine h.setQueue (cls := .forward) hup ?_
    rw [List.length_append, List.length_singleton]
    exact hroom
  · exact h.counters _

/-! ### The Frame Path -/

/-- The ports are sound, no station is held twice, at most eight are held, and the Hold stands exactly while its timer runs. -/
structure FramePath.Sound (fp : FramePath) : Prop where
  port : ∀ p, (fp.port p).Sound
  heldRoom : fp.held.length ≤ 8
  heldOnce : (fp.held.map Prod.fst).Nodup
  hold : fp.holdStanding = fp.holdTimer.isSome

theorem FramePath.ports {P : PortState → Prop} {fp : FramePath} (ha : P fp.portA) (hb : P fp.portB) (p : Port) :
    P (fp.port p) := by
  cases p
  · exact ha
  · exact hb

theorem frameInv_iff (s : State) : s.frameInv ↔ s.fp.Sound ∧ s.ma.fifo.length ≤ 8 := by
  constructor
  · rintro ⟨hroomA, hroomB, hdownA, hdownB, hfifo, hheld, honce, hhold⟩
    refine ⟨⟨FramePath.ports ?_ ?_, hheld, honce, hhold⟩, hfifo⟩
    · exact (PortState.sound_iff _).mpr ⟨hroomA, hdownA⟩
    · exact (PortState.sound_iff _).mpr ⟨hroomB, hdownB⟩
  · rintro ⟨⟨hport, hheld, honce, hhold⟩, hfifo⟩
    obtain ⟨hroomA, hdownA⟩ := (PortState.sound_iff _).mp (hport .a)
    obtain ⟨hroomB, hdownB⟩ := (PortState.sound_iff _).mp (hport .b)
    exact ⟨hroomA, hroomB, hdownA, hdownB, hfifo, hheld, honce, hhold⟩

theorem FramePath.Grows.sound {l : List EgressClass} {fp gp : FramePath} (h : fp.Grows l gp) (hfp : fp.Sound) : gp.Sound where
  port p := (h.port p).sound (hfp.port p)
  heldRoom := h.held ▸ hfp.heldRoom
  heldOnce := h.held ▸ hfp.heldOnce
  hold := by rw [h.holdStanding, h.holdTimer, hfp.hold]

theorem FramePath.Sound.setPort {fp : FramePath} (h : fp.Sound) (p : Port) {ps : PortState} (hps : ps.Sound) :
    (fp.setPort p ps).Sound where
  port q := by
    by_cases hq : q = p
    · rwa [hq, FramePath.port_setPort]
    · rw [FramePath.port_setPort_ne fp ps hq]
      exact h.port q
  heldRoom := by simpa using h.heldRoom
  heldOnce := by simpa using h.heldOnce
  hold := by simpa using h.hold

/-- The Frame Path changed outside its ports, its held stations and the Hold. -/
theorem FramePath.Sound.of_eq {fp gp : FramePath} (h : fp.Sound) (ha : gp.portA = fp.portA) (hb : gp.portB = fp.portB)
    (hheld : gp.held = fp.held) (hstanding : gp.holdStanding = fp.holdStanding) (htimer : gp.holdTimer = fp.holdTimer) :
    gp.Sound where
  port := FramePath.ports (ha.symm ▸ h.port .a) (hb.symm ▸ h.port .b)
  heldRoom := hheld ▸ h.heldRoom
  heldOnce := hheld ▸ h.heldOnce
  hold := by rw [hstanding, htimer, h.hold]

theorem FramePath.Sound.forward {fp : FramePath} (h : fp.Sound) (arrival : Port) (frame : Frame) :
    (fp.forward arrival frame).Sound := by
  have hport := (h.port (otherPort arrival)).forward frame
  unfold FramePath.forward
  dsimp only
  split at hport
  · rw [if_pos ‹_›]
    exact h.setPort _ hport
  · rw [if_neg ‹_›]
    exact h.setPort _ hport

theorem FramePath.Sound.takeNumber {fp : FramePath} (h : fp.Sound) (flow : Bool) : (fp.takeNumber flow).Sound := by
  unfold FramePath.takeNumber
  split
  · exact h.of_eq rfl rfl rfl rfl rfl
  · exact h.of_eq rfl rfl rfl rfl rfl

theorem FramePath.Sound.offerFlow {fp : FramePath} (h : fp.Sound) (kind station : Byte) (p : Port) :
    (fp.offerFlow kind station p).Sound := by
  unfold FramePath.offerFlow FramePath.offer
  split
  · next haccepts =>
    obtain ⟨hup, hroom⟩ := (PortState.accepts_iff ..).mp haccepts
    refine (h.takeNumber true).setPort p ((h.port p).setQueue hup ?_)
    rw [List.length_append, List.length_singleton]
    exact hroom
  · exact h.setPort p ((h.port p).counters _)

theorem FramePath.Sound.releaseHeld {fp : FramePath} (h : fp.Sound) : fp.releaseHeld.Sound := by
  have hfold (l : List (Byte × Port)) {gp : FramePath} (hgp : gp.Sound) :
      (l.foldl (fun f h => f.offerFlow 2 h.1 h.2) gp).Sound := by
    induction l generalizing gp with
    | nil => exact hgp
    | cons x rest ih => exact ih (hgp.offerFlow 2 x.1 x.2)
  have hreleased := hfold fp.held h
  exact ⟨FramePath.ports (hreleased.port .a) (hreleased.port .b), Nat.zero_le _, List.nodup_nil, hreleased.hold⟩

theorem FramePath.Sound.keep {fp : FramePath} (h : fp.Sound) : fp.keep.Sound where
  port := FramePath.ports (h.port .a).keep (h.port .b).keep
  heldRoom := h.heldRoom
  heldOnce := h.heldOnce
  hold := rfl

/-! ### The rows of the Frame Path -/

theorem forwardFrame_sound (p : Port) (frame : Frame) {s : State} (h : s.fp.Sound) : (forwardFrame p frame s).fp.Sound :=
  h.forward p frame

theorem forwardUnless_sound (consume : Bool) (p : Port) (frame : Frame) {s : State} (h : s.fp.Sound) :
    (forwardUnless consume p frame s).fp.Sound := by
  unfold forwardUnless
  split
  · exact h
  · exact h.forward p frame

theorem holdArrival_sound (c : Copy) {s : State} (h : s.fp.Sound) : (holdArrival c s).fp.Sound := by
  unfold holdArrival
  split
  · next hcondition =>
    obtain ⟨_, hnew, hroom⟩ := hcondition
    refine FramePath.Sound.offerFlow (fp := { s.fp with held := s.fp.held ++ [(c.source, c.port)] })
      ⟨FramePath.ports (h.port .a) (h.port .b), ?_, ?_, h.hold⟩ 1 c.source c.port
    · rw [List.length_append, List.length_singleton]
      exact hroom
    · have hfresh : c.source ∉ s.fp.held.map Prod.fst := by
        intro hmem
        obtain ⟨x, hx, hsource⟩ := List.mem_map.mp hmem
        have hheld : s.fp.isHeld c.source = true := List.any_eq_true.mpr ⟨x, hx, by simp [hsource]⟩
        rw [hnew] at hheld
        exact absurd hheld (by simp)
      rw [List.map_append, List.map_singleton]
      exact List.nodup_append.mpr ⟨h.heldOnce, List.nodup_singleton _, by
        intro a ha b hb
        rw [List.mem_singleton.mp hb]
        rintro rfl
        exact hfresh ha⟩
  · exact h

theorem joinIntake_sound (c : Copy) {s : State} (h : s.fp.Sound) : (joinIntake c s).fp.Sound :=
  (joinIntake_tells (l := []) c (.refl s)).grows.sound h

theorem clearHold_sound {s : State} (h : s.fp.Sound) : (clearHold s).fp.Sound :=
  ⟨FramePath.ports (h.port .a) (h.port .b), h.heldRoom, h.heldOnce, rfl⟩

theorem takeFlow_sound (c : Copy) {s : State} (h : s.fp.Sound) : (takeFlow c s).fp.Sound := by
  unfold takeFlow
  repeat' split
  · exact ⟨FramePath.ports (h.port .a) (h.port .b), h.heldRoom, h.heldOnce, rfl⟩
  · exact clearHold_sound h
  all_goals exact h

theorem matchedFrame_sound (e : ChannelEntry) (c : Copy) (frame : Frame) {s : State} (h : s.fp.Sound) :
    (matchedFrame e c frame s).fp.Sound := by
  unfold matchedFrame
  dsimp only
  repeat' split
  · refine forwardUnless_sound _ _ _ ?_
    exact h.of_eq rfl rfl rfl rfl rfl
  · exact forwardFrame_sound _ _ ((rewriteDose_tells (l := []) c.payload frame (.refl s)).grows.sound h)
  · refine forwardUnless_sound _ _ _ ?_
    exact h.of_eq rfl rfl rfl rfl rfl

theorem classifyFrame_sound (c : Copy) (frame : Frame) {s : State} (h : s.fp.Sound) : (classifyFrame c frame s).fp.Sound := by
  have hforward := h.forward c.port frame
  have hintake := holdArrival_sound c (joinIntake_sound c h)
  unfold classifyFrame
  repeat' split
  · exact hforward
  · unfold stationFrame
    split
    · exact hforward
    · exact matchedFrame_sound _ c frame h
  · unfold mgmtFrame
    repeat' split
    · exact hintake
    · exact hintake.forward c.port frame
    · exact hforward
  · unfold flowFrame
    split
    · exact takeFlow_sound c h
    · exact hforward
  · exact hforward

theorem receiveFrame_sound (p : Port) (whole : Bool) (frame : Frame) {s : State} (h : s.fp.Sound) :
    (receiveFrame p whole frame s).fp.Sound := by
  have hcount {fp : FramePath} (hfp : fp.Sound) (f : PortCounters → PortCounters) : (fp.countPort p f).Sound :=
    hfp.setPort p ((hfp.port p).counters _)
  unfold receiveFrame
  dsimp only
  repeat' split
  · exact hcount (hcount h _) _
  · exact hcount (hcount h _) _
  · unfold acceptFrame
    split
    · exact forwardFrame_sound p frame (hcount h _)
    · exact classifyFrame_sound _ frame (hcount h _)

theorem linkLost_sound (p : Port) (arriving : Bool) {s : State} (h : s.fp.Sound) : (linkLost p arriving s).fp.Sound := by
  have hcut : (cutFrame p arriving s).fp.Sound := by
    unfold cutFrame
    split
    · exact h.setPort p ((h.port p).counters _)
    · exact h
  unfold linkLost
  split
  · exact hcut.setPort p (PortState.sound_lose _)
  · exact h

theorem departIntake_sound {s : State} (h : s.fp.Sound) : (departIntake s).fp.Sound := by
  unfold departIntake
  repeat' split
  · exact h
  · exact h
  · next c rest _ =>
    have hreleased : (releaseOnDeparture (s.withMa { s.ma with fifo := rest, executing := some c })).fp.Sound := by
      unfold releaseOnDeparture
      split
      · exact h.releaseHeld
      · exact h
    generalize releaseOnDeparture _ = t at hreleased ⊢
    have hfinish (r : Reply) : (finish c r t).fp.Sound :=
      (finish_tells (l := [.reply]) c r (by decide) (.refl t)).grows.sound hreleased
    unfold beginCommand
    split
    · exact hreleased
    · exact hfinish _
    · exact hfinish _
    · exact hfinish _
    · exact hreleased

theorem loadReset_sound {s : State} (h : s.fp.Sound) : (loadReset s).fp.Sound :=
  FramePath.Sound.releaseHeld ((abortLoad_tells (l := []) (.refl s)).grows.sound h)

theorem commitCollector_sound (old : LineSetup) {s : State} (h : s.fp.Sound) : (commitCollector old s).fp.Sound := by
  have hcleared : (if old.collector = s.ma.setup.collector then s else clearHold s).fp.Sound := by
    split
    · exact h
    · exact clearHold_sound h
  unfold commitCollector
  dsimp only
  split
  · exact hcleared
  · exact (abandonUpload_tells (l := []) (.refl _)).grows.sound hcleared

theorem deliverSetup_sound (old : LineSetup) {s : State} (h : s.fp.Sound) : (deliverSetup old s).fp.Sound := by
  have hvalves := (commitTrimHold_tells (l := []) old
    (applyValveCount_tells old.valveCount (commitGrid_tells old (.refl s)))).grows.sound h
  unfold deliverSetup
  generalize commitTrimHold old _ = t at hvalves ⊢
  have hcollector := commitCollector_sound old hvalves
  generalize commitCollector old t = u at hcollector ⊢
  exact (commitInterval_tells (l := []) old (commitThreshold_tells old (.refl u))).grows.sound hcollector

theorem commitTable_sound (table : TableId) (first : Nat) (entries : List (List Byte)) {s : State} (h : s.fp.Sound) :
    (commitTable table first entries s).1.fp.Sound := by
  have htells {t u : State} (ht : t.fp.Sound) (hu : Tells [] t u) : u.fp.Sound := hu.grows.sound ht
  unfold commitTable
  cases table with
  | channel =>
    have hset (x : Vector ChannelEntry 32) : (s.withFp { s.fp with channels := x }).fp.Sound := h.of_eq rfl rfl rfl rfl rfl
    dsimp only
    unfold commitChannel refuseAt
    dsimp only
    split
    · exact h
    · exact hset _
  | lineSetup =>
    dsimp only
    unfold commitLineSetup refuseAt
    split
    · exact h
    · next u _ =>
      dsimp only
      exact deliverSetup_sound s.ma.setup h
  | calibration => exact htells h (commitCalibration_tells entries (.refl s))
  | product => exact htells h (commitProduct_tells first entries (.refl s))
  | valve => exact htells h (commitValve_tells first entries (.refl s))
  | policy => exact htells h (commitPolicy_tells first entries (.refl s))

theorem segmentBody_sound (args : List Byte) {s : State} (h : s.fp.Sound) : (segmentBody args s).1.fp.Sound := by
  have hfailed := (failLoad_tells (l := []) (.refl s)).grows.sound h
  unfold segmentBody takeSegment refuse
  repeat' split
  · exact h
  · exact hfailed
  · exact hfailed
  · exact h
  · unfold lastSegment
    dsimp only
    exact (endLoad_tells (l := []) (.refl _)).grows.sound (commitTable_sound _ _ _ h)

theorem CommandKind.body_sound (k : CommandKind) (args : List Byte) {s : State} (h : s.fp.Sound) :
    (k.body args s).1.fp.Sound := by
  by_cases hspecial : k.isSpecial = false
  · exact (k.body_tells hspecial args s).grows.sound h
  · cases k <;> try exact absurd rfl hspecial
    case loadSegment => exact segmentBody_sound args h
    case clearCounters =>
      exact ⟨FramePath.ports ((h.port .a).counters _) ((h.port .b).counters _), h.heldRoom, h.heldOnce, h.hold⟩
    case captureControl =>
      dsimp only [CommandKind.body]
      unfold captureControlBody refuse
      split
      · exact h
      · exact h
    case resetFull => exact h.keep.releaseHeld
    case resetLoad => exact loadReset_sound h

theorem reset_fp_sound : State.reset.fp.Sound :=
  ⟨fun p => by cases p <;> exact ⟨fun cls => by cases cls <;> exact Nat.zero_le _, fun _ cls => by cases cls <;> rfl, fun _ => rfl⟩,
    Nat.zero_le _, List.nodup_nil, rfl⟩

theorem effect_sound (c : Instr) {s : State} (h : s.fp.Sound) : (effect c s).fp.Sound := by
  cases hc : kindOf c with
  | some k =>
    obtain rfl := eq_row_of_kindOf hc
    exact effect_row_keeps (P := fun t => t.fp.Sound) k h (fun args => k.body_sound args h) fun c r t ht =>
      (finish_tells (l := [.reply]) c r (by decide) (.refl t)).grows.sound ht
  | none =>
    by_cases hframe : isFrameEvent c = false
    · obtain ⟨rest, htells⟩ := effect_event_tells hc hframe s
      exact htells.grows.sound (h.of_eq rfl rfl rfl rfl rfl)
    · cases c <;> try exact absurd rfl hframe
      case powerOn straps =>
        exact reset_fp_sound.of_eq rfl rfl rfl rfl rfl
      case frameReceived p whole frame =>
        rw [effect_frameReceived]
        split
        · exact receiveFrame_sound p whole frame h
        · exact h
      case holdExpiry =>
        rw [effect_holdExpiry]
        split
        · exact clearHold_sound h
        · exact h
      case egressStart p => exact h.setPort p (h.port p).start
      case transmitComplete p => exact h.setPort p (h.port p).complete
      case linkDown p arriving => exact linkLost_sound p arriving h
      case linkUp p => exact h.setPort p (h.port p).linkUp
      case intakeDeparture => exact departIntake_sound h

end Sys2Proof.Machine
end

section
/-!
PROOFS, what a row may do to the Management Agent (`Mgmt.Changes`), and from it the invariants of the FIFO, the Line Setup record
and the load.
-/

namespace Sys2Proof.Machine

/-! ### What a row may do to the Agent -/

/-- The Line Setup record, the load, what is staged and the two timers stand, and the FIFO keeps its capacity. -/
structure Mgmt.Same (m n : Mgmt) : Prop where
  setup : n.setup = m.setup
  statusTimer : n.statusTimer = m.statusTimer
  load : n.load = m.load
  staging : n.staging = m.staging
  loadTimer : n.loadTimer = m.loadTimer
  fifo : m.fifo.length ≤ 8 → n.fifo.length ≤ 8

theorem Mgmt.Same.refl (m : Mgmt) : m.Same m :=
  ⟨rfl, rfl, rfl, rfl, rfl, id⟩

theorem Mgmt.Same.of_eq {m n : Mgmt} (h : n = m) : m.Same n :=
  h ▸ .refl m

theorem Mgmt.Same.trans {a b c : Mgmt} (h : a.Same b) (k : b.Same c) : a.Same c :=
  ⟨k.setup.trans h.setup, k.statusTimer.trans h.statusTimer, k.load.trans h.load, k.staging.trans h.staging,
    k.loadTimer.trans h.loadTimer, fun hfifo => k.fifo (h.fifo hfifo)⟩

/-- The Agent with no load in progress. -/
def Mgmt.unloaded (m : Mgmt) : Mgmt :=
  { m with load := none, staging := [], loadTimer := none }

/-- The status interval timer after a commit: started or stopped with a changed interval (R192). -/
def Mgmt.committed (m : Mgmt) (u : LineSetup) : Mgmt :=
  { m with
    setup := u
    statusTimer := if u.statusInterval = 0 ∧ m.setup.statusInterval ≠ 0 then none
      else if m.setup.statusInterval = 0 ∧ u.statusInterval ≠ 0 then some u.statusInterval else m.statusTimer }

/-- What the effect of one row may make of the Management Agent. -/
inductive Mgmt.Changes (m : Mgmt) : Mgmt → Prop
  | same {n} (h : m.Same n) : m.Changes n
  | unloaded {n} (h : m.unloaded.Same n) : m.Changes n
  | begun {n} (d : LoadDesc) (hd : d.staged []) (h : { m with load := some d, staging := [], loadTimer := some Config.loadTime }.Same n) :
      m.Changes n
  | staged {n} (d : LoadDesc) (entries : List (List Byte)) (hload : m.load = some d) (hlength : entries.length = 8)
      (hmore : d.expected + 1 < d.segments)
      (h : { m with staging := m.staging ++ entries, load := some { d with expected := d.expected + 1 }, loadTimer := some Config.loadTime }.Same n) :
      m.Changes n
  | committed {n} (u : LineSetup) (hrange : u.inRange = true) (hrelated : u.related = true) (hfits : u.fits)
      (h : (m.committed u).unloaded.Same n) : m.Changes n
  | upload {n} (on : Bool) (h : { m with setup := { m.setup with upload := on } }.Same n) : m.Changes n
  | statusTimer {n}
      (h : { m with statusTimer := if m.setup.statusInterval = 0 then none else some m.setup.statusInterval }.Same n) :
      m.Changes n
  | reset {n} (h : State.reset.ma.Same n) : m.Changes n

theorem Mgmt.Changes.andSame {m n k : Mgmt} (h : m.Changes n) (hk : n.Same k) : m.Changes k := by
  cases h with
  | same h => exact .same (h.trans hk)
  | unloaded h => exact .unloaded (h.trans hk)
  | begun d hd h => exact .begun d hd (h.trans hk)
  | staged d entries hload hlength hmore h => exact .staged d entries hload hlength hmore (h.trans hk)
  | committed u hrange hrelated hfits h => exact .committed u hrange hrelated hfits (h.trans hk)
  | upload on h => exact .upload on (h.trans hk)
  | statusTimer h => exact .statusTimer (h.trans hk)
  | reset h => exact .reset (h.trans hk)

/-! ### The operations of the Agent -/

@[simp] theorem report_ma (s t : State) : (report s t).ma = t.ma :=
  (report_only s t) .ma (by decide)

@[simp] theorem buildStatus_ma (s : State) : (buildStatus s).ma = s.ma :=
  (buildStatus_only s) .ma (by decide)

theorem joinIntake_ma (c : Copy) (s : State) : s.ma.Same (joinIntake c s).ma := by
  unfold joinIntake
  split
  · next hroom =>
    refine ⟨rfl, rfl, rfl, rfl, rfl, fun _ => ?_⟩
    rw [List.length_append, List.length_singleton]
    exact hroom
  · rw [report_ma]
    exact ⟨rfl, rfl, rfl, rfl, rfl, id⟩

theorem offerIntake_ma (c : Copy) (s : State) : s.ma.Same (offerIntake c s).ma :=
  (joinIntake_ma c s).trans (.of_eq ((holdArrival_only c _) .ma (by decide)))

theorem matchedFrame_ma (e : ChannelEntry) (c : Copy) (frame : Frame) (s : State) : (matchedFrame e c frame s).ma = s.ma := by
  unfold matchedFrame
  dsimp only
  repeat' split
  · exact (forwardUnless_only _ _ _ _) .ma (by decide)
  · exact (rewriteDose_only _ _ _) .ma (by decide)
  · exact (forwardUnless_only _ _ _ _) .ma (by decide)

theorem receiveFrame_ma (p : Port) (whole : Bool) (frame : Frame) (s : State) :
    s.ma.Same (receiveFrame p whole frame s).ma := by
  have hforward (q : Port) (t : State) : t.ma.Same (forwardFrame q frame t).ma := .refl _
  have hclassify (c : Copy) (t : State) : t.ma.Same (classifyFrame c frame t).ma := by
    unfold classifyFrame
    repeat' split
    · exact hforward _ t
    · unfold stationFrame
      split
      · exact hforward _ t
      · exact .of_eq (matchedFrame_ma _ c frame t)
    · unfold mgmtFrame
      repeat' split
      · exact offerIntake_ma c t
      · exact offerIntake_ma c t
      · exact hforward _ t
    · unfold flowFrame
      split
      · exact .of_eq ((takeFlow_only c t) .ma (by decide))
      · exact hforward _ t
    · exact hforward _ t
  unfold receiveFrame
  dsimp only
  repeat' split
  · exact .refl _
  · exact .refl _
  · unfold acceptFrame
    split
    · exact .refl _
    · exact hclassify _ (s.withFp (s.fp.countPort p .addReceived))

theorem finish_ma (c : Copy) (r : Reply) (s : State) : s.ma.Same (finish c r s).ma :=
  ⟨rfl, rfl, rfl, rfl, rfl, id⟩

theorem departIntake_ma (s : State) : s.ma.Same (departIntake s).ma := by
  unfold departIntake
  repeat' split
  · exact .refl _
  · exact .refl _
  · next c rest hfifo =>
    have hbegun : s.ma.Same (releaseOnDeparture (s.withMa { s.ma with fifo := rest, executing := some c })).ma := by
      have hreleased : (releaseOnDeparture (s.withMa { s.ma with fifo := rest, executing := some c })).ma =
          { s.ma with fifo := rest, executing := some c } := by
        unfold releaseOnDeparture
        split <;> rfl
      rw [hreleased]
      refine ⟨rfl, rfl, rfl, rfl, rfl, fun hroom => ?_⟩
      rw [hfifo, List.length_cons] at hroom
      exact Nat.le_of_succ_le hroom
    generalize releaseOnDeparture _ = t at hbegun ⊢
    refine hbegun.trans ?_
    unfold beginCommand discardCommand
    split
    · exact ⟨rfl, rfl, rfl, rfl, rfl, id⟩
    · exact finish_ma c _ t
    · exact finish_ma c _ t
    · exact finish_ma c _ t
    · exact .refl _

@[simp] theorem endLoad_ma (s : State) : (endLoad s).ma = s.ma.unloaded := by
  rw [endLoad, report_ma]
  rfl

theorem failLoad_ma (s : State) : s.ma.unloaded.Same (failLoad s).ma := by
  rw [failLoad, endLoad_ma]
  exact ⟨rfl, rfl, rfl, rfl, rfl, id⟩

theorem loadExpiry_ma (s : State) : s.ma.unloaded.Same (loadExpiry s).ma := by
  rw [loadExpiry, endLoad_ma]
  exact ⟨rfl, rfl, rfl, rfl, rfl, id⟩

theorem abortLoad_ma (s : State) : s.ma.Changes (abortLoad s).ma := by
  unfold abortLoad
  split
  · rw [endLoad_ma]
    exact .unloaded (.refl _)
  · exact .same (.refl _)

theorem beginLoad_ma (args : List Byte) (s : State) : s.ma.Changes (beginLoad args s).1.ma := by
  unfold beginLoad refuse
  dsimp only
  repeat' split
  · exact .same (.refl _)
  · exact .same (.refl _)
  · exact .same (.refl _)
  · next table _ hcount hsegments =>
    dsimp only
    rw [report_ma]
    refine .begun _ ?_ (.refl _)
    simp only [not_or, not_lt, ne_eq, not_not] at hcount hsegments
    obtain ⟨hpositive, hsize⟩ := hcount
    refine ⟨Nat.one_le_iff_ne_zero.mpr hpositive, hsize, hsegments, ?_, rfl⟩
    dsimp only
    omega

theorem stageSegment_ma {s : State} {d : LoadDesc} {entries : List (List Byte)} (hload : s.ma.load = some d)
    (hlength : entries.length = 8) (hmore : d.expected + 1 < d.segments) :
    s.ma.Changes (stageSegment d entries s).ma :=
  .staged d entries hload hlength hmore (.refl _)

theorem deliverSetup_ma (s : State) (u : LineSetup) :
    (deliverSetup s.ma.setup (s.withSetup u)).ma = s.ma.committed u := by
  have hinterval (t : State) (ht : t.ma = { s.ma with setup := u }) :
      (commitInterval s.ma.setup t).ma = s.ma.committed u := by
    unfold commitInterval
    dsimp only
    rw [ht]
    unfold Mgmt.committed
    dsimp only
    split
    · rfl
    · split
      · rfl
      · exact ht
  unfold deliverSetup
  refine hinterval _ ?_
  rw [(commitThreshold_only _ _) .ma (by decide), (commitCollector_only _ _) .ma (by decide),
    (commitTrimHold_only _ _) .ma (by decide), (applyValveCount_only _ _) .ma (by decide),
    (commitGrid_only _ _) .ma (by decide)]
  rfl

theorem setupOf_accepted {b : List Byte} {u : LineSetup} (h : setupOf b = some u) : u.inRange = true ∧ u.related = true := by
  unfold setupOf at h
  split at h
  · cases h
  · next c _ =>
    split at h
    · next haccepted =>
      obtain rfl := Option.some.inj h
      exact Bool.and_eq_true .. ▸ haccepted
    · cases h

theorem readBytes_lt (b : List Byte) : readBytes b < 256 ^ b.length := by
  induction b using List.reverseRecOn with
  | nil => simp [readBytes]
  | append_singleton l x ih =>
    simp only [readBytes, List.foldl_append, List.foldl_cons, List.foldl_nil, List.length_append, List.length_singleton,
      pow_succ] at ih ⊢
    have hx : x.toNat < 256 := x.isLt
    omega

theorem fieldAt_lt (b : List Byte) (i n : Nat) : fieldAt b i n < 256 ^ n := by
  refine lt_of_lt_of_le (readBytes_lt _) (Nat.pow_le_pow_right (by decide) ?_)
  simp [bytesAt]

theorem setupOf_fits {b : List Byte} {u : LineSetup} (h : setupOf b = some u) : u.fits := by
  unfold setupOf at h
  split at h
  · cases h
  · split at h
    · obtain rfl := Option.some.inj h
      exact ⟨Nat.le_of_lt_succ (fieldAt_lt ..), Nat.le_of_lt_succ (fieldAt_lt ..), Nat.le_of_lt_succ (fieldAt_lt ..),
        Nat.le_of_lt_succ (fieldAt_lt ..), Nat.le_of_lt_succ (fieldAt_lt ..), Nat.le_of_lt_succ (fieldAt_lt ..),
        Nat.le_of_lt_succ (fieldAt_lt ..), Nat.le_of_lt_succ (fieldAt_lt ..), Nat.le_of_lt_succ (fieldAt_lt ..)⟩
    · cases h

/-- The owner of a table commits: the Agent is left, or takes a Line Setup record that R190 accepts. -/
theorem commitTable_ma (table : TableId) (first : Nat) (entries : List (List Byte)) (s : State) :
    (commitTable table first entries s).1.ma = s.ma ∨
      ∃ u, u.inRange = true ∧ u.related = true ∧ u.fits ∧ (commitTable table first entries s).1.ma = s.ma.committed u := by
  unfold commitTable
  cases table <;> dsimp only
  case channel => exact .inl ((commitChannel_only first entries s) .ma (by decide))
  case lineSetup =>
    unfold commitLineSetup refuseAt
    split
    · exact .inl rfl
    · next u hu =>
      obtain ⟨hrange, hrelated⟩ := setupOf_accepted hu
      exact .inr ⟨u, hrange, hrelated, setupOf_fits hu, deliverSetup_ma s u⟩
  case calibration => exact .inl ((commitCalibration_only entries s) .ma (by decide))
  case product => exact .inl ((commitProduct_only first entries s) .ma (by decide))
  case valve => exact .inl ((commitValve_only first entries s) .ma (by decide))
  case policy => exact .inl ((commitPolicy_only first entries s) .ma (by decide))

theorem lastSegment_ma (d : LoadDesc) (entries : List (List Byte)) (s : State) :
    s.ma.Changes (lastSegment d entries s).1.ma := by
  unfold lastSegment
  dsimp only
  rw [endLoad_ma]
  obtain h | ⟨u, hrange, hrelated, hfits, h⟩ := commitTable_ma d.table d.first (s.ma.staging ++ entries) s
  · rw [h]
    exact .unloaded (.refl _)
  · rw [h]
    exact .committed u hrange hrelated hfits (.refl _)

theorem segmentBody_ma (args : List Byte) (s : State) : s.ma.Changes (segmentBody args s).1.ma := by
  unfold segmentBody takeSegment refuse
  repeat' split
  · exact .same (.refl _)
  · exact .unloaded (failLoad_ma s)
  · exact .unloaded (failLoad_ma s)
  · next hload hexpected _ hmore =>
    simp only [not_or, ne_eq, not_not] at hexpected
    obtain ⟨_, hcount⟩ := hexpected
    refine stageSegment_ma hload ?_ hmore
    rw [cutEntries_eq_map_range, List.length_map, List.length_range, hcount, LoadDesc.segmentEntries, if_pos hmore]
  · exact lastSegment_ma ..

theorem clearAlarms_ma (s : State) : s.ma.Same (clearAlarms s).ma := by
  have hraised : (raiseForFault (clearUnexpected (clearLineStop s))).ma = s.ma := by
    rw [(raiseForFault_only _) .ma (by decide), clearUnexpected, report_ma]
    dsimp only
    rw [clearLineStop, report_ma]
  unfold clearAlarms clearOverrun
  generalize raiseForFault _ = t at hraised ⊢
  rw [(setZeroDone_only _ _) .ma (by decide), report_ma, State.withMa_ma, ← hraised]
  exact ⟨rfl, rfl, rfl, rfl, rfl, id⟩

theorem loadReset_ma (s : State) : s.ma.Changes (loadReset s).ma :=
  (abortLoad_ma s).andSame ⟨rfl, rfl, rfl, rfl, rfl, fun _ => Nat.zero_le _⟩

/-! ### Every row -/

theorem CommandKind.body_ma (k : CommandKind) (args : List Byte) (s : State) : s.ma.Changes (k.body args s).1.ma := by
  by_cases hma : Block.ma ∈ k.touches
  · cases k <;> try exact absurd hma (by decide)
    case loadBegin => exact beginLoad_ma args s
    case loadSegment => exact segmentBody_ma args s
    case loadAbort => exact abortLoad_ma s
    case clearCounters => exact .same ⟨rfl, rfl, rfl, rfl, rfl, id⟩
    case clearAlarms => exact .same (clearAlarms_ma s)
    case captureControl =>
      dsimp only [CommandKind.body]
      unfold captureControlBody refuse
      split
      · exact .same (.refl _)
      · next on _ => exact .upload on (.refl _)
    case resetFull => exact .reset ⟨rfl, rfl, rfl, rfl, rfl, id⟩
    case resetLoad => exact loadReset_ma s
  · exact .same (.of_eq ((k.body_only args s) .ma hma))

theorem effect_ma (c : Instr) (s : State) : s.ma.Changes (effect c s).ma := by
  cases hc : kindOf c with
  | some k =>
    obtain rfl := eq_row_of_kindOf hc
    exact effect_row_keeps (P := fun t => s.ma.Changes t.ma) k (.same (.refl _)) (fun args => k.body_ma args s)
      fun c r t ht => ht.andSame (finish_ma c r t)
  | none =>
    by_cases hma : Block.ma ∈ eventTouches c
    · have hsame {t : State} (h : s.ma.Changes t.ma) {p : Prop} [Decidable p] : s.ma.Changes (if p then t else s).ma := by
        split
        · exact h
        · exact .same (.refl _)
      cases c <;> try exact absurd hma (by decide)
      case egressStart | transmitComplete | linkDown | linkUp | captureArm | valveFault =>
        exact absurd hma (by simp [eventTouches])
      case powerOn => exact .reset ⟨rfl, rfl, rfl, rfl, rfl, id⟩
      case frameReceived p whole frame => exact hsame (.same (receiveFrame_ma p whole frame s))
      case intakeDeparture => exact .same (departIntake_ma s)
      case loadInactivityExpiry => exact hsame (.unloaded (loadExpiry_ma s))
      case statusIntervalExpiry =>
        refine hsame (.statusTimer (.of_eq ?_))
        unfold statusExpiry restartStatus
        rw [State.withMa_ma, buildStatus_ma]
    · exact .same (.of_eq ((effect_event_only hc s) .ma hma))

/-! ### The invariants -/

theorem Mgmt.Changes.fifo {m n : Mgmt} (h : m.Changes n) (hm : m.fifo.length ≤ 8) : n.fifo.length ≤ 8 := by
  cases h with
  | same h | unloaded h | begun _ _ h | staged _ _ _ _ _ h | committed _ _ _ _ h | upload _ h | statusTimer h => exact h.fifo hm
  | reset h => exact h.fifo (Nat.zero_le _)

/-- `setupInv`, of the Agent alone. -/
def Mgmt.SetupOk (m : Mgmt) : Prop :=
  m.setup.inRange = true ∧ m.setup.related = true ∧ (m.statusTimer.isSome = true ↔ m.setup.statusInterval ≠ 0)

theorem Mgmt.Same.setupOk {m n : Mgmt} (h : m.Same n) (hm : m.SetupOk) : n.SetupOk := by
  unfold Mgmt.SetupOk
  rw [h.setup, h.statusTimer]
  exact hm

theorem Mgmt.SetupOk.committed {m : Mgmt} (h : m.SetupOk) {u : LineSetup} (hrange : u.inRange = true)
    (hrelated : u.related = true) : (m.committed u).SetupOk := by
  obtain ⟨_, _, htimer⟩ := h
  refine ⟨hrange, hrelated, ?_⟩
  unfold Mgmt.committed
  dsimp only
  split
  · next hstopped => simp [hstopped.1]
  · split
    · next hstarted => simp [hstarted.2]
    · rw [htimer]
      omega

theorem Mgmt.Changes.setupOk {m n : Mgmt} (h : m.Changes n) (hm : m.SetupOk) : n.SetupOk := by
  cases h with
  | same h | unloaded h | begun _ _ h | staged _ _ _ _ _ h => exact h.setupOk hm
  | committed u hrange hrelated _ h => exact h.setupOk (hm.committed hrange hrelated)
  | upload on h => exact h.setupOk hm
  | statusTimer h =>
    obtain ⟨hrange, hrelated, _⟩ := hm
    refine h.setupOk ⟨hrange, hrelated, ?_⟩
    dsimp only
    split <;> simp [*]
  | reset h => exact h.setupOk ⟨by decide, by decide, by decide⟩

/-- The fields of the Line Setup record go on fitting the bytes of its entry. -/
theorem Mgmt.Changes.fits {m n : Mgmt} (h : m.Changes n) (hm : m.setup.fits) : n.setup.fits := by
  have hsame {k : Mgmt} (hk : k.Same n) (hfits : k.setup.fits) : n.setup.fits := by
    rw [hk.setup]
    exact hfits
  cases h with
  | same h | unloaded h | begun _ _ h | staged _ _ _ _ _ h | statusTimer h => exact hsame h hm
  | committed u _ _ hfits h => exact hsame h hfits
  | upload on h => exact hsame h hm
  | reset h => exact hsame h ⟨by decide, by decide, by decide, by decide, by decide, by decide, by decide, by decide, by decide⟩

/-- `loadInv`, of the Agent alone. -/
def Mgmt.LoadOk (m : Mgmt) : Prop :=
  m.loadTimer.isSome = m.load.isSome ∧ (m.load = none → m.staging = []) ∧ ∀ d, m.load = some d → d.staged m.staging

theorem loadInv_iff (s : State) : s.loadInv ↔ s.ma.LoadOk := by
  unfold State.loadInv Mgmt.LoadOk
  cases s.ma.load <;> simp

theorem Mgmt.Same.loadOk {m n : Mgmt} (h : m.Same n) (hm : m.LoadOk) : n.LoadOk := by
  unfold Mgmt.LoadOk
  rw [h.load, h.staging, h.loadTimer]
  exact hm

theorem Mgmt.unloaded_loadOk (m : Mgmt) : m.unloaded.LoadOk :=
  ⟨rfl, fun _ => rfl, fun _ h => nomatch h⟩

theorem LoadDesc.staged.next {d : LoadDesc} {staging entries : List (List Byte)} (h : d.staged staging)
    (hlength : entries.length = 8) (hmore : d.expected + 1 < d.segments) :
    LoadDesc.staged { d with expected := d.expected + 1 } (staging ++ entries) := by
  obtain ⟨hcount, hsize, hsegments, _, hstaged⟩ := h
  refine ⟨hcount, hsize, hsegments, hmore, ?_⟩
  rw [List.length_append, hstaged, hlength]
  dsimp only
  omega

theorem Mgmt.Changes.loadOk {m n : Mgmt} (h : m.Changes n) (hm : m.LoadOk) : n.LoadOk := by
  cases h with
  | same h => exact h.loadOk hm
  | unloaded h => exact h.loadOk m.unloaded_loadOk
  | begun d hd h => exact h.loadOk ⟨rfl, fun h => (nomatch h), fun e he => Option.some.inj he ▸ hd⟩
  | staged d entries hload hlength hmore h =>
    obtain ⟨_, _, hstaged⟩ := hm
    refine h.loadOk ⟨rfl, fun h => (nomatch h), fun e he => ?_⟩
    obtain rfl := Option.some.inj he
    exact (hstaged d hload).next hlength hmore
  | committed u _ _ _ h => exact h.loadOk (Mgmt.unloaded_loadOk _)
  | upload on h => exact h.loadOk hm
  | statusTimer h => exact h.loadOk hm
  | reset h => exact h.loadOk ⟨rfl, fun _ => rfl, fun _ h => nomatch h⟩

theorem frameInv_keptByTimers : KeptByTimers State.frameInv where
  pending _ _ h := h
  pos _ _ _ _ h := h
  fe _ _ _ _ h := h
  hold t n hn _ h := by
    rw [frameInv_iff] at h ⊢
    obtain ⟨⟨hport, hroom, honce, hhold⟩, hfifo⟩ := h
    refine ⟨⟨FramePath.ports (hport .a) (hport .b), hroom, honce, ?_⟩, hfifo⟩
    rw [hn] at hhold
    exact hhold
  load _ _ _ _ h := h
  status _ _ _ _ h := h

theorem setupInv_keptByTimers : KeptByTimers State.setupInv where
  pending _ _ h := h
  pos _ _ _ _ h := h
  fe _ _ _ _ h := h
  hold _ _ _ _ h := h
  load _ _ _ _ h := h
  status t n hn _ h := by
    obtain ⟨hrange, hrelated, htimer⟩ := h
    rw [hn] at htimer
    exact ⟨hrange, hrelated, htimer⟩

theorem loadInv_keptByTimers : KeptByTimers State.loadInv where
  pending _ _ h := h
  pos _ _ _ _ h := h
  fe _ _ _ _ h := h
  hold _ _ _ _ h := h
  load t n hn _ h := by
    rw [loadInv_iff] at h ⊢
    obtain ⟨htimer, hidle, hstaged⟩ := h
    rw [hn] at htimer
    exact ⟨htimer, hidle, hstaged⟩
  status _ _ _ _ h := h

/-- Settles O14: a step is a row or a millisecond; the ports stay sound under every operation of the Frame Path, and a row does to
the Agent no more than `Mgmt.Changes` lists. -/
theorem frameAndAgentInvKept : Obligations.FrameAndAgentInvKept := by
  unfold Obligations.FrameAndAgentInvKept
  refine ⟨fun s t hs hstep => ?_, fun s t hs hstep => ?_, fun s t hs hstep => ?_⟩
  · refine frameInv_keptByTimers.step (fun c u hu => ?_) hs hstep
    rw [frameInv_iff] at hu ⊢
    exact ⟨effect_sound c hu.1, (effect_ma c u).fifo hu.2⟩
  · exact setupInv_keptByTimers.step (fun c u hu => (effect_ma c u).setupOk hu) hs hstep
  · refine loadInv_keptByTimers.step (fun c u hu => ?_) hs hstep
    rw [loadInv_iff] at hu ⊢
    exact (effect_ma c u).loadOk hu

end Sys2Proof.Machine
end

section
/-!
PROOFS, the reactions of the other blocks: the Tracking Queue, the Reader Matcher, the Position Unit and the Reject Unit act on
the ring, on Trim Hold and on the Tracking State by four operations alone (`Reacts`): they write the ring, note an outcome,
freeze the ring and set the Tracking State. An invariant of ring, trims and flags that these four keep is kept by all of them.
-/

namespace Sys2Proof.Machine

/-- What the ring, the valves and the flags depend on is the same. -/
structure State.SameGround (s t : State) : Prop where
  te : t.te = s.te
  rc : t.rc = s.rc
  pu : t.pu = s.pu
  tracking : t.rm.tracking = s.rm.tracking
  setup : t.ma.setup = s.ma.setup

/-- `t` follows `s` by changes outside the ground of ring, valves and flags, and by the four operations that react on it. -/
inductive Reacts : State → State → Prop
  | refl (s : State) : Reacts s s
  | other {s t u : State} (h : Reacts s t) (hsame : t.SameGround u) : Reacts s u
  | write {s t : State} (h : Reacts s t) (e : RingEntry) : Reacts s (writeRing e t)
  | outcome {s t : State} (h : Reacts s t) (b : Bool) : Reacts s (noteOutcome b t)
  | freeze {s t : State} (h : Reacts s t) (cause : FreezeCause) : Reacts s (freezeRing cause t)
  | track {s t : State} (h : Reacts s t) (st : TrackingState) : Reacts s (setTracking st t)

theorem State.SameGround.of_only {l : List Block} {s t : State} (h : OnlyChanges l s t)
    (hl : ∀ b ∈ l, b ≠ .te ∧ b ≠ .rc ∧ b ≠ .pu ∧ b ≠ .rm ∧ b ≠ .ma) : s.SameGround t := by
  have hte : State.agrees .te s t := h .te fun hb => (hl _ hb).1 rfl
  have hrc : State.agrees .rc s t := h .rc fun hb => (hl _ hb).2.1 rfl
  have hpu : State.agrees .pu s t := h .pu fun hb => (hl _ hb).2.2.1 rfl
  have hrm : State.agrees .rm s t := h .rm fun hb => (hl _ hb).2.2.2.1 rfl
  have hma : State.agrees .ma s t := h .ma fun hb => (hl _ hb).2.2.2.2 rfl
  exact ⟨hte, hrc, hpu, congrArg Reader.tracking hrm, congrArg Mgmt.setup hma⟩

section Operations

variable {s t : State}

theorem Reacts.only {l : List Block} {u : State} (h : Reacts s t) (k : OnlyChanges l t u)
    (hl : ∀ b ∈ l, b ≠ .te ∧ b ≠ .rc ∧ b ≠ .pu ∧ b ≠ .rm ∧ b ≠ .ma) : Reacts s u :=
  h.other (.of_only k hl)

theorem Reacts.tq (h : Reacts s t) {x : Tracking} : Reacts s { t with tq := x } :=
  h.other ⟨rfl, rfl, rfl, rfl, rfl⟩

theorem Reacts.pos (h : Reacts s t) {x : Position} : Reacts s { t with pos := x } :=
  h.other ⟨rfl, rfl, rfl, rfl, rfl⟩

theorem Reacts.fp (h : Reacts s t) {x : FramePath} : Reacts s { t with fp := x } :=
  h.other ⟨rfl, rfl, rfl, rfl, rfl⟩

theorem Reacts.rm (h : Reacts s t) {x : Reader} (hx : x.tracking = t.rm.tracking) : Reacts s { t with rm := x } :=
  h.other ⟨rfl, rfl, rfl, hx, rfl⟩

/-! ### The ring and the Tracking State -/

theorem handRemoved_reacts (fate : Fate) (x : Word32) (records : List CanRecord) (h : Reacts s t) :
    Reacts s (handRemoved fate x records t) := by
  unfold handRemoved
  induction records generalizing t with
  | nil => exact h
  | cons r rest ih => exact ih (h.write _)

theorem handMissing_reacts (x : Word32) (records : List CanRecord) (h : Reacts s t) :
    Reacts s (handMissing x records t) :=
  handRemoved_reacts _ _ _ h.tq

theorem breakTracking_reacts (h : Reacts s t) : Reacts s (breakTracking t) := by
  have hrun : Reacts s { t with rm := { t.rm with cleanRun := 0 } } := h.rm rfl
  unfold breakTracking
  dsimp only
  split
  · exact hrun.track _
  · exact hrun

theorem loseQueue_reacts (h : Reacts s t) : Reacts s (loseQueue t) := by
  have hruns : Reacts s { t with rm := { t.rm with cleanRun := 0, unreadRun := 0 } } := h.rm rfl
  exact hruns.track _

theorem withRisen_reacts (r : Option Run) (h : Reacts s t) : Reacts s (t.withRisen r) :=
  h.rm rfl

theorem becomeSynced_reacts (h : Reacts s t) : Reacts s (becomeSynced t) := by
  unfold becomeSynced
  dsimp only
  split
  · split
    · exact (withRisen_reacts none h).track _
    · exact withRisen_reacts none h
  · exact h

theorem becomeLost_reacts (h : Reacts s t) : Reacts s (becomeLost t) := by
  unfold becomeLost
  dsimp only
  split
  · split
    · exact (withRisen_reacts none h).track _
    · exact withRisen_reacts none h
  · exact h

/-! ### The Tracking Queue -/

theorem withQueue_reacts (q : List CanRecord) (h : Reacts s t) : Reacts s (t.withQueue q) :=
  h.tq

theorem withTrackingCounters_reacts (x : TrackingCounters) (h : Reacts s t) : Reacts s (t.withTrackingCounters x) :=
  h.tq

theorem flushRecords_reacts (h : Reacts s t) : Reacts s (flushRecords t) :=
  handRemoved_reacts _ _ _ (withTrackingCounters_reacts _ (withQueue_reacts _ h))

theorem makeRoom_reacts (h : Reacts s t) : Reacts s (makeRoom t) := by
  unfold makeRoom
  split
  · exact h
  · exact loseQueue_reacts (withTrackingCounters_reacts _ (flushRecords_reacts h))

theorem createRecord_reacts (k : Fin 16) (seed : RecordSeed) (h : Reacts s t) : Reacts s (createRecord k seed t) :=
  (makeRoom_reacts h).tq

theorem createPlaceholders_reacts (k : Fin 16) (m : Nat) (h : Reacts s t) : Reacts s (createPlaceholders k m t) := by
  induction m generalizing t with
  | zero => exact h
  | succ n ih => exact ih (withTrackingCounters_reacts _ (createRecord_reacts k _ h))

theorem dischargeGap_reacts (seq : Byte) (h : Reacts s t) : Reacts s (dischargeGap seq t) := by
  unfold dischargeGap
  dsimp only
  repeat' split
  · exact h
  · exact h
  · exact h
  · exact createPlaceholders_reacts _ _ h
  · exact breakTracking_reacts h

theorem orphanSeams_reacts (n : Nat) (h : Reacts s t) : Reacts s (orphanSeams n t) :=
  breakTracking_reacts (withTrackingCounters_reacts _ h)

theorem seamGap_reacts (seq : Byte) (h : Reacts s t) : Reacts s (seamGap seq t) := by
  unfold seamGap
  dsimp only
  repeat' split
  · exact h
  · exact h
  · exact withQueue_reacts _ h
  · exact orphanSeams_reacts _ (withQueue_reacts _ h)
  · exact breakTracking_reacts h

theorem takeSeam_reacts (c : Copy) (h : Reacts s t) : Reacts s (takeSeam c t) := by
  have hgap : Reacts s { seamGap c.sequence t with
      tq := { (seamGap c.sequence t).tq with seamExp := some (c.sequence + 1) } } :=
    (seamGap_reacts c.sequence h).tq
  unfold takeSeam seamOwn
  dsimp only
  split
  · exact orphanSeams_reacts _ hgap
  · exact withQueue_reacts _ (hgap.only (issueTag_only _ _) (by decide))

theorem removeAged_reacts (h : Reacts s t) : Reacts s (removeAged t) := by
  unfold removeAged
  split
  · exact h
  · exact handMissing_reacts _ _ h.tq

theorem pitchTick_reacts (b : Word32) (h : Reacts s t) : Reacts s (pitchTick b t) :=
  removeAged_reacts h.tq

/-! ### The Reader Matcher -/

theorem withReaderCounters_reacts (x : ReaderCounters) (h : Reacts s t) : Reacts s (t.withReaderCounters x) :=
  h.rm rfl

theorem withRuns_reacts (m n : Nat) (h : Reacts s t) : Reacts s (t.withRuns m n) :=
  h.rm rfl

theorem markFirst_reacts (lot : List Byte) (h : Reacts s t) : Reacts s (markFirst lot t) := by
  unfold markFirst
  dsimp only
  split
  · exact withQueue_reacts _ h
  · exact withReaderCounters_reacts _ (withQueue_reacts _ h)

theorem orphanRead_reacts (rd : CodeRead) (h : Reacts s t) : Reacts s (orphanRead rd t) := by
  unfold orphanRead
  dsimp only
  split
  · exact withRuns_reacts _ _ (withReaderCounters_reacts _ h)
  · exact withReaderCounters_reacts _ h
  · exact withReaderCounters_reacts _ h

theorem unreadMark_reacts (h : Reacts s t) : Reacts s (unreadMark t) :=
  becomeLost_reacts (withRisen_reacts _ (withRuns_reacts _ _ (withReaderCounters_reacts _ (withQueue_reacts _ h))))

theorem exactMatch_reacts (lot : List Byte) (h : Reacts s t) : Reacts s (exactMatch lot t) :=
  becomeSynced_reacts (withRisen_reacts _ (withRuns_reacts _ _ (withReaderCounters_reacts _ (markFirst_reacts lot h))))

theorem lookaheadMatch_reacts (k : Nat) (lot : List Byte) (h : Reacts s t) : Reacts s (lookaheadMatch k lot t) :=
  withRuns_reacts _ _ (withReaderCounters_reacts _ (markFirst_reacts lot (handMissing_reacts _ _ (withQueue_reacts _ h))))

theorem matchRead_reacts (rd : CodeRead) (h : Reacts s t) : Reacts s (matchRead rd t) := by
  unfold matchRead
  repeat' split
  · exact orphanRead_reacts rd h
  · exact unreadMark_reacts h
  · exact unreadMark_reacts h
  · exact exactMatch_reacts _ h
  · exact lookaheadMatch_reacts _ _ h
  · exact withReaderCounters_reacts _ h
  · exact unreadMark_reacts h

theorem matchLost_reacts (m : Nat) (h : Reacts s t) : Reacts s (matchLost m t) := by
  induction m generalizing t with
  | zero => exact h
  | succ n ih => exact ih (matchRead_reacts _ h)

theorem readGap_reacts (seq : Byte) (h : Reacts s t) : Reacts s (readGap seq t) := by
  unfold readGap
  dsimp only
  repeat' split
  · exact h
  · exact h
  · exact withReaderCounters_reacts _ (matchLost_reacts _ h)
  · exact breakTracking_reacts (withReaderCounters_reacts _ h)

theorem takeRead_reacts (c : Copy) (h : Reacts s t) : Reacts s (takeRead c t) := by
  have hgap := readGap_reacts c.sequence h
  unfold takeRead
  generalize readGap c.sequence t = u at hgap ⊢
  refine matchRead_reacts _ ?_
  exact hgap.rm rfl

/-! ### The Reject Unit and the Position Unit -/

theorem raiseLineStop_reacts (h : Reacts s t) : Reacts s (raiseLineStop t) :=
  h.only (raiseLineStop_only t) (by decide)

theorem timeoutFirst_reacts (p : RejectEntry → Bool) (h : Reacts s t) : Reacts s (timeoutFirst p t) := by
  have hraised (x : State) (hx : Reacts s x) : Reacts s (raiseLineStop x) := raiseLineStop_reacts hx
  unfold timeoutFirst
  split
  · exact h
  · have hunconfirmed : Reacts s (raiseLineStop ((t.withSchedule (removeFirst p t.jr.schedule)).withRejectCounters
        { (t.withSchedule (removeFirst p t.jr.schedule)).jr.counters with
          unconfirmed := tally (t.withSchedule (removeFirst p t.jr.schedule)).jr.counters.unconfirmed 1 })) :=
      raiseLineStop_reacts (h.other ⟨rfl, rfl, rfl, rfl, rfl⟩)
    dsimp only
    split
    · exact hunconfirmed.freeze _
    · exact hunconfirmed

theorem advanceOnce_reacts (x : Word32) (d key : Nat) (h : Reacts s t) : Reacts s (advanceOnce x d key t) := by
  unfold advanceOnce
  split
  · exact h.only (fireFirst_only _ _) (by decide)
  · exact timeoutFirst_reacts _ h

theorem advanceRun_reacts (x : Word32) (d fuel : Nat) (h : Reacts s t) : Reacts s (advanceRun x d fuel t) := by
  induction fuel generalizing t with
  | zero => exact h
  | succ n ih =>
    unfold advanceRun
    split
    · exact h
    · exact ih (advanceOnce_reacts x d _ h)

theorem ticks_reacts (ticks : List Word32) (h : Reacts s t) :
    Reacts s (ticks.foldl (fun u b => pitchTick b u) t) := by
  induction ticks generalizing t with
  | nil => exact h
  | cons b rest ih => exact ih (pitchTick_reacts b h)

theorem forwardStep_reacts (d : Nat) (h : Reacts s t) : Reacts s (forwardStep d t) :=
  advanceRun_reacts _ _ _ (ticks_reacts _ h.pos)

theorem takeCount_reacts (c : Word16) (h : Reacts s t) : Reacts s (takeCount c t) := by
  have hready : Reacts s (applyGrid (clearEncoderFault
      (t.withPos { t.pos with timer := some t.ma.setup.encoderSilence }))) := by
    refine Reacts.only ?_ (applyGrid_only _) (by decide)
    refine Reacts.only ?_ (clearEncoderFault_only _) (by decide)
    exact h.pos
  unfold takeCount handleCount
  dsimp only
  generalize applyGrid _ = u at hready ⊢
  repeat' split
  · exact hready.pos
  · exact hready.pos
  · exact forwardStep_reacts _ hready.pos
  · exact hready.pos

/-! ### Judged cans on their way to the ring -/

theorem handJudged_reacts (e : RingEntry) (cls : CanClass) (h : Reacts s t) : Reacts s (handJudged e cls t) :=
  (h.write e).outcome _

theorem rejectIfAsked_reacts (number : Option Word32) (cls : CanClass) (x : Word32) (h : Reacts s t) :
    Reacts s (rejectIfAsked number cls x t).state :=
  h.only (rejectIfAsked_only number cls x t) (by decide)

theorem countClass_reacts (cls : CanClass) (h : Reacts s t) : Reacts s (countClass cls t) :=
  h.other ⟨rfl, rfl, rfl, rfl, rfl⟩

theorem orphanWeigh_reacts (w : WindowResult) (h : Reacts s t) : Reacts s (orphanWeigh w t) :=
  handJudged_reacts _ _ (rejectIfAsked_reacts _ _ _ (countClass_reacts _ (withTrackingCounters_reacts _ h)))

theorem judgeRecord_reacts (r : CanRecord) (w : WindowResult) (h : Reacts s t) : Reacts s (judgeRecord r w t).1 :=
  rejectIfAsked_reacts _ _ _ (countClass_reacts _ h)

/-! ### Resets -/

theorem trackingReset_reacts (h : Reacts s t) : Reacts s (trackingReset t) := by
  have hflushed := flushRecords_reacts h
  unfold trackingReset
  generalize flushRecords t = u at hflushed ⊢
  refine Reacts.only ?_ (abandonWindow_only _) (by decide)
  refine loseQueue_reacts ?_
  exact hflushed.other ⟨rfl, rfl, rfl, rfl, rfl⟩

end Operations

/-! ### The rows that only react -/

/-- The events that act on the ground of ring, valves and flags, if at all, by reactions. -/
def onlyReacts : Instr → Bool
  | .windowResult | .captureArm _ | .dischargeFrame | .valveFault _ | .uploadStart | .captureSegment | .frameReceived ..
  | .powerOn _ => false
  | _ => true

theorem onHanded_reacts {role : Role} {f : Copy → State → State} (hf : ∀ {s t : State} c, Reacts s t → Reacts s (f c t))
    (s : State) : Reacts s (onHanded role f s) := by
  unfold onHanded State.takeHanded
  split
  · exact .refl s
  · next h hh =>
    split at hh
    · exact absurd hh (by simp)
    · obtain rfl := Option.some.inj hh
      exact hf _ (Reacts.refl s).fp

theorem effect_event_reacts {c : Instr} (hc : kindOf c = none) (hreacts : onlyReacts c = true) (s : State) :
    Reacts s (effect c s) := by
  have r := Reacts.refl s
  have plain {l : List Block} {t : State} (h : OnlyChanges l s t)
      (hl : ∀ b ∈ l, b ≠ .te ∧ b ≠ .rc ∧ b ≠ .pu ∧ b ≠ .rm ∧ b ≠ .ma) : Reacts s t := r.only h hl
  have agent {t : State} (h : OnlyChanges agentBlocks s t) (hsetup : t.ma.setup = s.ma.setup) : Reacts s t :=
    r.other ⟨h .te (by decide), h .rc (by decide), h .pu (by decide), congrArg Reader.tracking (h .rm (by decide)), hsetup⟩
  cases c
  case encoderFrame =>
    exact onHanded_reacts (f := fun c => takeCount (encoderCount c.payload)) (fun _ h => takeCount_reacts _ h) s
  case maxAgeRemoval => exact removeAged_reacts r
  case confirmTimeout => exact timeoutFirst_reacts _ r
  case seamFrame => exact onHanded_reacts takeSeam_reacts s
  case readFrame => exact onHanded_reacts takeRead_reacts s
  case trackingSynced => exact becomeSynced_reacts r
  case trackingLost => exact becomeLost_reacts r
  case intakeDeparture => exact agent (effect_event_only hc s) (departIntake_ma s).setup
  case loadInactivityExpiry =>
    refine agent (effect_event_only hc s) ?_
    rw [effect_loadInactivityExpiry]
    split
    · exact (loadExpiry_ma s).setup
    · rfl
  case statusIntervalExpiry =>
    refine agent (effect_event_only hc s) ?_
    rw [effect_statusIntervalExpiry]
    split
    · rw [statusExpiry, restartStatus, State.withMa_ma, buildStatus_ma]
    · rfl
  case windowResult | captureArm | dischargeFrame | valveFault | uploadStart | captureSegment | frameReceived | powerOn =>
    cases hreacts
  all_goals exact plain (effect_event_only hc s) (by simp [eventTouches])

end Sys2Proof.Machine
end

section
/-!
PROOFS, the ring and the captures: what each operation makes of Ring and Capture, that it keeps them in order, and that it leaves
the contents of a frozen ring.
-/

namespace Sys2Proof.Machine

/-! ### Ring and Capture in order -/

/-- `ringInv`, of Ring and Capture alone. -/
structure RingCapture.Ok (rc : RingCapture) : Prop where
  ring : rc.ring.length ≤ 32
  burst : rc.burst.length ≤ 32
  cause : rc.cause = none ↔ rc.freeze = .notFrozen
  engine : ∀ i : Fin 4, rc.slots[i].isUploading = true ↔ ∃ n m, rc.engine = .uploading i n m
  once : rc.order.Nodup
  order : ∀ i : Fin 4, i ∈ rc.order ↔ rc.slots[i] ≠ .empty

theorem ringInv_iff (s : State) : s.ringInv ↔ s.rc.Ok :=
  ⟨fun ⟨h1, h2, h3, h4, h5, h6⟩ => ⟨h1, h2, h3, h4, h5, h6⟩, fun ⟨h1, h2, h3, h4, h5, h6⟩ => ⟨h1, h2, h3, h4, h5, h6⟩⟩

/-- The change keeps Ring and Capture in order, and a frozen ring frozen with its contents. -/
structure RingCapture.Keeps (a b : RingCapture) : Prop where
  ok : a.Ok → b.Ok
  frozen : a.freeze ≠ .notFrozen → b.freeze ≠ .notFrozen ∧ b.ring = a.ring

theorem RingCapture.Keeps.refl (a : RingCapture) : a.Keeps a :=
  ⟨id, fun h => ⟨h, rfl⟩⟩

theorem RingCapture.Keeps.of_eq {a b : RingCapture} (h : b = a) : a.Keeps b :=
  h ▸ .refl a

theorem RingCapture.Keeps.trans {a b c : RingCapture} (h : a.Keeps b) (k : b.Keeps c) : a.Keeps c where
  ok ha := k.ok (h.ok ha)
  frozen hf := by
    obtain ⟨hb, hring⟩ := h.frozen hf
    obtain ⟨hc, hring'⟩ := k.frozen hb
    exact ⟨hc, hring'.trans hring⟩

theorem pushBounded_length {α : Type} {l : List α} (a : α) (h : l.length ≤ 32) :
    (pushBounded Config.ringCapacity l a).length ≤ 32 := by
  have hcapacity : Config.ringCapacity = 32 := rfl
  unfold pushBounded
  split
  · rw [List.length_append, List.length_singleton]
    omega
  · rw [List.length_append, List.length_singleton, List.length_drop]
    omega

/-- The ring part stands, and the captures stay in order. -/
theorem RingCapture.Keeps.of_captures {a b : RingCapture} (hring : b.ring = a.ring) (hburst : b.burst = a.burst)
    (hcause : b.cause = a.cause) (hfreeze : b.freeze = a.freeze)
    (hcaptures : a.Ok → (∀ i : Fin 4, b.slots[i].isUploading = true ↔ ∃ n m, b.engine = .uploading i n m) ∧ b.order.Nodup ∧
      ∀ i : Fin 4, i ∈ b.order ↔ b.slots[i] ≠ .empty) : a.Keeps b where
  ok ha := by
    obtain ⟨hengine, honce, horder⟩ := hcaptures ha
    exact ⟨hring ▸ ha.ring, hburst ▸ ha.burst, by rw [hcause, hfreeze, ha.cause], hengine, honce, horder⟩
  frozen hf := ⟨hfreeze ▸ hf, hring⟩

/-- Slots, order and engine stand as well: counters, capture number and CAPTURE_READY are free. -/
theorem RingCapture.Keeps.of_parts {a b : RingCapture} (hring : b.ring = a.ring) (hburst : b.burst = a.burst)
    (hcause : b.cause = a.cause) (hfreeze : b.freeze = a.freeze) (hslots : b.slots = a.slots) (horder : b.order = a.order)
    (hengine : b.engine = a.engine) : a.Keeps b := by
  refine .of_captures hring hburst hcause hfreeze fun ha => ?_
  rw [hslots, horder, hengine]
  exact ⟨ha.engine, ha.once, ha.order⟩

/-! ### The ring -/

@[simp] theorem report_rc (s t : State) : (report s t).rc = t.rc :=
  (report_only s t) .rc (by decide)

@[simp] theorem evalTrimHold_rc (s : State) : (evalTrimHold s).rc = s.rc :=
  (evalTrimHold_only s) .rc (by decide)

theorem writeRing_keeps (e : RingEntry) (s : State) : s.rc.Keeps (writeRing e s).rc := by
  unfold writeRing
  split
  · next hfreeze =>
    exact ⟨fun h => ⟨pushBounded_length e h.ring, h.burst, h.cause, h.engine, h.once, h.order⟩, fun h => absurd hfreeze h⟩
  · exact .refl _

theorem freezeRing_keeps (cause : FreezeCause) (s : State) : s.rc.Keeps (freezeRing cause s).rc := by
  unfold freezeRing
  split
  · next hfreeze =>
    rw [evalTrimHold_rc, report_rc]
    refine ⟨fun h => ⟨h.ring, h.burst, ?_, h.engine, h.once, h.order⟩, fun h => absurd hfreeze h⟩
    cases cause <;> simp [FreezeCause.isAlarm]
  · next hfreeze =>
    split
    · rw [evalTrimHold_rc]
      exact ⟨fun h => ⟨h.ring, h.burst, by simp, h.engine, h.once, h.order⟩, fun _ => ⟨by simp, rfl⟩⟩
    · exact .refl _
  · exact .refl _

theorem noteOutcome_keeps (b : Bool) (s : State) : s.rc.Keeps (noteOutcome b s).rc := by
  have hburst : s.rc.Keeps { s.rc with burst := pushBounded Config.ringCapacity s.rc.burst b } :=
    ⟨fun h => ⟨h.ring, pushBounded_length b h.burst, h.cause, h.engine, h.once, h.order⟩, fun h => ⟨h, rfl⟩⟩
  unfold noteOutcome
  dsimp only
  split
  · exact hburst.trans (freezeRing_keeps .burst { s with rc := _ })
  · exact hburst

theorem setTracking_keeps (st : TrackingState) (s : State) : s.rc.Keeps (setTracking st s).rc := by
  have hset : (evalTrimHold (report s { s with rm := { s.rm with tracking := st } })).rc = s.rc := by
    rw [evalTrimHold_rc, report_rc]
  unfold setTracking
  dsimp only
  split
  · exact .refl _
  · split
    · exact (RingCapture.Keeps.of_eq hset).trans (freezeRing_keeps _ _)
    · exact .of_eq hset

theorem Reacts.keeps {s t : State} (h : Reacts s t) : s.rc.Keeps t.rc := by
  induction h with
  | refl => exact .refl _
  | other _ hsame ih => exact ih.trans (.of_eq hsame.rc)
  | write _ e ih => exact ih.trans (writeRing_keeps e _)
  | outcome _ b ih => exact ih.trans (noteOutcome_keeps b _)
  | freeze _ cause ih => exact ih.trans (freezeRing_keeps cause _)
  | track _ st ih => exact ih.trans (setTracking_keeps st _)

/-! ### The captures -/

theorem slots_set (v : Vector Slot 4) (i j : Fin 4) (x : Slot) : (v.set i.val x i.isLt)[j] = if j = i then x else v[j] := by
  by_cases h : j = i
  · subst h
    simp
  · have hval : i.val ≠ j.val := fun he => h (Fin.ext he.symm)
    rw [if_neg h]
    simp [hval]

theorem evalCaptureReady_keeps (s : State) : s.rc.Keeps (evalCaptureReady s).rc := by
  unfold evalCaptureReady
  rw [report_rc]
  exact .of_parts rfl rfl rfl rfl rfl rfl rfl

theorem putCapture_keeps (i : Fin 4) (j : Judged) (s : State) (hi : s.rc.slots[i].isUploading = false) :
    s.rc.Keeps (putCapture i j s).rc := by
  refine RingCapture.Keeps.trans ?_ (evalCaptureReady_keeps _)
  refine .of_captures rfl rfl rfl rfl fun h => ⟨fun k => ?_, ?_, fun k => ?_⟩
  · dsimp only
    rw [slots_set, ← h.engine k]
    split
    · next hk =>
      rw [hk, hi]
      exact iff_of_false Bool.false_ne_true Bool.false_ne_true
    · rfl
  · refine List.nodup_append.mpr ⟨h.once.filter _, List.nodup_singleton i, fun a ha b hb => ?_⟩
    have hne := (List.mem_filter.mp ha).2
    rw [List.mem_singleton.mp hb]
    simpa using hne
  · dsimp only
    rw [slots_set, List.mem_append, List.mem_filter, List.mem_singleton, h.order]
    split
    · next hk => simp [hk]
    · next hk => simp [hk]

theorem emptySlot_spec {rc : RingCapture} {i : Fin 4} (h : rc.emptySlot = some i) : rc.slots[i] = .empty := by
  have hfound := List.find?_some h
  exact of_decide_eq_true (by simpa using hfound)

theorem oldestStored_spec {rc : RingCapture} {i : Fin 4} (h : rc.oldestStored = some i) : rc.slots[i].isStored = true := by
  have hfound := List.find?_some h
  exact hfound

theorem Slot.not_uploading_of_stored {x : Slot} (h : x.isStored = true) : x.isUploading = false := by
  cases x <;> first | rfl | cases h

theorem storeCapture_keeps (j : Judged) (s : State) : s.rc.Keeps (storeCapture j s).1.rc := by
  unfold storeCapture
  dsimp only
  split
  · next i hi =>
    dsimp only
    refine putCapture_keeps i j s ?_
    rw [emptySlot_spec hi]
    rfl
  · split
    · split
      · next i hi =>
        have hstored := Slot.not_uploading_of_stored (oldestStored_spec hi)
        dsimp only
        refine RingCapture.Keeps.trans ?_ (putCapture_keeps i j _ ?_)
        · exact .of_parts rfl rfl rfl rfl rfl rfl rfl
        · exact hstored
      · exact .of_parts rfl rfl rfl rfl rfl rfl rfl
    · exact .of_parts rfl rfl rfl rfl rfl rfl rfl

theorem captureJudged_keeps (j : Judged) (s : State) : s.rc.Keeps (captureJudged j s).rc := by
  have harmed (v : Fin Config.valves) : s.rc.Keeps (captureArmed v j s).rc := by
    unfold captureArmed
    dsimp only
    split
    · split
      · exact storeCapture_keeps j s
      · exact storeCapture_keeps j s
    · exact .refl _
  unfold captureJudged
  split
  · exact .refl _
  · next v _ =>
    dsimp only
    split
    · exact .refl _
    · exact (harmed v).trans (.of_eq ((armValve_only v _) .rc (by decide)))

theorem startUpload_keeps (s : State) : s.rc.Keeps (startUpload s).rc := by
  unfold startUpload
  split
  · next hcondition =>
    obtain ⟨hidle, _, _⟩ := hcondition
    split
    · exact .refl _
    · next i hi =>
      split
      · next c hc =>
        refine RingCapture.Keeps.trans ?_ (evalCaptureReady_keeps _)
        refine .of_captures rfl rfl rfl rfl fun h => ⟨fun k => ?_, h.once, fun k => ?_⟩
        · dsimp only
          rw [slots_set]
          split
          · next hk => simp [hk, Slot.isUploading]
          · next hk =>
            rw [h.engine k, hidle]
            simp [Ne.symm hk]
        · dsimp only
          rw [slots_set, h.order k]
          split
          · next hk => simp [hk, hc]
          · rfl
      · exact .refl _
      · exact .refl _
  · exact .refl _

theorem engine_uploading_iff {rc : RingCapture} (h : rc.Ok) {i : Fin 4} {n m : Nat} (he : rc.engine = .uploading i n m)
    (k : Fin 4) : rc.slots[k].isUploading = true ↔ k = i := by
  rw [h.engine k, he]
  simp [eq_comm]

theorem completeUpload_keeps {i : Fin 4} {n m : Nat} {s : State} (he : s.rc.engine = .uploading i n m) :
    s.rc.Keeps (completeUpload i s).rc := by
  unfold completeUpload
  dsimp only
  refine RingCapture.Keeps.trans ?_ (startUpload_keeps _)
  refine RingCapture.Keeps.trans ?_ (evalCaptureReady_keeps _)
  refine .of_captures rfl rfl rfl rfl fun h => ⟨fun k => ?_, h.once.filter _, fun k => ?_⟩
  · have hk := engine_uploading_iff h he k
    dsimp only [RingCapture.emptyAt]
    rw [slots_set]
    split
    · simp [Slot.isUploading]
    · next hne =>
      rw [hk]
      simp [hne]
  · dsimp only [RingCapture.emptyAt]
    rw [slots_set, List.mem_filter, h.order k]
    split
    · next hk => simp [hk]
    · next hk => simp [hk]

theorem produceSegment_keeps (s : State) : s.rc.Keeps (produceSegment s).rc := by
  unfold produceSegment
  split
  · exact .refl _
  · next i next count he =>
    have hlast (x : FramePath) : s.rc.Keeps (completeUpload i (s.withFp x)).rc := completeUpload_keeps (s := s.withFp x) he
    dsimp only
    repeat' split
    · exact .refl _
    · refine .of_captures rfl rfl rfl rfl fun h => ⟨fun k => ?_, h.once, h.order⟩
      have hk := engine_uploading_iff h he k
      rw [hk]
      simp [eq_comm (a := k)]
    · exact hlast _
    · exact .refl _
    · exact .refl _
    · exact .refl _

theorem abandonUpload_keeps (s : State) : s.rc.Keeps (abandonUpload s).rc := by
  unfold abandonUpload
  split
  · exact .refl _
  · next i n m he =>
    dsimp only
    refine RingCapture.Keeps.trans ?_ (evalCaptureReady_keeps _)
    refine .of_captures rfl rfl rfl rfl fun h => ⟨fun k => ?_, h.once, fun k => ?_⟩
    · have hk := engine_uploading_iff h he k
      dsimp only
      rw [slots_set]
      split
      · split <;> simp [Slot.isUploading]
      · next hne =>
        rw [hk]
        simp [hne]
    · have hi := engine_uploading_iff h he i
      dsimp only
      rw [slots_set, h.order k]
      split
      · next hk =>
        subst hk
        split <;> simp [*]
      · rfl

theorem discardCaptures_keeps (s : State) : s.rc.Keeps (discardCaptures s).rc := by
  refine RingCapture.Keeps.trans ?_ (evalCaptureReady_keeps _)
  refine .of_captures rfl rfl rfl rfl fun h => ⟨fun k => ?_, h.once.filter _, fun k => ?_⟩
  · have hslot : (Vector.ofFn fun i : Fin 4 => if s.rc.slots[i].isStored then Slot.empty else s.rc.slots[i])[k] =
        if s.rc.slots[k].isStored then Slot.empty else s.rc.slots[k] := by simp
    dsimp only
    rw [hslot, ← h.engine k]
    split
    · next hk =>
      rw [Slot.not_uploading_of_stored hk]
      exact iff_of_false Bool.false_ne_true Bool.false_ne_true
    · rfl
  · have hslot : (Vector.ofFn fun i : Fin 4 => if s.rc.slots[i].isStored then Slot.empty else s.rc.slots[i])[k] =
        if s.rc.slots[k].isStored then Slot.empty else s.rc.slots[k] := by simp
    dsimp only
    rw [hslot, List.mem_filter, h.order k]
    split
    · next hk => simp only [hk, Bool.not_true, Bool.false_eq_true, and_false, ne_eq, not_true_eq_false]
    · next hk => simp only [hk, Bool.not_false, and_true]

/-! ### What ends a freeze -/

theorem thawRing_ok {s : State} (h : s.rc.Ok) : (thawRing s).rc.Ok ∧ (thawRing s).rc.ring = s.rc.ring := by
  unfold thawRing
  split
  · exact ⟨h, rfl⟩
  · rw [evalTrimHold_rc, report_rc]
    exact ⟨⟨h.ring, Nat.zero_le _, by simp, h.engine, h.once, h.order⟩, rfl⟩

theorem resetCaptureState_ok (s : State) : (resetCaptureState s).rc.Ok := by
  refine (evalCaptureReady_keeps _).ok ?_
  refine ⟨?_, ?_, ?_, fun i => ?_, List.nodup_nil, fun i => ?_⟩
  · simp
  · simp
  · simp
  · simp [Slot.isUploading]
  · simp

end Sys2Proof.Machine
end

section
/-!
PROOFS, the ring invariant through every row: all rows but RING_THAW and the resets keep Ring and Capture (`RingCapture.Keeps`).
-/

namespace Sys2Proof.Machine

/-! ### Commits -/

theorem commitTable_keeps (table : TableId) (first : Nat) (entries : List (List Byte)) (s : State) :
    s.rc.Keeps (commitTable table first entries s).1.rc := by
  unfold commitTable
  cases table <;> dsimp only
  case channel => exact .of_eq ((commitChannel_only first entries s) .rc (by decide))
  case lineSetup =>
    have hdeliver (old : LineSetup) (t : State) : t.rc.Keeps (deliverSetup old t).rc := by
      have hvalves : (commitTrimHold old (applyValveCount old.valveCount (commitGrid old t))).rc = t.rc := by
        rw [(commitTrimHold_only _ _) .rc (by decide), (applyValveCount_only _ _) .rc (by decide),
          (commitGrid_only _ _) .rc (by decide)]
      unfold deliverSetup
      generalize commitTrimHold old _ = u at hvalves ⊢
      refine RingCapture.Keeps.trans ?_ (.of_eq ((commitInterval_only _ _) .rc (by decide)))
      refine RingCapture.Keeps.trans (b := (commitCollector old u).rc) ?_ ?_
      · refine (RingCapture.Keeps.of_eq hvalves).trans ?_
        have hcleared : (if old.collector = u.ma.setup.collector then u else clearHold u).rc = u.rc := by
          split <;> rfl
        unfold commitCollector
        dsimp only
        split
        · exact .of_eq hcleared
        · exact (RingCapture.Keeps.of_eq hcleared).trans (abandonUpload_keeps _)
      · unfold commitThreshold
        split
        · exact .refl _
        · exact evalCaptureReady_keeps _
    unfold commitLineSetup refuseAt
    split
    · exact .refl _
    · next u _ => exact hdeliver s.ma.setup (s.withSetup u)
  case calibration => exact .of_eq ((commitCalibration_only entries s) .rc (by decide))
  case product => exact .of_eq ((commitProduct_only first entries s) .rc (by decide))
  case valve => exact .of_eq ((commitValve_only first entries s) .rc (by decide))
  case policy => exact .of_eq ((commitPolicy_only first entries s) .rc (by decide))

theorem segmentBody_keeps (args : List Byte) (s : State) : s.rc.Keeps (segmentBody args s).1.rc := by
  have hfailed : s.rc.Keeps (failLoad s).rc := .of_eq ((failLoad_only s) .rc (by decide))
  unfold segmentBody takeSegment refuse
  repeat' split
  · exact .refl _
  · exact hfailed
  · exact hfailed
  · exact .refl _
  · unfold lastSegment
    dsimp only
    exact (commitTable_keeps _ _ _ s).trans (.of_eq ((endLoad_only _) .rc (by decide)))

/-! ### Every row -/

/-- The commands that end a freeze. -/
def endsFreeze : Instr → Bool
  | .ringThaw | .resetFull | .resetCapture | .powerOn _ => true
  | _ => false

theorem CommandKind.body_keeps {k : CommandKind} (hk : endsFreeze k.row = false) (args : List Byte) (s : State) :
    s.rc.Keeps (k.body args s).1.rc := by
  by_cases hrc : Block.rc ∈ k.touches
  · cases k <;> try exact absurd hrc (by decide)
    case loadSegment => exact segmentBody_keeps args s
    case clearCounters => exact .of_parts rfl rfl rfl rfl rfl rfl rfl
    case ringFreeze => exact freezeRing_keeps .command s
    case captureDiscard => exact discardCaptures_keeps s
    case resetTracking => exact (trackingReset_reacts (.refl s)).keeps
    case ringThaw | resetFull | resetCapture => cases hk
  · exact .of_eq ((k.body_only args s) .rc hrc)

theorem finish_rc (c : Copy) (r : Reply) (s : State) : (finish c r s).rc = s.rc := rfl

theorem handOn_keeps (j : Judged) (s : State) : s.rc.Keeps (handOn j s).rc := by
  have hweighed : (weighValve j s).rc = s.rc := (weighValve_only j s) .rc (by decide)
  exact (RingCapture.Keeps.of_eq hweighed).trans (captureJudged_keeps j _)

theorem assignWeigh_keeps (r : CanRecord) (w : WindowResult) (s : State) : s.rc.Keeps (assignWeigh r w s).rc := by
  unfold assignWeigh
  dsimp only
  have hjudged := (judgeRecord_reacts { r with result := some w } w (withQueue_reacts
    (updateFirst CanRecord.isPassed (fun x => { x with result := some w }) s.tq.queue) (.refl s))).keeps
  generalize judgeRecord _ w _ = o at hjudged ⊢
  have hon := hjudged.trans (handOn_keeps o.2 o.1)
  generalize handOn o.2 o.1 = u at hon ⊢
  refine hon.trans ?_
  exact (handJudged_reacts _ _ (withQueue_reacts _ (Reacts.refl u))).keeps

theorem nextResult_keeps (s : State) : s.rc.Keeps (nextResult s).rc := by
  have htake (w : WindowResult) (t : State) : t.rc.Keeps (takeResult w t).rc := by
    unfold takeResult
    split
    · exact (orphanWeigh_reacts w (.refl t)).keeps
    · exact assignWeigh_keeps _ w t
  unfold nextResult
  split
  · exact .refl _
  · next w rest _ =>
    exact htake w (s.withFe { s.fe with results := rest })

theorem takeDischarge_keeps (c : Copy) (s : State) : s.rc.Keeps (takeDischarge c s).rc := by
  have hgap : s.rc.Keeps (dischargeGap c.sequence s).rc := (dischargeGap_reacts c.sequence (.refl s)).keeps
  refine hgap.trans ?_
  unfold takeDischarge
  generalize dischargeGap c.sequence s = t
  dsimp only
  split
  · exact (withTrackingCounters_reacts _ (Reacts.refl t).tq).keeps
  · unfold admitDischarge
    split
    · exact (createRecord_reacts _ _ (Reacts.refl t).tq).keeps
    · refine RingCapture.Keeps.trans ?_ (.of_eq ((followDischarge_only _ _ _ _) .rc (by decide)))
      exact (createRecord_reacts _ _ (Reacts.refl t).tq).keeps

theorem effect_keeps {c : Instr} (hends : endsFreeze c = false) (s : State) : s.rc.Keeps (effect c s).rc := by
  cases hc : kindOf c with
  | some k =>
    obtain rfl := eq_row_of_kindOf hc
    exact effect_row_keeps (P := fun t => s.rc.Keeps t.rc) k (.refl _) (fun args => k.body_keeps hends args s)
      fun c r t ht => ht
  | none =>
    by_cases hreacts : onlyReacts c = true
    · exact (effect_event_reacts hc hreacts s).keeps
    · by_cases hrc : Block.rc ∈ eventTouches c
      · cases c <;> try exact absurd rfl hreacts
        case windowResult => exact nextResult_keeps s
        case dischargeFrame =>
          exact onHanded_of (P := fun t => s.rc.Keeps t.rc) (.refl _) (fun _ => .refl _)
            (fun c t ht => ht.trans (takeDischarge_keeps c t))
        case uploadStart => exact startUpload_keeps s
        case captureSegment => exact produceSegment_keeps s
        case captureArm | valveFault => exact absurd hrc (by simp [eventTouches])
        case frameReceived => exact absurd hrc (by simp [eventTouches, frameBlocks])
        case powerOn => cases hends
      · exact .of_eq ((effect_event_only hc s) .rc hrc)

theorem reset_rc_ok : State.reset.rc.Ok :=
  ⟨Nat.zero_le _, Nat.zero_le _, by decide, by simp [State.reset, Slot.isUploading], List.nodup_nil, by simp [State.reset]⟩

theorem effect_ringOk (c : Instr) {s : State} (h : s.rc.Ok) : (effect c s).rc.Ok := by
  by_cases hends : endsFreeze c = false
  · exact (effect_keeps hends s).ok h
  · have hrow (k : CommandKind) (hbody : ∀ args, (k.body args s).1.rc.Ok) : (effect k.row s).rc.Ok :=
      effect_row_keeps (P := fun t => t.rc.Ok) k h hbody fun _ _ _ ht => ht
    cases c <;> try exact absurd rfl hends
    case ringThaw => exact hrow .ringThaw fun _ => (thawRing_ok h).1
    case resetFull => exact hrow .resetFull fun _ => reset_rc_ok
    case resetCapture => exact hrow .resetCapture fun _ => resetCaptureState_ok s
    case powerOn => exact reset_rc_ok

theorem ringInv_keptByTimers : KeptByTimers State.ringInv where
  pending _ _ h := h
  pos _ _ _ _ h := h
  fe _ _ _ _ h := h
  hold _ _ _ _ h := h
  load _ _ _ _ h := h
  status _ _ _ _ h := h

theorem ring_of_row {s : State} (k : CommandKind) (hbody : ∀ args, (k.body args s).1.rc.ring = s.rc.ring) :
    (effect k.row s).rc.ring = s.rc.ring :=
  effect_row_keeps (P := fun t => t.rc.ring = s.rc.ring) k rfl hbody fun _ _ _ ht => ht

theorem thawRing_ring (s : State) : (thawRing s).rc.ring = s.rc.ring := by
  unfold thawRing
  split
  · rfl
  · rw [evalTrimHold_rc, report_rc]

/-- Settles O49: the rows keep Ring and Capture in order, and all but the resets leave the contents of a frozen ring. -/
theorem ringInvKept : Obligations.RingInvKept := by
  unfold Obligations.RingInvKept
  refine ⟨fun s t hs hstep => ?_, fun c s t hfull hcapture hpower hfrozen hexec => ?_, fun s t hidle hfrozen hstep => ?_⟩
  · refine ringInv_keptByTimers.step (fun c u hu => ?_) hs hstep
    rw [ringInv_iff] at hu ⊢
    exact effect_ringOk c hu
  · rw [exec_eq_next hexec]
    by_cases hends : endsFreeze c = false
    · exact ((effect_keeps hends s).frozen hfrozen).2
    · cases c <;> try exact absurd rfl hends
      case ringThaw => exact ring_of_row .ringThaw fun _ => thawRing_ring s
      case resetFull => exact absurd rfl hfull
      case resetCapture => exact absurd rfl hcapture
      case powerOn straps => exact absurd rfl (hpower straps)
  · obtain ⟨_, rfl⟩ | ⟨c, rest, hpending, _⟩ := step_cases hstep
    · have hkeeps : s.rc.Keeps (millisecond s).rc := by
        refine millisecond_keeps (P := fun t => s.rc.Keeps t.rc) (.refl _) (fun c t hc ht => ht.trans (effect_keeps ?_ t))
          (fun _ _ _ _ h => h) (fun _ _ _ _ h => h) (fun _ _ _ _ h => h) (fun _ _ _ _ h => h) (fun _ _ _ _ h => h)
        cases c <;> first | rfl | cases hc
      exact (hkeeps.frozen hfrozen).2
    · exact absurd (hidle.symm.trans hpending) (by simp)

end Sys2Proof.Machine
end

section
/-!
PROOFS, the condition flags: TRIM_HOLD, VALVE_ATTENTION and CAPTURE_READY follow the state they show through every row, because an
operation that changes that state ends in the evaluation of the flag.
-/

namespace Sys2Proof.Machine

/-! ### The three flags -/

/-- TRIM_HOLD stands as R133 says. -/
def State.trimShown (s : State) : Prop :=
  s.te.trimHold = s.holdsTrim

/-- VALVE_ATTENTION stands exactly while a valve is in FAULT (R139). -/
def State.attentionShown (s : State) : Prop :=
  s.te.attention = true ↔ ∃ v : Fin Config.valves, s.te.valves[v].state = .fault

/-- CAPTURE_READY stands exactly while enough slots are STORED (R176). -/
def State.readyShown (s : State) : Prop :=
  s.rc.captureReady = true ↔ s.ma.setup.captureThreshold ≤ (s.rc.slots.toList.filter Slot.isStored).length

theorem flagInv_iff (s : State) : s.flagInv ↔ s.trimShown ∧ s.attentionShown ∧ s.readyShown := Iff.rfl

theorem State.trimShown.congr {s t : State} (h : s.trimShown) (hhold : t.te.trimHold = s.te.trimHold)
    (hmode : t.te.mode = s.te.mode) (htracking : t.rm.tracking = s.rm.tracking) (hfreeze : t.rc.freeze = s.rc.freeze)
    (hsetup : t.ma.setup.holdTrimOnFreeze = s.ma.setup.holdTrimOnFreeze) (hactive : t.pu.active = s.pu.active) :
    t.trimShown := by
  unfold State.trimShown State.holdsTrim at *
  rw [hhold, hmode, htracking, hfreeze, hsetup, hactive, h]

theorem State.attentionShown.congr {s t : State} (h : s.attentionShown) (hattention : t.te.attention = s.te.attention)
    (hfault : ∀ v : Fin Config.valves, t.te.valves[v].state = .fault ↔ s.te.valves[v].state = .fault) : t.attentionShown := by
  unfold State.attentionShown at *
  rw [hattention, h]
  exact exists_congr fun v => (hfault v).symm

theorem State.readyShown.congr {s t : State} (h : s.readyShown) (hready : t.rc.captureReady = s.rc.captureReady)
    (hslots : t.rc.slots = s.rc.slots) (hthreshold : t.ma.setup.captureThreshold = s.ma.setup.captureThreshold) :
    t.readyShown := by
  unfold State.readyShown at *
  rw [hready, hslots, hthreshold, h]

/-! ### The evaluations -/

@[simp] theorem report_pu (s t : State) : (report s t).pu = t.pu := (report_only s t) .pu (by decide)
@[simp] theorem report_rm (s t : State) : (report s t).rm = t.rm := (report_only s t) .rm (by decide)

/-- What the evaluation of Trim Hold makes of the Trim Engine (R133, R134). -/
theorem evalTrimHold_te_eq (s : State) : (evalTrimHold s).te = { s.te with
    trimHold := s.holdsTrim
    valves := if s.te.trimHold = true ∧ s.holdsTrim = false ∧ s.te.mode = .auto then
        Vector.ofFn fun v => if s.isAuto v then s.te.valves[v].restart else s.te.valves[v]
      else s.te.valves } := by
  unfold evalTrimHold
  dsimp only
  split
  · next heq =>
    rw [if_neg (by simp +contextual [heq]), heq]
  · next hne =>
    have hreport : (report s { s with te := { s.te with trimHold := s.holdsTrim } }).te =
        { s.te with trimHold := s.holdsTrim } := report_te ..
    rw [hreport]
    dsimp only
    by_cases hends : s.holdsTrim = false ∧ s.te.mode = .auto
    · have hstood : s.te.trimHold = true := by
        cases htrim : s.te.trimHold
        · exact absurd (hends.1.trans htrim.symm) hne
        · rfl
      rw [if_pos hends, if_pos ⟨hstood, hends⟩, restartCollection, State.mapValves, hreport]
      have hauto (v : Fin Config.valves) :
          (report s { s with te := { s.te with trimHold := s.holdsTrim } }).isAuto v = s.isAuto v := by
        unfold State.isAuto
        rw [hreport, report_ma]
      simp only [hauto]
    · rw [if_neg hends, if_neg fun h => hends h.2, hreport]

theorem evalTrimHold_valve (s : State) (v : Fin Config.valves) :
    (evalTrimHold s).te.valves[v] = s.te.valves[v] ∨
      s.isAuto v = true ∧ (evalTrimHold s).te.valves[v] = s.te.valves[v].restart := by
  rw [evalTrimHold_te_eq]
  dsimp only
  split
  · have hget : (Vector.ofFn fun v : Fin Config.valves => if s.isAuto v then s.te.valves[v].restart else s.te.valves[v])[v] =
        if s.isAuto v then s.te.valves[v].restart else s.te.valves[v] := by simp
    rw [hget]
    split
    · exact .inr ⟨‹_›, rfl⟩
    · exact .inl rfl
  · exact .inl rfl

@[simp] theorem evalTrimHold_rm (s : State) : (evalTrimHold s).rm = s.rm := (evalTrimHold_only s) .rm (by decide)
@[simp] theorem evalTrimHold_pu (s : State) : (evalTrimHold s).pu = s.pu := (evalTrimHold_only s) .pu (by decide)
@[simp] theorem evalTrimHold_ma (s : State) : (evalTrimHold s).ma = s.ma := (evalTrimHold_only s) .ma (by decide)
@[simp] theorem evalAttention_rm (s : State) : (evalAttention s).rm = s.rm := (evalAttention_only s) .rm (by decide)
@[simp] theorem evalAttention_rc (s : State) : (evalAttention s).rc = s.rc := (evalAttention_only s) .rc (by decide)
@[simp] theorem evalAttention_pu (s : State) : (evalAttention s).pu = s.pu := (evalAttention_only s) .pu (by decide)
@[simp] theorem evalAttention_ma (s : State) : (evalAttention s).ma = s.ma := (evalAttention_only s) .ma (by decide)
@[simp] theorem evalCaptureReady_te (s : State) : (evalCaptureReady s).te = s.te := (evalCaptureReady_only s) .te (by decide)
@[simp] theorem evalCaptureReady_rm (s : State) : (evalCaptureReady s).rm = s.rm := (evalCaptureReady_only s) .rm (by decide)
@[simp] theorem evalCaptureReady_pu (s : State) : (evalCaptureReady s).pu = s.pu := (evalCaptureReady_only s) .pu (by decide)
@[simp] theorem evalCaptureReady_ma (s : State) : (evalCaptureReady s).ma = s.ma := (evalCaptureReady_only s) .ma (by decide)

theorem evalCaptureReady_rc (s : State) : (evalCaptureReady s).rc = { s.rc with
    captureReady := decide (s.ma.setup.captureThreshold ≤ (s.rc.slots.toList.filter Slot.isStored).length) } :=
  report_rc ..

theorem evalTrimHold_trim (s : State) : (evalTrimHold s).trimShown := by
  unfold State.trimShown State.holdsTrim
  rw [evalTrimHold_te_eq, evalTrimHold_rc, evalTrimHold_rm, evalTrimHold_pu, evalTrimHold_ma]
  rfl

theorem evalTrimHold_attention {s : State} (h : s.attentionShown) : (evalTrimHold s).attentionShown := by
  refine h.congr ?_ fun v => ?_
  · rw [evalTrimHold_te_eq]
  · obtain hv | ⟨_, hv⟩ := evalTrimHold_valve s v
    · rw [hv]
    · rw [hv]
      rfl

theorem evalTrimHold_ready {s : State} (h : s.readyShown) : (evalTrimHold s).readyShown :=
  h.congr (by rw [evalTrimHold_rc]) (by rw [evalTrimHold_rc]) (by rw [evalTrimHold_ma])

theorem evalTrimHold_flags {s : State} (hattention : s.attentionShown) (hready : s.readyShown) :
    (evalTrimHold s).flagInv :=
  ⟨evalTrimHold_trim s, evalTrimHold_attention hattention, evalTrimHold_ready hready⟩

theorem evalAttention_trim {s : State} (h : s.trimShown) : (evalAttention s).trimShown := by
  refine h.congr ?_ ?_ ?_ ?_ ?_ ?_
  · rw [evalAttention_te]
  · rw [evalAttention_te]
  · rw [evalAttention_rm]
  · rw [evalAttention_rc]
  · rw [evalAttention_ma]
  · rw [evalAttention_pu]

theorem evalAttention_attention (s : State) : (evalAttention s).attentionShown := by
  unfold State.attentionShown
  rw [evalAttention_te]
  dsimp only
  rw [List.any_eq_true]
  constructor
  · rintro ⟨r, hr, hfault⟩
    obtain ⟨i, hi, rfl⟩ := List.getElem_of_mem hr
    rw [Vector.length_toList] at hi
    exact ⟨⟨i, hi⟩, by simpa using hfault⟩
  · rintro ⟨v, hv⟩
    exact ⟨s.te.valves[v], by simp, by simpa using hv⟩

theorem evalAttention_ready {s : State} (h : s.readyShown) : (evalAttention s).readyShown :=
  h.congr (by rw [evalAttention_rc]) (by rw [evalAttention_rc]) (by rw [evalAttention_ma])

theorem evalAttention_flags {s : State} (htrim : s.trimShown) (hready : s.readyShown) : (evalAttention s).flagInv :=
  ⟨evalAttention_trim htrim, evalAttention_attention s, evalAttention_ready hready⟩

theorem evalCaptureReady_trim {s : State} (h : s.trimShown) : (evalCaptureReady s).trimShown := by
  refine h.congr ?_ ?_ ?_ ?_ ?_ ?_
  · rw [evalCaptureReady_te]
  · rw [evalCaptureReady_te]
  · rw [evalCaptureReady_rm]
  · rw [evalCaptureReady_rc]
  · rw [evalCaptureReady_ma]
  · rw [evalCaptureReady_pu]

theorem evalCaptureReady_attention {s : State} (h : s.attentionShown) : (evalCaptureReady s).attentionShown :=
  h.congr (by rw [evalCaptureReady_te]) fun v => by rw [evalCaptureReady_te]

theorem evalCaptureReady_ready (s : State) : (evalCaptureReady s).readyShown := by
  unfold State.readyShown
  rw [evalCaptureReady_rc, evalCaptureReady_ma]
  simp

theorem evalCaptureReady_flags {s : State} (htrim : s.trimShown) (hattention : s.attentionShown) :
    (evalCaptureReady s).flagInv :=
  ⟨evalCaptureReady_trim htrim, evalCaptureReady_attention hattention, evalCaptureReady_ready s⟩

/-! ### The reactions -/

theorem State.SameGround.flags {s t : State} (h : s.SameGround t) (hs : s.flagInv) : t.flagInv := by
  obtain ⟨htrim, hattention, hready⟩ := hs
  refine ⟨State.trimShown.congr htrim ?_ ?_ h.tracking ?_ ?_ ?_, State.attentionShown.congr hattention ?_ fun v => ?_,
    State.readyShown.congr hready ?_ ?_ ?_⟩
  · rw [h.te]
  · rw [h.te]
  · rw [h.rc]
  · rw [h.setup]
  · rw [h.pu]
  · rw [h.te]
  · rw [h.te]
  · rw [h.rc]
  · rw [h.rc]
  · rw [h.setup]

/-- Another block alone, or counters and the like of Ring and Capture, changed. -/
theorem State.flagInv.congr {s t : State} (h : s.flagInv) (hte : t.te = s.te) (hfreeze : t.rc.freeze = s.rc.freeze)
    (hready : t.rc.captureReady = s.rc.captureReady) (hslots : t.rc.slots = s.rc.slots) (htracking : t.rm.tracking = s.rm.tracking)
    (hactive : t.pu.active = s.pu.active) (hsetup : t.ma.setup.holdTrimOnFreeze = s.ma.setup.holdTrimOnFreeze)
    (hthreshold : t.ma.setup.captureThreshold = s.ma.setup.captureThreshold) : t.flagInv := by
  obtain ⟨htrim, hattention, hshown⟩ := h
  exact ⟨State.trimShown.congr htrim (by rw [hte]) (by rw [hte]) htracking hfreeze hsetup hactive,
    State.attentionShown.congr hattention (by rw [hte]) fun v => by rw [hte], State.readyShown.congr hshown hready hslots hthreshold⟩

theorem writeRing_flags (e : RingEntry) {s : State} (h : s.flagInv) : (writeRing e s).flagInv := by
  unfold writeRing
  split
  · exact h.congr rfl rfl rfl rfl rfl rfl rfl rfl
  · exact h

theorem freezeRing_flags (cause : FreezeCause) {s : State} (h : s.flagInv) : (freezeRing cause s).flagInv := by
  have ⟨_, hattention, hready⟩ := h
  have hreported (rc : RingCapture) (hreadySame : rc.captureReady = s.rc.captureReady) (hslots : rc.slots = s.rc.slots) :
      (evalTrimHold (report s { s with rc := rc })).flagInv := by
    refine evalTrimHold_flags (State.attentionShown.congr hattention ?_ fun v => ?_) (State.readyShown.congr hready ?_ ?_ ?_)
    · rw [report_te]
    · rw [report_te]
    · rw [report_rc, hreadySame]
    · rw [report_rc, hslots]
    · rw [report_ma]
  unfold freezeRing
  split
  · exact hreported _ rfl rfl
  · split
    · exact evalTrimHold_flags (State.attentionShown.congr hattention rfl fun v => Iff.rfl)
        (State.readyShown.congr hready rfl rfl rfl)
    · exact h
  · exact h

theorem noteOutcome_flags (b : Bool) {s : State} (h : s.flagInv) : (noteOutcome b s).flagInv := by
  have hburst : State.flagInv { s with rc := { s.rc with burst := pushBounded Config.ringCapacity s.rc.burst b } } :=
    h.congr rfl rfl rfl rfl rfl rfl rfl rfl
  unfold noteOutcome
  dsimp only
  split
  · exact freezeRing_flags _ hburst
  · exact hburst

theorem setTracking_flags (st : TrackingState) {s : State} (h : s.flagInv) : (setTracking st s).flagInv := by
  have ⟨_, hattention, hready⟩ := h
  have hset : (evalTrimHold (report s { s with rm := { s.rm with tracking := st } })).flagInv := by
    refine evalTrimHold_flags (State.attentionShown.congr hattention ?_ fun v => ?_) (State.readyShown.congr hready ?_ ?_ ?_)
    · rw [report_te]
    · rw [report_te]
    · rw [report_rc]
    · rw [report_rc]
    · rw [report_ma]
  unfold setTracking
  dsimp only
  split
  · exact h
  · split
    · exact freezeRing_flags _ hset
    · exact hset

theorem Reacts.flags {s t : State} (h : Reacts s t) (hs : s.flagInv) : t.flagInv := by
  induction h with
  | refl => exact hs
  | other _ hsame ih => exact hsame.flags ih
  | write _ e ih => exact writeRing_flags e ih
  | outcome _ b ih => exact noteOutcome_flags b ih
  | freeze _ cause ih => exact freezeRing_flags cause ih
  | track _ st ih => exact setTracking_flags st ih

end Sys2Proof.Machine
end

section
/-!
PROOFS, the condition flags through the Trim Engine, Ring and Capture, the commits and the resets.
-/

namespace Sys2Proof.Machine

/-! ### Valve records replaced -/

/-- Valves and Rewriter changed, no valve entering or leaving FAULT. -/
theorem State.flagInv.congr_valves {s t : State} (h : s.flagInv) (htrimHold : t.te.trimHold = s.te.trimHold)
    (hmode : t.te.mode = s.te.mode) (hattention : t.te.attention = s.te.attention)
    (hfault : ∀ v : Fin Config.valves, t.te.valves[v].state = .fault ↔ s.te.valves[v].state = .fault)
    (hrm : t.rm = s.rm) (hrc : t.rc = s.rc) (hpu : t.pu = s.pu) (hma : t.ma = s.ma) : t.flagInv := by
  obtain ⟨htrim, hshown, hready⟩ := h
  exact ⟨State.trimShown.congr htrim htrimHold hmode (by rw [hrm]) (by rw [hrc]) (by rw [hma]) (by rw [hpu]),
    State.attentionShown.congr hshown hattention hfault,
    State.readyShown.congr hready (by rw [hrc]) (by rw [hrc]) (by rw [hma])⟩

theorem setValve_fault_iff {s : State} {v : Fin Config.valves} {r : ValveRecord}
    (hr : r.state = .fault ↔ s.te.valves[v].state = .fault) (u : Fin Config.valves) :
    (s.setValve v r).te.valves[u].state = .fault ↔ s.te.valves[u].state = .fault := by
  by_cases h : v = u
  · subst h
    rw [State.setValve_same, hr]
  · rw [s.setValve_other r h]

theorem setValve_flags (v : Fin Config.valves) (r : ValveRecord) {s : State} (h : s.flagInv)
    (hr : r.state = .fault ↔ s.te.valves[v].state = .fault) : (s.setValve v r).flagInv :=
  h.congr_valves rfl rfl rfl (setValve_fault_iff hr) rfl rfl rfl rfl

theorem mapValves_fault_iff {s : State} {f : Fin Config.valves → ValveRecord → ValveRecord}
    (hf : ∀ v r, (f v r).state = .fault ↔ r.state = .fault) (v : Fin Config.valves) :
    (s.mapValves f).te.valves[v].state = .fault ↔ s.te.valves[v].state = .fault := by
  rw [s.mapValves_get f v]
  exact hf v _

theorem mapValves_flags (f : Fin Config.valves → ValveRecord → ValveRecord) {s : State} (h : s.flagInv)
    (hf : ∀ v r, (f v r).state = .fault ↔ r.state = .fault) : (s.mapValves f).flagInv :=
  h.congr_valves (by simp only [State.mapValves_te]) (by simp only [State.mapValves_te]) (by simp only [State.mapValves_te])
    (mapValves_fault_iff hf) (State.mapValves_rm ..) (State.mapValves_rc ..) (State.mapValves_pu ..) (State.mapValves_ma ..)

/-- Whatever becomes of the valve records and the Rewriter, the evaluation of VALVE_ATTENTION restores the flags. -/
theorem evalAttention_flags_of_valves {s t : State} (h : s.flagInv) (htrimHold : t.te.trimHold = s.te.trimHold)
    (hmode : t.te.mode = s.te.mode) (hrm : t.rm = s.rm) (hrc : t.rc = s.rc) (hpu : t.pu = s.pu) (hma : t.ma = s.ma) :
    (evalAttention t).flagInv := by
  obtain ⟨htrim, _, hready⟩ := h
  exact evalAttention_flags
    (State.trimShown.congr htrim htrimHold hmode (by rw [hrm]) (by rw [hrc]) (by rw [hma]) (by rw [hpu]))
    (State.readyShown.congr hready (by rw [hrc]) (by rw [hrc]) (by rw [hma]))

/-- The records of all valves mapped, with clear requests, and VALVE_ATTENTION evaluated. -/
theorem evalAttention_mapped_flags (p : Fin Config.valves → Bool) (f : Fin Config.valves → ValveRecord → ValveRecord) {s : State}
    (h : s.flagInv) : (evalAttention (clearRequests p (s.mapValves f))).flagInv := by
  refine evalAttention_flags_of_valves h ?_ ?_ ?_ ?_ ?_ ?_
  all_goals simp only [clearRequests, State.mapValves_te, State.mapValves_rm, State.mapValves_rc, State.mapValves_pu,
    State.mapValves_ma]

/-! ### The Trim Engine -/

theorem not_fault_of_follows {r : ValveRecord} (h : r.follows = true) : r.state ≠ .fault := by
  intro hfault
  simp [ValveRecord.follows, hfault] at h

theorem iff_of_not_fault {a b : ValveState} (ha : a ≠ .fault) (hb : b ≠ .fault) : a = .fault ↔ b = .fault :=
  iff_of_false ha hb

theorem enterFault_flags (v : Fin Config.valves) {s : State} (h : s.flagInv) : (enterFault v s).flagInv := by
  unfold enterFault
  dsimp only
  split
  · exact evalAttention_flags_of_valves h rfl rfl rfl rfl rfl rfl
  · exact h

theorem settle_not_fault {r : ValveRecord} (h : r.follows = true) : r.settle.state ≠ .fault := by
  unfold ValveRecord.settle
  dsimp only
  split
  · simp
  · exact not_fault_of_follows h

theorem followDischarge_flags (v : Fin Config.valves) (a b : Bool) {s : State} (h : s.flagInv) :
    (followDischarge v a b s).flagInv := by
  unfold followDischarge
  dsimp only
  split
  · next hcondition =>
    have hfollows : s.te.valves[v].follows = true := by
      simp only [Bool.and_eq_true] at hcondition
      exact hcondition.2
    split
    · exact setValve_flags v _ h (iff_of_not_fault (settle_not_fault hfollows) (not_fault_of_follows hfollows))
    · split
      · exact enterFault_flags v (setValve_flags v _ h Iff.rfl)
      · exact h
  · exact h

theorem setPointChanged_flags (v : Fin Config.valves) {s : State} (h : s.flagInv) : (setPointChanged v s).flagInv := by
  unfold setPointChanged
  dsimp only
  split
  · next hcondition =>
    have hfollows : s.te.valves[v].follows = true := by
      simp only [Bool.and_eq_true] at hcondition
      exact hcondition.2
    exact setValve_flags v _ h (iff_of_not_fault (by simp) (not_fault_of_follows hfollows))
  · exact h

/-- A decision leaves the state of the valve or makes it SETTLING (R143 to R145). -/
theorem trimDecision_state_cases (p : Product) (can : Word32) (r : ValveRecord) :
    (trimDecision p can r).1.state = r.state ∨ (trimDecision p can r).1.state = .settling := by
  unfold trimDecision
  dsimp only
  split
  · exact .inl rfl
  · split
    · exact .inl rfl
    · split
      · exact .inl rfl
      · generalize (if 0 < r.eAvg then r.trim - stepMagnitude p r.eAvg else r.trim + stepMagnitude p r.eAvg) = candidate
        split
        · exact .inl rfl
        · exact .inr rfl

theorem feedValve_flags (v : Fin Config.valves) (p : Product) (net : Int) (can : Word32) {s : State} (h : s.flagInv)
    (hcollecting : s.te.valves[v].state = .collecting) : (feedValve v p net can s).flagInv := by
  have hset : (s.setValve v (trimDecision p can (fedRecord p net s.te.valves[v])).1).flagInv := by
    refine setValve_flags v _ h (iff_of_not_fault ?_ (by rw [hcollecting]; decide))
    obtain hd | hd := trimDecision_state_cases p can (fedRecord p net s.te.valves[v])
    · rw [hd, fedRecord, hcollecting]
      decide
    · rw [hd]
      decide
  unfold feedValve
  dsimp only
  split
  · exact hset.congr_valves rfl rfl rfl (fun _ => Iff.rfl) rfl rfl rfl rfl
  · exact hset

theorem collecting_of_feeds {s : State} {v : Fin Config.valves} {j : Judged} (h : s.feeds v j = true) :
    s.te.valves[v].state = .collecting := by
  unfold State.feeds at h
  simp only [Bool.and_eq_true, beq_iff_eq] at h
  exact h.1.1.1.1.1.2

theorem weighValve_flags (j : Judged) {s : State} (h : s.flagInv) : (weighValve j s).flagInv := by
  unfold weighValve
  split
  · exact h
  · next v _ =>
    have hcount : (countJudged v j s).flagInv := setValve_flags v _ h Iff.rfl
    dsimp only
    split
    · split
      · next hfeeds => exact feedValve_flags _ _ _ _ hcount (collecting_of_feeds hfeeds)
      · exact hcount
    · exact hcount

theorem applyValveCommit_flags (old : Vector ValveEntry Config.valves) (first count : Nat) {s : State} (h : s.flagInv) :
    (applyValveCommit old first count s).flagInv :=
  evalAttention_mapped_flags _ _ h

theorem setTrimMode_flags (mode : TrimMode) {s : State} (h : s.flagInv) : (setTrimMode mode s).flagInv := by
  have ⟨_, hattention, hready⟩ := h
  unfold setTrimMode
  split
  · exact h
  · have hmode : State.attentionShown { s with te := { s.te with mode := mode } } :=
      State.attentionShown.congr hattention rfl fun _ => Iff.rfl
    have hmodeReady : State.readyShown { s with te := { s.te with mode := mode } } :=
      State.readyShown.congr hready rfl rfl rfl
    have hmap (f : Fin Config.valves → ValveRecord → ValveRecord) (hf : ∀ v r, (f v r).state = .fault ↔ r.state = .fault) :
        (evalTrimHold (State.mapValves { s with te := { s.te with mode := mode } } f)).flagInv :=
      evalTrimHold_flags (State.attentionShown.congr hmode (by simp only [State.mapValves_te]) (mapValves_fault_iff hf))
        (State.readyShown.congr hmodeReady (by rw [State.mapValves_rc]) (by rw [State.mapValves_rc]) (by rw [State.mapValves_ma]))
    dsimp only
    split
    · refine hmap _ fun v r => ?_
      split
      · next hcondition =>
        simp only [Bool.and_eq_true, bne_iff_ne, ne_eq] at hcondition
        exact iff_of_not_fault (by simp) hcondition.2
      · exact Iff.rfl
    · refine hmap _ fun v r => ?_
      split <;> exact Iff.rfl
    · exact evalTrimHold_flags hmode hmodeReady

theorem releaseFault_flags (v : Fin Config.valves) {s : State} (h : s.flagInv) : (releaseFault v s).flagInv := by
  unfold releaseFault
  dsimp only
  split
  · exact evalAttention_flags_of_valves h rfl rfl rfl rfl rfl rfl
  · exact h

theorem applySelection_flags {s : State} (h : s.readyShown) : (applySelection s).flagInv := by
  unfold applySelection
  refine evalTrimHold_flags (evalAttention_attention _) (evalAttention_ready ?_)
  exact State.readyShown.congr h rfl rfl rfl

theorem statisticsReset_flags {s : State} (h : s.flagInv) : (statisticsReset s).flagInv := by
  unfold statisticsReset
  refine mapValves_flags _ ?_ fun _ _ => Iff.rfl
  exact h.congr rfl rfl rfl rfl rfl rfl rfl rfl

/-! ### The Rewriter -/

theorem rewriteDose_flags (payload : List Byte) (frame : Frame) {s : State} (h : s.flagInv) :
    (rewriteDose payload frame s).1.flagInv := by
  have hrw (t : State) (ht : t.flagInv) (x : Rewriter) : (t.withRw x).flagInv := ht.congr rfl rfl rfl rfl rfl rfl rfl rfl
  have hentry (p : Product) (first : Nat) (r : Rewrite) (i : Nat) (hr : r.state.flagInv) :
      (rewriteEntry p first r i).state.flagInv := by
    unfold rewriteEntry
    split
    · exact hr
    · have hclamp (b : Bool) : (countClamp b r.state).flagInv := by
        unfold countClamp
        split
        · exact hrw _ hr _
        · exact hr
      dsimp only
      unfold noteWritten
      split
      · exact hclamp _
      · exact setPointChanged_flags _ (hrw _ (hclamp _) _)
  have hfold (p : Product) (first : Nat) (x : List Nat) (r : Rewrite) (hr : r.state.flagInv) :
      (x.foldl (rewriteEntry p first) r).state.flagInv := by
    induction x generalizing r with
    | nil => exact hr
    | cons i rest ih => exact ih _ (hentry p first r i hr)
  unfold rewriteDose rewriteEntries
  dsimp only
  repeat' split
  · exact h
  · exact h
  · exact hrw _ (hfold _ _ _ _ h) _
  · exact hfold _ _ _ _ h

/-! ### Ring and Capture -/

theorem armValve_flags (v : Fin Config.valves) {s : State} (h : s.flagInv) : (armValve v s).flagInv := by
  unfold armValve
  dsimp only
  split
  · exact setValve_flags v _ h Iff.rfl
  · exact h

/-- Whatever becomes of the captures, the evaluation of CAPTURE_READY restores the flags. -/
theorem evalCaptureReady_flags_of_captures {s : State} (h : s.flagInv) {rc : RingCapture} (hfreeze : rc.freeze = s.rc.freeze) :
    (evalCaptureReady { s with rc := rc }).flagInv := by
  have ⟨htrim, hattention, _⟩ := h
  exact evalCaptureReady_flags (State.trimShown.congr htrim rfl rfl rfl hfreeze rfl rfl)
    (State.attentionShown.congr hattention rfl fun _ => Iff.rfl)

theorem storeCapture_flags (j : Judged) {s : State} (h : s.flagInv) : (storeCapture j s).1.flagInv := by
  have hcounted (c : CaptureCounters) : State.flagInv { s with rc := { s.rc with counters := c } } :=
    h.congr rfl rfl rfl rfl rfl rfl rfl rfl
  have hput (i : Fin 4) {t : State} (ht : t.flagInv) : (putCapture i j t).flagInv :=
    evalCaptureReady_flags_of_captures ht rfl
  unfold storeCapture
  split
  · dsimp only
    exact hput _ h
  · split
    · split
      · dsimp only
        exact hput _ (hcounted _)
      · exact hcounted _
    · exact hcounted _

theorem captureJudged_flags (j : Judged) {s : State} (h : s.flagInv) : (captureJudged j s).flagInv := by
  have harmed (v : Fin Config.valves) : (captureArmed v j s).flagInv := by
    have hstored := storeCapture_flags j h
    unfold captureArmed
    dsimp only
    generalize storeCapture j s = c at hstored ⊢
    repeat' split
    · exact setValve_flags v _ hstored Iff.rfl
    · exact hstored
    · exact h
  unfold captureJudged
  split
  · exact h
  · next v _ =>
    dsimp only
    split
    · exact h
    · exact armValve_flags v (setValve_flags v _ (harmed v) Iff.rfl)

theorem startUpload_flags {s : State} (h : s.flagInv) : (startUpload s).flagInv := by
  unfold startUpload
  repeat' split
  · exact h
  · exact evalCaptureReady_flags_of_captures h rfl
  · exact h
  · exact h
  · exact h

theorem completeUpload_flags (i : Fin 4) {s : State} (h : s.flagInv) : (completeUpload i s).flagInv := by
  unfold completeUpload
  dsimp only
  exact startUpload_flags (evalCaptureReady_flags_of_captures h rfl)

theorem produceSegment_flags {s : State} (h : s.flagInv) : (produceSegment s).flagInv := by
  have hoffered (fp : FramePath) : State.flagInv { s with fp := fp } := h.congr rfl rfl rfl rfl rfl rfl rfl rfl
  unfold produceSegment
  dsimp only
  repeat' split
  · exact h
  · exact h
  · exact h.congr rfl rfl rfl rfl rfl rfl rfl rfl
  · exact completeUpload_flags _ (hoffered _)
  · exact h
  · exact h
  · exact h

theorem thawRing_flags {s : State} (h : s.flagInv) : (thawRing s).flagInv := by
  have ⟨_, hattention, hready⟩ := h
  unfold thawRing
  split
  · exact h
  · refine evalTrimHold_flags (State.attentionShown.congr hattention ?_ fun v => ?_) (State.readyShown.congr hready ?_ ?_ ?_)
    · rw [report_te]
    · rw [report_te]
    · rw [report_rc]
    · rw [report_rc]
    · rw [report_ma]

theorem discardCaptures_flags {s : State} (h : s.flagInv) : (discardCaptures s).flagInv :=
  evalCaptureReady_flags_of_captures h rfl

theorem resetCaptureState_flags {s : State} (h : s.attentionShown) : (resetCaptureState s).flagInv := by
  have hthawed : (evalTrimHold (report s { s with rc := { s.rc with
      ring := [], burst := [], freeze := .notFrozen, cause := none } })).attentionShown := by
    refine evalTrimHold_attention (State.attentionShown.congr h ?_ fun v => ?_)
    · rw [report_te]
    · rw [report_te]
  have htrim := evalTrimHold_trim (report s { s with rc := { s.rc with
      ring := [], burst := [], freeze := .notFrozen, cause := none } })
  unfold resetCaptureState
  dsimp only
  generalize evalTrimHold _ = t at hthawed htrim ⊢
  exact evalCaptureReady_flags (State.trimShown.congr htrim rfl rfl rfl rfl rfl rfl)
    (State.attentionShown.congr hthawed rfl fun _ => Iff.rfl)

end Sys2Proof.Machine
end

section
/-!
PROOFS, the condition flags through the commits and through every row.
-/

namespace Sys2Proof.Machine

/-! ### A LINE_SETUP commit -/

/-- The flags while a Line Setup commit is delivered: one whose field changed is still to be evaluated. -/
structure State.FlagsDue (old : LineSetup) (s : State) : Prop where
  trim : old.holdTrimOnFreeze = s.ma.setup.holdTrimOnFreeze → s.trimShown
  attention : s.attentionShown
  ready : old.captureThreshold = s.ma.setup.captureThreshold → s.readyShown

theorem State.flagInv.due {s : State} (h : s.flagInv) (u : LineSetup) : (s.withSetup u).FlagsDue s.ma.setup := by
  obtain ⟨htrim, hattention, hready⟩ := h
  exact ⟨fun hsame => State.trimShown.congr htrim rfl rfl rfl rfl hsame.symm rfl,
    State.attentionShown.congr hattention rfl fun _ => Iff.rfl, fun hsame => State.readyShown.congr hready rfl rfl hsame.symm⟩

theorem commitGrid_due {old : LineSetup} {s : State} (h : s.FlagsDue old) : (commitGrid old s).FlagsDue old := by
  unfold commitGrid
  dsimp only
  split
  · exact h
  · exact ⟨fun hsame => State.trimShown.congr (h.trim hsame) rfl rfl rfl rfl rfl rfl,
      State.attentionShown.congr h.attention rfl fun _ => Iff.rfl, fun hsame => State.readyShown.congr (h.ready hsame) rfl rfl rfl⟩

theorem applyValveCount_due (count : Nat) {old : LineSetup} {s : State} (h : s.FlagsDue old) :
    (applyValveCount count s).FlagsDue old := by
  have hmapped (p : Fin Config.valves → Bool) (f : Fin Config.valves → ValveRecord → ValveRecord) :
      (evalAttention (clearRequests p (s.mapValves f))).FlagsDue old := by
    have hma : (clearRequests p (s.mapValves f)).ma = s.ma := by simp only [clearRequests, State.mapValves_ma]
    refine ⟨fun hsame => ?_, evalAttention_attention _, fun hsame => ?_⟩
    · rw [evalAttention_ma, hma] at hsame
      refine evalAttention_trim (State.trimShown.congr (h.trim hsame) ?_ ?_ ?_ ?_ ?_ ?_)
      all_goals simp only [clearRequests, State.mapValves_te, State.mapValves_rm, State.mapValves_rc, State.mapValves_pu,
        State.mapValves_ma]
    · rw [evalAttention_ma, hma] at hsame
      refine evalAttention_ready (State.readyShown.congr (h.ready hsame) ?_ ?_ ?_)
      all_goals simp only [clearRequests, State.mapValves_rc, State.mapValves_ma]
  unfold applyValveCount
  dsimp only
  split
  · exact h
  · exact hmapped _ _

theorem commitTrimHold_due {old : LineSetup} {s : State} (h : s.FlagsDue old) :
    (commitTrimHold old s).FlagsDue old ∧ (commitTrimHold old s).trimShown := by
  unfold commitTrimHold
  split
  · next hsame => exact ⟨h, h.trim hsame⟩
  · refine ⟨⟨fun _ => evalTrimHold_trim s, evalTrimHold_attention h.attention, fun hsame => ?_⟩, evalTrimHold_trim s⟩
    rw [evalTrimHold_ma] at hsame
    exact evalTrimHold_ready (h.ready hsame)

theorem abandonUpload_due {old : LineSetup} {s : State} (h : s.FlagsDue old) (htrim : s.trimShown) :
    (abandonUpload s).FlagsDue old ∧ (abandonUpload s).trimShown := by
  have hcaptures (rc : RingCapture) (hfreeze : rc.freeze = s.rc.freeze) : (evalCaptureReady { s with rc := rc }).flagInv :=
    evalCaptureReady_flags (State.trimShown.congr htrim rfl rfl rfl hfreeze rfl rfl)
      (State.attentionShown.congr h.attention rfl fun _ => Iff.rfl)
  have hdone {t : State} (ht : t.flagInv) : t.FlagsDue old ∧ t.trimShown :=
    ⟨⟨fun _ => ht.1, ht.2.1, fun _ => ht.2.2⟩, ht.1⟩
  unfold abandonUpload
  split
  · exact ⟨h, htrim⟩
  · exact hdone (hcaptures _ rfl)

theorem commitCollector_due {old : LineSetup} {s : State} (h : s.FlagsDue old) (htrim : s.trimShown) :
    (commitCollector old s).FlagsDue old ∧ (commitCollector old s).trimShown := by
  have hcleared : (if old.collector = s.ma.setup.collector then s else clearHold s).FlagsDue old ∧
      (if old.collector = s.ma.setup.collector then s else clearHold s).trimShown := by
    split
    · exact ⟨h, htrim⟩
    · exact ⟨⟨fun _ => State.trimShown.congr htrim rfl rfl rfl rfl rfl rfl,
        State.attentionShown.congr h.attention rfl fun _ => Iff.rfl,
        fun hsame => State.readyShown.congr (h.ready hsame) rfl rfl rfl⟩,
        State.trimShown.congr htrim rfl rfl rfl rfl rfl rfl⟩
  unfold commitCollector
  dsimp only
  split
  · exact hcleared
  · exact abandonUpload_due hcleared.1 hcleared.2

theorem commitThreshold_flags {old : LineSetup} {s : State} (h : s.FlagsDue old) (htrim : s.trimShown) :
    (commitThreshold old s).flagInv := by
  unfold commitThreshold
  split
  · next hsame => exact ⟨htrim, h.attention, h.ready hsame⟩
  · exact evalCaptureReady_flags htrim h.attention

theorem commitInterval_flags (old : LineSetup) {s : State} (h : s.flagInv) : (commitInterval old s).flagInv := by
  unfold commitInterval
  dsimp only
  repeat' split
  · exact h.congr rfl rfl rfl rfl rfl rfl rfl rfl
  · exact h.congr rfl rfl rfl rfl rfl rfl rfl rfl
  · exact h

theorem deliverSetup_flags (u : LineSetup) {s : State} (h : s.flagInv) :
    (deliverSetup s.ma.setup (s.withSetup u)).flagInv := by
  unfold deliverSetup
  have hvalves := applyValveCount_due s.ma.setup.valveCount (commitGrid_due (h.due u))
  obtain ⟨hhold, htrim⟩ := commitTrimHold_due hvalves
  obtain ⟨hcollector, htrim'⟩ := commitCollector_due hhold htrim
  exact commitInterval_flags _ (commitThreshold_flags hcollector htrim')

theorem commitTable_flags (table : TableId) (first : Nat) (entries : List (List Byte)) {s : State} (h : s.flagInv) :
    (commitTable table first entries s).1.flagInv := by
  have hother {l : List Block} {t : State} (k : OnlyChanges l s t)
      (hl : ∀ b ∈ l, b ≠ .te ∧ b ≠ .rc ∧ b ≠ .pu ∧ b ≠ .rm ∧ b ≠ .ma) : t.flagInv :=
    ((Reacts.refl s).only k hl).flags h
  unfold commitTable
  cases table <;> dsimp only
  case channel => exact hother (commitChannel_only first entries s) (by decide)
  case lineSetup =>
    unfold commitLineSetup refuseAt
    split
    · exact h
    · next u _ => exact deliverSetup_flags u h
  case calibration => exact hother (commitCalibration_only entries s) (by decide)
  case product =>
    unfold commitProduct refuseAt
    repeat' split
    · exact h
    · exact h
    · exact h.congr rfl rfl rfl rfl rfl rfl rfl rfl
  case valve =>
    have htable (x : Vector ValveEntry Config.valves) : State.flagInv { s with te := { s.te with table := x } } :=
      h.congr_valves rfl rfl rfl (fun _ => Iff.rfl) rfl rfl rfl rfl
    unfold commitValve refuseAt
    split
    · exact h
    · dsimp only
      exact applyValveCommit_flags _ _ _ (htable _)
  case policy => exact hother (commitPolicy_only first entries s) (by decide)

/-- The Agent changed but for its Line Setup record. -/
theorem agent_flags {s t : State} (h : s.flagInv) (k : OnlyChanges agentBlocks s t) (hsetup : t.ma.setup = s.ma.setup) :
    t.flagInv :=
  State.SameGround.flags ⟨k .te (by decide), k .rc (by decide), k .pu (by decide), congrArg Reader.tracking (k .rm (by decide)), hsetup⟩ h

theorem segmentBody_flags (args : List Byte) {s : State} (h : s.flagInv) : (segmentBody args s).1.flagInv := by
  have hfailed : (failLoad s).flagInv := agent_flags h (failLoad_only s) (failLoad_ma s).setup
  have hended {t : State} (ht : t.flagInv) : (endLoad t).flagInv :=
    agent_flags ht (endLoad_only t) (by rw [endLoad_ma]; rfl)
  unfold segmentBody takeSegment refuse
  repeat' split
  · exact h
  · dsimp only
    exact hfailed
  · dsimp only
    exact hfailed
  · dsimp only
    exact agent_flags h (withMa_only s _ |>.mono (by decide)) rfl
  · unfold lastSegment
    dsimp only
    exact hended (commitTable_flags _ _ _ h)

/-! ### Every row -/

theorem finish_flags (c : Copy) (r : Reply) {s : State} (h : s.flagInv) : (finish c r s).flagInv :=
  agent_flags h (finish_only c r s) rfl

theorem reset_flags {s : State} (hte : s.te = State.reset.te) (hrm : s.rm = State.reset.rm) (hrc : s.rc = State.reset.rc)
    (hpu : s.pu = State.reset.pu) (hsetup : s.ma.setup = State.reset.ma.setup) : s.flagInv := by
  refine State.SameGround.flags (s := State.reset) ⟨hte, hrc, hpu, congrArg Reader.tracking hrm, hsetup⟩ ⟨rfl, ?_, ?_⟩
  · have hrecord (v : Fin Config.valves) : State.reset.te.valves[v] = {} := by simp [State.reset]
    simp only [hrecord]
    exact iff_of_false (by decide) (by simp)
  · decide

theorem fullReset_flags (s : State) : (fullReset s).flagInv :=
  reset_flags rfl rfl rfl rfl rfl

theorem clearAlarms_flags {s : State} (h : s.flagInv) : (clearAlarms s).flagInv := by
  have hground := clearAlarms_only s
  have hrm : (clearAlarms s).rm = s.rm := hground .rm (by decide)
  exact State.SameGround.flags ⟨hground .te (by decide), hground .rc (by decide), hground .pu (by decide),
    congrArg Reader.tracking hrm, (clearAlarms_ma s).setup⟩ h

theorem beginLoad_flags (args : List Byte) {s : State} (h : s.flagInv) : (beginLoad args s).1.flagInv := by
  refine agent_flags h (beginLoad_only args s) ?_
  unfold beginLoad refuse
  dsimp only
  repeat' split
  · rfl
  · rfl
  · rfl
  · rw [report_ma]
    rfl

theorem abortLoad_flags {s : State} (h : s.flagInv) : (abortLoad s).flagInv := by
  refine agent_flags h (abortLoad_only s) ?_
  unfold abortLoad
  split
  · rw [endLoad_ma]
    rfl
  · rfl

theorem loadReset_flags {s : State} (h : s.flagInv) : (loadReset s).flagInv :=
  (abortLoad_flags h).congr rfl rfl rfl rfl rfl rfl rfl rfl

theorem selectBody_flags (args : List Byte) {s : State} (h : s.flagInv) : (selectBody args s).1.flagInv := by
  have ⟨_, _, hready⟩ := h
  have hselect (k : Option (Fin 16)) : (selectProduct k s).flagInv :=
    applySelection_flags (State.readyShown.congr hready rfl rfl rfl)
  unfold selectBody refuse
  dsimp only
  repeat' split
  · dsimp only
    exact hselect _
  · dsimp only
    exact hselect _
  · exact h
  · exact h

theorem setLotBody_flags (args : List Byte) {s : State} (h : s.flagInv) : (setLotBody args s).1.flagInv := by
  unfold setLotBody refuse
  repeat' split
  · exact h
  · exact h
  · dsimp only
    exact h.congr rfl rfl rfl rfl rfl rfl rfl rfl

theorem trimBody_flags (args : List Byte) {s : State} (h : s.flagInv) : (trimBody args s).1.flagInv := by
  unfold trimBody refuse
  split
  · exact setTrimMode_flags .off h
  · exact setTrimMode_flags .hold h
  · exact setTrimMode_flags .auto h
  · exact h

theorem releaseBody_flags (args : List Byte) {s : State} (h : s.flagInv) : (releaseBody args s).1.flagInv := by
  unfold releaseBody refuse
  split
  · exact releaseFault_flags _ h
  · exact h

theorem captureControlBody_flags (args : List Byte) {s : State} (h : s.flagInv) : (captureControlBody args s).1.flagInv := by
  have hset (on : Bool) : (setUpload on s).flagInv := h.congr rfl rfl rfl rfl rfl rfl rfl rfl
  unfold captureControlBody refuse
  split
  · exact h
  · exact hset _

theorem clearAllCounters_flags {s : State} (h : s.flagInv) : (clearAllCounters s).flagInv :=
  h.congr rfl rfl rfl rfl rfl rfl rfl rfl

theorem CommandKind.body_flags (k : CommandKind) (args : List Byte) {s : State} (h : s.flagInv) :
    (k.body args s).1.flagInv := by
  by_cases hk : ∀ b ∈ k.touches, b ≠ .te ∧ b ≠ .rc ∧ b ≠ .pu ∧ b ≠ .rm ∧ b ≠ .ma
  · exact ((Reacts.refl s).only (k.body_only args s) hk).flags h
  · cases k <;> dsimp only [CommandKind.body] <;> try exact absurd (by decide) hk
    case loadBegin => exact beginLoad_flags args h
    case loadAbort => exact abortLoad_flags h
    case loadSegment => exact segmentBody_flags args h
    case selectProduct => exact selectBody_flags args h
    case setLot => exact setLotBody_flags args h
    case trimControl => exact trimBody_flags args h
    case releaseValve => exact releaseBody_flags args h
    case clearCounters => exact clearAllCounters_flags h
    case clearAlarms => exact clearAlarms_flags h
    case ringFreeze => exact freezeRing_flags .command h
    case ringThaw => exact thawRing_flags h
    case captureControl => exact captureControlBody_flags args h
    case captureDiscard => exact discardCaptures_flags h
    case resetFull => exact fullReset_flags s
    case resetTracking => exact (trackingReset_reacts (.refl s)).flags h
    case resetStatistics => exact statisticsReset_flags h
    case resetLoad => exact loadReset_flags h
    case resetCapture => exact resetCaptureState_flags h.2.1

theorem assignWeigh_flags (r : CanRecord) (w : WindowResult) {s : State} (h : s.flagInv) : (assignWeigh r w s).flagInv := by
  unfold assignWeigh
  dsimp only
  have hjudged := (judgeRecord_reacts { r with result := some w } w (withQueue_reacts
    (updateFirst CanRecord.isPassed (fun x => { x with result := some w }) s.tq.queue) (.refl s))).flags h
  generalize judgeRecord _ w _ = o at hjudged ⊢
  have hon : (handOn o.2 o.1).flagInv := captureJudged_flags _ (weighValve_flags _ hjudged)
  generalize handOn o.2 o.1 = u at hon ⊢
  exact (handJudged_reacts _ _ (withQueue_reacts _ (Reacts.refl u))).flags hon

theorem nextResult_flags {s : State} (h : s.flagInv) : (nextResult s).flagInv := by
  have htake (w : WindowResult) (t : State) (ht : t.flagInv) : (takeResult w t).flagInv := by
    unfold takeResult
    split
    · exact (orphanWeigh_reacts w (.refl t)).flags ht
    · exact assignWeigh_flags _ w ht
  unfold nextResult
  split
  · exact h
  · next w rest _ =>
    exact htake w (s.withFe { s.fe with results := rest }) (h.congr rfl rfl rfl rfl rfl rfl rfl rfl)

theorem takeDischarge_flags (c : Copy) {s : State} (h : s.flagInv) : (takeDischarge c s).flagInv := by
  have hgap : (dischargeGap c.sequence s).flagInv := (dischargeGap_reacts c.sequence (.refl s)).flags h
  unfold takeDischarge
  generalize dischargeGap c.sequence s = t at hgap ⊢
  dsimp only
  split
  · exact (withTrackingCounters_reacts _ (Reacts.refl t).tq).flags hgap
  · unfold admitDischarge
    split
    · exact (createRecord_reacts _ _ (Reacts.refl t).tq).flags hgap
    · exact followDischarge_flags _ _ _ ((createRecord_reacts _ _ (Reacts.refl t).tq).flags hgap)

theorem receiveFrame_flags (p : Port) (whole : Bool) (frame : Frame) {s : State} (h : s.flagInv) :
    (receiveFrame p whole frame s).flagInv := by
  have hfp {t u : State} (ht : t.flagInv) (k : OnlyChanges [.fp] t u) : u.flagInv := ((Reacts.refl t).only k (by decide)).flags ht
  have hcounted (t : State) (ht : t.flagInv) (x : FramePath) : (t.withFp x).flagInv := ht.congr rfl rfl rfl rfl rfl rfl rfl rfl
  have hforward {t : State} (ht : t.flagInv) (q : Port) (x : Frame) : (forwardFrame q x t).flagInv :=
    hfp ht (forwardFrame_only q x t)
  have hunless {t : State} (ht : t.flagInv) (b : Bool) (q : Port) (x : Frame) : (forwardUnless b q x t).flagInv :=
    hfp ht (forwardUnless_only b q x t)
  have hintake {t : State} (ht : t.flagInv) (c : Copy) : (offerIntake c t).flagInv :=
    hfp (agent_flags ht (joinIntake_only c t) (joinIntake_ma c t).setup) (holdArrival_only c _)
  have hclassify {t : State} (ht : t.flagInv) (c : Copy) : (classifyFrame c frame t).flagInv := by
    unfold classifyFrame
    repeat' split
    · exact hforward ht _ _
    · unfold stationFrame
      split
      · exact hforward ht _ _
      · unfold matchedFrame
        dsimp only
        repeat' split
        · exact hunless (hcounted _ ht _) _ _ _
        · exact hforward (rewriteDose_flags _ _ ht) _ _
        · exact hunless (hcounted _ ht _) _ _ _
    · unfold mgmtFrame
      repeat' split
      · exact hintake ht c
      · exact hforward (hintake ht c) _ _
      · exact hforward ht _ _
    · unfold flowFrame
      split
      · exact hfp ht (takeFlow_only c t)
      · exact hforward ht _ _
    · exact hforward ht _ _
  unfold receiveFrame
  dsimp only
  repeat' split
  · exact hcounted _ (hcounted _ h _) _
  · exact hcounted _ (hcounted _ h _) _
  · unfold acceptFrame
    split
    · exact hforward (hcounted _ h _) _ _
    · exact hclassify (hcounted _ h _) _

theorem effect_flags (c : Instr) {s : State} (h : s.flagInv) : (effect c s).flagInv := by
  cases hc : kindOf c with
  | some k =>
    obtain rfl := eq_row_of_kindOf hc
    exact effect_row_keeps (P := State.flagInv) k h (fun args => k.body_flags args h) fun c r t ht => finish_flags c r ht
  | none =>
    by_cases hreacts : onlyReacts c = true
    · exact (effect_event_reacts hc hreacts s).flags h
    · cases c <;> try exact absurd rfl hreacts
      case windowResult => exact nextResult_flags h
      case dischargeFrame =>
        exact onHanded_of (P := State.flagInv) h (fun _ => h.congr rfl rfl rfl rfl rfl rfl rfl rfl)
          fun c t ht => takeDischarge_flags c ht
      case uploadStart => exact startUpload_flags h
      case captureSegment => exact produceSegment_flags h
      case captureArm b =>
        rw [effect_captureArm]
        split
        · exact armValve_flags _ h
        · exact h
      case valveFault b =>
        rw [effect_valveFault]
        split
        · exact enterFault_flags _ h
        · exact h
      case frameReceived p whole frame =>
        rw [effect_frameReceived]
        split
        · exact receiveFrame_flags p whole frame h
        · exact h
      case powerOn => exact reset_flags rfl rfl rfl rfl rfl

theorem flagInv_keptByTimers : KeptByTimers State.flagInv where
  pending _ _ h := h
  pos _ _ _ _ h := h
  fe _ _ _ _ h := h
  hold _ _ _ _ h := h
  load _ _ _ _ h := h
  status _ _ _ _ h := h

end Sys2Proof.Machine
end

section
/-!
PROOFS, the valves: a record agrees with its setting (valve count, mode, active product) and its average is bounded, and each
operation of the Trim Engine takes a record that agrees to one that does.
-/

namespace Sys2Proof.Machine

/-! ### A record and its setting -/

/-- What a Valve Statistics record has to agree with. -/
structure ValveSetting where
  below : Bool
  mode : ValveMode
  product : Option Product

/-- The setting of a valve. -/
def State.setting (s : State) (v : Fin Config.valves) : ValveSetting :=
  { below := decide (v.val < s.ma.setup.valveCount), mode := s.te.table[v].mode, product := s.activeProduct }

/-- The states that a setting lets a valve be in (R128, R129). -/
def ValveSetting.admits (g : ValveSetting) (st : ValveState) : Prop :=
  if g.below = true then
    match g.mode with
    | .auto => st = .settling ∨ st = .collecting ∨ st = .fault
    | .fixed => st = .fixed
    | .excluded => st = .excluded
  else st = .excluded

/-- The states of an AUTO valve. -/
def ValveState.isAuto : ValveState → Bool
  | .settling | .collecting | .fault => true
  | .excluded | .fixed => false

/-- A record agrees with its setting. -/
structure ValveRecord.Accords (g : ValveSetting) (r : ValveRecord) : Prop where
  state : g.admits r.state
  excluded : r.state = .excluded → r.trim = 0
  trim : trimOk g.product r.trim
  run : r.unsettledRun ≤ 32
  follows : r.follows = true → r.unsettledRun < 32

/-- The bound of an average (R142). -/
def averageBound : Option Product → Int
  | none => 0
  | some p => 16 * max (p.target - p.rejectLow) (p.rejectHigh - p.target)

/-- A record's n and e_avg are within their bounds. -/
structure ValveRecord.Averaged (p : Option Product) (r : ValveRecord) : Prop where
  n : r.n ≤ 65535
  idle : r.state ≠ .collecting → r.n = 0 ∧ r.eAvg = 0
  eAvg : (r.eAvg.natAbs : Int) ≤ averageBound p

/-- A product, if there is one, is one that R159 accepts. -/
def goodProduct (p : Option Product) : Prop :=
  ∀ q, p = some q → q.inRange = true ∧ q.related = true

theorem ValveSetting.admits.auto {g : ValveSetting} {st st' : ValveState} (h : g.admits st) (hst : st.isAuto = true)
    (hst' : st'.isAuto = true) : g.admits st' := by
  obtain ⟨below, mode, p⟩ := g
  unfold admits at h ⊢
  dsimp only at h ⊢
  have hauto {x : ValveState} : x.isAuto = true ↔ x = .settling ∨ x = .collecting ∨ x = .fault := by
    cases x <;> simp [ValveState.isAuto]
  have hout : st ≠ .excluded ∧ st ≠ .fixed := by cases st <;> simp_all [ValveState.isAuto]
  split at h
  · rw [if_pos ‹_›]
    cases mode <;> dsimp only at h ⊢
    · exact hauto.mp hst'
    · exact absurd h hout.2
    · exact absurd h hout.1
  · exact absurd h hout.1

theorem ValveRecord.isAuto_of_follows {r : ValveRecord} (h : r.follows = true) : r.state.isAuto = true := by
  rw [ValveRecord.follows_iff] at h
  rcases h with h | h <;> rw [h] <;> rfl

theorem valveInv_iff (s : State) : s.valveInv ↔ ∀ v : Fin Config.valves, s.te.valves[v].Accords (s.setting v) := by
  refine forall_congr' fun v => ?_
  have hstate : s.valveStateOk v ↔ (s.setting v).admits s.te.valves[v].state := by
    unfold State.valveStateOk ValveSetting.admits State.setting
    dsimp only
    simp only [decide_eq_true_eq] <;> rfl
  rw [hstate]
  exact ⟨fun ⟨a, b, c, d, e⟩ => ⟨a, b, c, d, e⟩, fun ⟨a, b, c, d, e⟩ => ⟨a, b, c, d, e⟩⟩

theorem averageInv_iff (s : State) :
    s.averageInv ↔ ∀ v : Fin Config.valves, s.te.valves[v].Averaged s.activeProduct := by
  refine forall_congr' fun v => ?_
  constructor
  · rintro ⟨hn, hidle, he⟩
    refine ⟨hn, hidle, ?_⟩
    cases hp : s.activeProduct <;> rw [hp] at he <;> exact he
  · rintro ⟨hn, hidle, he⟩
    refine ⟨hn, hidle, ?_⟩
    cases hp : s.activeProduct <;> rw [hp] at he <;> exact he

theorem averageBound_nonneg {p : Option Product} (h : goodProduct p) : 0 ≤ averageBound p := by
  cases p with
  | none => exact le_refl _
  | some p =>
    have hrelated := (h p rfl).2
    simp only [Product.related, decide_eq_true_eq] at hrelated
    simp only [averageBound]
    omega

/-! ### What may become of a record -/

/-- A record that agrees with its setting becomes one that agrees with the setting of afterwards, and a bounded average a bounded
one. -/
def ValveRecord.Turns (g g' : ValveSetting) (r t : ValveRecord) : Prop :=
  goodProduct g'.product → r.Accords g → t.Accords g' ∧ (r.Averaged g.product → t.Averaged g'.product)

/-- The same with the setting as it was. -/
abbrev ValveRecord.Becomes (g : ValveSetting) (r t : ValveRecord) : Prop :=
  r.Turns g g t

section Becomes

variable {g : ValveSetting} {r t u : ValveRecord}

theorem ValveRecord.Becomes.refl (r : ValveRecord) : r.Becomes g r :=
  fun _ h => ⟨h, id⟩

theorem ValveRecord.Turns.trans {g' : ValveSetting} (h : r.Turns g g' t) (k : t.Becomes g' u) : r.Turns g g' u := fun hg hr =>
  ⟨(k hg (h hg hr).1).1, (k hg (h hg hr).1).2 ∘ (h hg hr).2⟩

/-- Counters, the LIMIT flag and the like changed. -/
theorem ValveRecord.Becomes.same (hstate : t.state = r.state) (htrim : t.trim = r.trim)
    (hrun : t.unsettledRun = r.unsettledRun) (hn : t.n = r.n) (he : t.eAvg = r.eAvg) : r.Becomes g t := by
  refine fun _ h => ⟨⟨?_, ?_, ?_, ?_, ?_⟩, fun k => ⟨?_, ?_, ?_⟩⟩
  · exact hstate ▸ h.state
  · exact hstate ▸ htrim ▸ h.excluded
  · exact htrim ▸ h.trim
  · exact hrun ▸ h.run
  · unfold ValveRecord.follows
    rw [hstate, hrun]
    exact h.follows
  · exact hn ▸ k.n
  · rw [hstate, hn, he]
    exact k.idle
  · exact he ▸ k.eAvg

theorem averaged_of_zero {p : Option Product} (hp : goodProduct p) (hn : r.n = 0) (he : r.eAvg = 0) : r.Averaged p where
  n := by omega
  idle _ := ⟨hn, he⟩
  eAvg := by
    rw [he]
    exact averageBound_nonneg hp

/-- Collection restarts, state, trim and run as they were. -/
theorem ValveRecord.Becomes.restarted (hstate : t.state = r.state) (htrim : t.trim = r.trim)
    (hrun : t.unsettledRun = r.unsettledRun) (hn : t.n = 0) (he : t.eAvg = 0) : r.Becomes g t := fun hg h =>
  ⟨((Becomes.same (t := { t with n := r.n, eAvg := r.eAvg }) hstate htrim hrun rfl rfl hg h).1.recOn
    fun a b c d e => ⟨a, b, c, d, e⟩), fun _ => averaged_of_zero hg hn he⟩

/-- A record of an AUTO valve goes on in another state of AUTO valves, its average dropped. -/
theorem ValveRecord.Becomes.auto (hr : r.state.isAuto = true) (ht : t.state.isAuto = true)
    (htrim : trimOk g.product r.trim → trimOk g.product t.trim)
    (hrun : r.unsettledRun ≤ 32 → (r.follows = true → r.unsettledRun < 32) →
      t.unsettledRun ≤ 32 ∧ (t.follows = true → t.unsettledRun < 32))
    (hn : t.n = 0) (he : t.eAvg = 0) : r.Becomes g t := fun hg h =>
  ⟨⟨h.state.auto hr ht, fun hexcluded => by simp [hexcluded, ValveState.isAuto] at ht, htrim h.trim,
    (hrun h.run h.follows).1, (hrun h.run h.follows).2⟩, fun _ => averaged_of_zero hg hn he⟩

theorem becomes_restart (r : ValveRecord) : r.Becomes g r.restart :=
  .restarted rfl rfl rfl rfl rfl

theorem becomes_settle (hfollows : r.follows = true) : r.Becomes g r.settle := by
  unfold ValveRecord.settle
  dsimp only
  split
  · exact .auto (ValveRecord.isAuto_of_follows hfollows) rfl id (fun _ _ => ⟨Nat.zero_le _, fun _ => Nat.zero_lt_succ _⟩) rfl
      rfl
  · exact fun hg h => ⟨⟨h.state, h.excluded, h.trim, Nat.zero_le _, fun _ => Nat.zero_lt_succ _⟩, fun k => ⟨k.n, k.idle, k.eAvg⟩⟩

/-- A valve that follows settles afresh (R138). -/
theorem becomes_settling (hfollows : r.follows = true) : r.Becomes g { r.restart with state := .settling } :=
  .auto (ValveRecord.isAuto_of_follows hfollows) rfl id (fun h k => ⟨h, fun _ => k hfollows⟩) rfl rfl

/-- The Trim Mode leaves OFF, or a FAULT is released: the run is 0 as well (R131, R132). -/
theorem becomes_afresh_settling (hr : r.state.isAuto = true) (ht : t.state = .settling) (htrim : t.trim = r.trim)
    (hrun : t.unsettledRun = 0) (hn : t.n = 0) (he : t.eAvg = 0) : r.Becomes g t :=
  .auto hr (by rw [ht]; rfl) (fun h => htrim ▸ h) (fun _ _ => by omega) hn he

theorem becomes_fault (hfollows : r.follows = true) : r.Becomes g { r.restart with state := .fault } :=
  .auto (ValveRecord.isAuto_of_follows hfollows) rfl id (fun h _ => ⟨h, fun hf => by simp [ValveRecord.follows] at hf⟩) rfl rfl

/-- One more unsettled discharge, with the FAULT that it may bring (R137, R139). -/
theorem becomes_unsettled (hfollows : r.follows = true) : r.Becomes g
    (if 32 ≤ r.unsettledRun + 1 then { r.restart with state := .fault, unsettledRun := r.unsettledRun + 1 }
      else { r with unsettledRun := r.unsettledRun + 1 }) := by
  split
  · refine .auto (ValveRecord.isAuto_of_follows hfollows) rfl id (fun _ k => ⟨?_, fun hf => ?_⟩) rfl rfl
    · have := k hfollows
      dsimp only
      omega
    · simp [ValveRecord.follows] at hf
  · next hrun =>
    exact fun _ h => ⟨⟨h.state, h.excluded, h.trim, by dsimp only; omega, fun _ => by dsimp only; omega⟩,
      fun k => ⟨k.n, k.idle, k.eAvg⟩⟩

end Becomes

/-! ### Feeding and deciding -/

theorem fedRecord_averaged {p : Product} {net : Int} {r : ValveRecord} (hstate : r.state = .collecting)
    (hlow : p.rejectLow ≤ net) (hhigh : net ≤ p.rejectHigh) (h : r.Averaged (some p)) :
    (fedRecord p net r).Averaged (some p) := by
  refine ⟨?_, fun hidle => absurd hstate hidle, ?_⟩
  · simp only [fedRecord]
    omega
  · have hbound := h.eAvg
    simp only [averageBound] at hbound ⊢
    by_cases hn : r.n = 0
    · rw [fedRecord_eAvg_first p net hn]
      omega
    · obtain ⟨hmin, hmax⟩ := fedRecord_eAvg_between p net (r := r) (by omega)
      omega

theorem trimDecision_becomes {g : ValveSetting} {p : Product} (hp : g.product = some p) (can : Word32) {r : ValveRecord}
    (hstate : r.state = .collecting) : r.Becomes g (trimDecision p can r).1 := by
  by_cases hfew : r.n < p.nMin
  · rw [trimDecision_of_few can hfew]
    exact .refl r
  have henough : p.nMin ≤ r.n := not_lt.mp hfew
  by_cases hslack : r.eAvg.natAbs ≤ 16 * p.deadband ∨ stepMagnitude p r.eAvg = 0
  · rw [trimDecision_of_slack can henough hslack]
    exact .same rfl rfl rfl rfl rfl
  obtain ⟨hband, hstep⟩ := not_or.mp hslack
  rw [not_le] at hband
  by_cases hheld : clampTrim (some p) (trimCandidate p r) = r.trim
  · rw [trimDecision_of_held can henough hband hstep hheld]
    exact .restarted rfl rfl rfl rfl rfl
  · rw [trimDecision_of_moved can henough hband hstep hheld]
    have hauto : r.state.isAuto = true := by rw [hstate]; rfl
    refine .auto hauto rfl (fun htrim => ?_) (fun hrun hfollows => ⟨hrun, fun _ => hfollows ?_⟩) rfl rfl
    · rw [hp] at htrim ⊢
      obtain ⟨hmin, hmax⟩ := htrim
      obtain ⟨hlow, hhigh, _⟩ := clampTrim_candidate hmin hmax
      exact ⟨hlow, hhigh⟩
    · simp [ValveRecord.follows, hstate]

/-- A fed can's record, decided (R142 to R145). -/
theorem fed_becomes {g : ValveSetting} {p : Product} (hp : g.product = some p) (can : Word32) {net : Int} {r : ValveRecord}
    (hstate : r.state = .collecting) (hlow : p.rejectLow ≤ net) (hhigh : net ≤ p.rejectHigh) :
    r.Becomes g (trimDecision p can (fedRecord p net r)).1 := by
  refine ValveRecord.Turns.trans (t := fedRecord p net r) (fun _ h => ⟨?_, fun k => ?_⟩) (trimDecision_becomes hp can hstate)
  · exact ⟨h.state, h.excluded, h.trim, h.run, h.follows⟩
  · rw [hp] at k ⊢
    exact fedRecord_averaged hstate hlow hhigh k

/-! ### Records under a new setting -/

theorem trimOk_zero {p : Option Product} (hp : goodProduct p) : trimOk p 0 := by
  cases p with
  | none => rfl
  | some p =>
    have hrange := (hp p rfl).1
    simp only [Product.inRange, decide_eq_true_eq] at hrange
    obtain ⟨_, _, _, _, hmin, hmax, _⟩ := hrange
    exact ⟨hmin, hmax⟩

theorem trimOk_clampTrim {p : Option Product} (hp : goodProduct p) (x : Int) : trimOk p (clampTrim p x) := by
  cases p with
  | none => rfl
  | some p =>
    have hzero := trimOk_zero hp
    simp only [trimOk, clampTrim] at hzero ⊢
    omega

/-- A record afresh in another state is bounded, and agrees with a setting that admits the state when its trim does. -/
theorem turns_afresh {g g' : ValveSetting} {r t : ValveRecord} (hstate : goodProduct g'.product → g'.admits t.state)
    (hexcluded : t.state = .excluded → t.trim = 0)
    (htrim : goodProduct g'.product → trimOk g.product r.trim → trimOk g'.product t.trim) (hrun : t.unsettledRun = 0)
    (hn : t.n = 0) (he : t.eAvg = 0) : r.Turns g g' t := fun hg h =>
  ⟨⟨hstate hg, hexcluded, htrim hg h.trim, by omega, fun _ => by omega⟩, fun _ => averaged_of_zero hg hn he⟩

/-- The record that an entry gives a valve below the count agrees with the entry's mode (R128). -/
theorem entryRecord_turns (e : ValveEntry) {g g' : ValveSetting} (hbelow : g'.below = true) (hmode : g'.mode = e.mode)
    (hproduct : g'.product = g.product) (r : ValveRecord) : r.Turns g g' (entryRecord e g.product r) := by
  have hadmits (st : ValveState) (h : match e.mode with
      | .auto => st = .settling ∨ st = .collecting ∨ st = .fault
      | .fixed => st = .fixed
      | .excluded => st = .excluded) : g'.admits st := by
    unfold ValveSetting.admits
    rw [if_pos hbelow, hmode]
    exact h
  unfold entryRecord
  cases hm : e.mode <;> rw [hm] at hadmits <;> dsimp only at hadmits ⊢
  · exact turns_afresh (fun _ => hadmits _ (.inl rfl)) (fun h => by cases h) (fun _ h => hproduct ▸ h) rfl rfl rfl
  · exact turns_afresh (fun _ => hadmits _ rfl) (fun h => by cases h)
      (fun hg _ => hproduct ▸ trimOk_clampTrim (hproduct ▸ hg) _) rfl rfl rfl
  · exact turns_afresh (fun _ => hadmits _ rfl) (fun _ => rfl) (fun hg _ => trimOk_zero hg) rfl rfl rfl

/-- A valve that comes to lie above the count (R129). -/
theorem excluded_turns {g g' : ValveSetting} (hbelow : g'.below = false) (r : ValveRecord) :
    r.Turns g g' { r.afresh with state := .excluded, trim := 0 } := by
  refine turns_afresh (fun _ => ?_) (fun _ => rfl) (fun hg _ => trimOk_zero hg) rfl rfl rfl
  unfold ValveSetting.admits
  rw [hbelow, if_neg (by decide)]

/-- A record in a state without an average, its trim made one of the new setting's. -/
theorem turns_idle {g g' : ValveSetting} {r : ValveRecord} {x : Int} (hstate : g.admits r.state → g'.admits r.state)
    (hidle : g.admits r.state → r.state = .fixed ∨ r.state = .excluded)
    (hexcluded : r.Accords g → r.state = .excluded → x = 0) (htrim : goodProduct g'.product → r.Accords g → trimOk g'.product x) :
    r.Turns g g' { r with trim := x } := by
  intro hg h
  have hout : r.state ≠ .collecting ∧ r.follows = false := by
    rcases hidle h.state with hs | hs <;> simp [ValveRecord.follows, hs]
  refine ⟨⟨hstate h.state, hexcluded h, htrim hg h, h.run, fun hf => absurd (hf.symm.trans hout.2) (by decide)⟩, fun k => ?_⟩
  obtain ⟨hn, he⟩ := k.idle hout.1
  exact averaged_of_zero hg hn he

/-- The record of a valve after a selection (R146). -/
def selectedRecord (below : Bool) (e : ValveEntry) (p : Option Product) (r : ValveRecord) : ValveRecord :=
  if below then
    match e.mode with
    | .auto => { r.afresh with state := .settling, trim := 0 }
    | .fixed => { r with trim := clampTrim p e.fixedTrim }
    | .excluded => r
  else r

theorem selectedRecord_turns (e : ValveEntry) (below : Bool) (q p : Option Product) (r : ValveRecord) :
    r.Turns ⟨below, e.mode, q⟩ ⟨below, e.mode, p⟩ (selectedRecord below e p r) := by
  have hexcluded (h : ValveSetting.admits ⟨below, e.mode, q⟩ r.state → r.state = .excluded) :
      r.Turns ⟨below, e.mode, q⟩ ⟨below, e.mode, p⟩ r :=
    turns_idle (x := r.trim) id (fun k => .inr (h k)) (fun k => k.excluded)
      fun hg k => by rw [k.excluded (h k.state)]; exact trimOk_zero hg
  unfold selectedRecord
  cases below with
  | false => exact hexcluded id
  | true =>
    rw [if_pos rfl]
    cases hm : e.mode <;> rw [hm] at hexcluded <;> dsimp only
    · exact turns_afresh (fun _ => .inl rfl) (fun h => by cases h) (fun hg _ => trimOk_zero hg) rfl rfl rfl
    · have hfixed (k : ValveSetting.admits ⟨true, .fixed, q⟩ r.state) : r.state = .fixed := k
      exact turns_idle id (fun k => .inl (hfixed k)) (fun k hout => by rw [hfixed k.state] at hout; cases hout)
        fun hg _ => trimOk_clampTrim hg _
    · exact hexcluded id

/-! ### The valves of a state -/

/-- Every valve's record turns, settings changed or not. -/
def State.Turns (s t : State) : Prop :=
  ∀ v : Fin Config.valves, s.te.valves[v].Turns (s.setting v) (t.setting v) t.te.valves[v]

/-- Every valve's record turns, and the settings are as they were. -/
structure State.Trims (s t : State) : Prop where
  setting : ∀ v, t.setting v = s.setting v
  valve : ∀ v : Fin Config.valves, s.te.valves[v].Becomes (s.setting v) t.te.valves[v]

section Trims

variable {s t u : State}

theorem State.Trims.refl (s : State) : s.Trims s :=
  ⟨fun _ => rfl, fun _ => .refl _⟩

theorem State.Trims.turns (h : s.Trims t) : s.Turns t := fun v => by
  rw [h.setting v]
  exact h.valve v

theorem State.Turns.trims (h : s.Turns t) (k : t.Trims u) : s.Turns u := fun v => by
  rw [k.setting v]
  exact (h v).trans (k.valve v)

theorem State.Trims.trans (h : s.Trims t) (k : t.Trims u) : s.Trims u :=
  ⟨fun v => (k.setting v).trans (h.setting v), fun v => (h.valve v).trans (h.setting v ▸ k.valve v)⟩

theorem goodProduct_active (h : s.tableInv) : goodProduct s.activeProduct := by
  intro p hp
  unfold State.activeProduct at hp
  split at hp
  · cases hp
  · next k _ => exact ⟨(h k p hp).1, (h k p hp).2.1⟩

theorem State.Turns.valveInv (h : s.Turns t) (ht : t.tableInv) (hs : s.valveInv) : t.valveInv :=
  (valveInv_iff t).mpr fun v => (h v (goodProduct_active ht) ((valveInv_iff s).mp hs v)).1

theorem State.Turns.averageInv (h : s.Turns t) (ht : t.tableInv) (hs : s.valveInv) (ha : s.averageInv) : t.averageInv :=
  (averageInv_iff t).mpr fun v =>
    (h v (goodProduct_active ht) ((valveInv_iff s).mp hs v)).2 ((averageInv_iff s).mp ha v)

/-- The settings depend on the Valve Table, the valve count and the products. -/
theorem setting_congr (htable : t.te.table = s.te.table) (hcount : t.ma.setup.valveCount = s.ma.setup.valveCount)
    (hpu : t.pu = s.pu) (v : Fin Config.valves) : t.setting v = s.setting v := by
  unfold State.setting State.activeProduct
  rw [htable, hcount, hpu]

/-- What leaves Trim Engine, Line Setup record and products leaves the valves. -/
theorem State.Trims.same (h : s.Trims t) (hte : u.te = t.te) (hsetup : u.ma.setup = t.ma.setup) (hpu : u.pu = t.pu) :
    s.Trims u :=
  h.trans ⟨setting_congr (by rw [hte]) (by rw [hsetup]) hpu, fun v => by rw [hte]; exact .refl _⟩

theorem State.Trims.only {l : List Block} (h : s.Trims t) (k : OnlyChanges l t u)
    (hl : ∀ b ∈ l, b ≠ .te ∧ b ≠ .pu ∧ b ≠ .ma) : s.Trims u := by
  have hte : State.agrees .te t u := k .te fun hb => (hl _ hb).1 rfl
  have hpu : State.agrees .pu t u := k .pu fun hb => (hl _ hb).2.1 rfl
  have hma : State.agrees .ma t u := k .ma fun hb => (hl _ hb).2.2 rfl
  exact h.same hte (congrArg Mgmt.setup hma) hpu

theorem State.Trims.setValve (h : s.Trims t) (v : Fin Config.valves) {r : ValveRecord}
    (hr : t.te.valves[v].Becomes (t.setting v) r) : s.Trims (t.setValve v r) := by
  refine h.trans ⟨setting_congr rfl rfl rfl, fun w => ?_⟩
  by_cases hw : v = w
  · subst hw
    rw [State.setValve_same]
    exact hr
  · rw [t.setValve_other r hw]
    exact .refl _

theorem State.Trims.mapValves (h : s.Trims t) {f : Fin Config.valves → ValveRecord → ValveRecord}
    (hf : ∀ v : Fin Config.valves, t.te.valves[v].Becomes (t.setting v) (f v t.te.valves[v])) : s.Trims (t.mapValves f) := by
  refine h.trans ⟨setting_congr ?_ ?_ ?_, fun v => ?_⟩
  · simp only [State.mapValves_te]
  · rw [State.mapValves_ma]
  · rw [State.mapValves_pu]
  · rw [t.mapValves_get f v]
    exact hf v

theorem evalTrimHold_trims (h : s.Trims t) : s.Trims (evalTrimHold t) := by
  refine h.trans ⟨setting_congr ?_ ?_ ?_, fun v => ?_⟩
  · rw [evalTrimHold_te_eq]
  · rw [evalTrimHold_ma]
  · rw [evalTrimHold_pu]
  · obtain hv | ⟨_, hv⟩ := evalTrimHold_valve t v
    · rw [hv]
      exact .refl _
    · rw [hv]
      exact becomes_restart _

theorem evalAttention_trims (h : s.Trims t) : s.Trims (evalAttention t) := by
  refine h.trans ⟨setting_congr ?_ ?_ ?_, fun v => ?_⟩
  · rw [evalAttention_te]
  · rw [evalAttention_ma]
  · rw [evalAttention_pu]
  · rw [evalAttention_te]
    exact .refl _

theorem clearRequests_trims (p : Fin Config.valves → Bool) (h : s.Trims t) : s.Trims (clearRequests p t) :=
  h.only (clearRequests_only p t) (by decide)

theorem report_trims (h : s.Trims t) : s.Trims (report u t) :=
  h.same (by rw [report_te]) (by rw [report_ma]) (by rw [report_pu])

/-! ### The reactions -/

theorem writeRing_trims (e : RingEntry) (h : s.Trims t) : s.Trims (writeRing e t) :=
  h.only (writeRing_only e t) (by decide)

theorem freezeRing_trims (cause : FreezeCause) (h : s.Trims t) : s.Trims (freezeRing cause t) := by
  have hrc (x : RingCapture) : s.Trims { t with rc := x } := h.same rfl rfl rfl
  unfold freezeRing
  split
  · exact evalTrimHold_trims (report_trims (hrc _))
  · split
    · exact evalTrimHold_trims (hrc _)
    · exact h
  · exact h

theorem noteOutcome_trims (b : Bool) (h : s.Trims t) : s.Trims (noteOutcome b t) := by
  have hrc (x : RingCapture) : s.Trims { t with rc := x } := h.same rfl rfl rfl
  unfold noteOutcome
  dsimp only
  split
  · exact freezeRing_trims _ (hrc _)
  · exact hrc _

theorem setTracking_trims (st : TrackingState) (h : s.Trims t) : s.Trims (setTracking st t) := by
  have hset : s.Trims (evalTrimHold (report t { t with rm := { t.rm with tracking := st } })) := by
    refine evalTrimHold_trims (report_trims ?_)
    exact h.same rfl rfl rfl
  unfold setTracking
  dsimp only
  split
  · exact h
  · split
    · exact freezeRing_trims _ hset
    · exact hset

theorem Reacts.trims (h : Reacts s t) : s.Trims t := by
  induction h with
  | refl => exact .refl _
  | other _ hsame ih => exact ih.same hsame.te hsame.setup hsame.pu
  | write _ e ih => exact writeRing_trims e ih
  | outcome _ b ih => exact noteOutcome_trims b ih
  | freeze _ cause ih => exact freezeRing_trims cause ih
  | track _ st ih => exact setTracking_trims st ih

end Trims

end Sys2Proof.Machine
end

section
/-!
PROOFS, the valves through the operations that leave their settings: discharges, set-points, weighed cans, captures, Trim Mode
and what only reacts.
-/

namespace Sys2Proof.Machine

section Trims

variable {s t u : State}

/-! ### The Trim Engine -/

theorem setValve_setValve (s : State) (v : Fin Config.valves) (a b : ValveRecord) :
    (s.setValve v a).setValve v b = s.setValve v b := by
  simp [State.setValve, Vector.set_set]

theorem enterFault_trims (v : Fin Config.valves) (h : s.Trims t) : s.Trims (enterFault v t) := by
  unfold enterFault
  dsimp only
  split
  · next hcondition =>
    simp only [Bool.and_eq_true] at hcondition
    exact evalAttention_trims (h.setValve v (becomes_fault hcondition.1.2))
  · exact h

theorem followDischarge_trims (v : Fin Config.valves) (a b : Bool) (h : s.Trims t) :
    s.Trims (followDischarge v a b t) := by
  unfold followDischarge
  dsimp only
  split
  · next hcondition =>
    simp only [Bool.and_eq_true] at hcondition
    obtain ⟨⟨_, hauto⟩, hfollows⟩ := hcondition
    split
    · exact h.setValve v (becomes_settle hfollows)
    · split
      · have hbecomes := becomes_unsettled (g := t.setting v) hfollows
        have hsame := State.setValve_same t v { t.te.valves[v] with unsettledRun := t.te.valves[v].unsettledRun + 1 }
        obtain hbelow | hreached := Nat.lt_or_ge (t.te.valves[v].unsettledRun + 1) 32
        · rw [enterFault_of_below (by rw [hsame]; exact hbelow)]
          rw [if_neg (by omega)] at hbecomes
          exact h.setValve v hbecomes
        · have hauto' : (t.setValve v { t.te.valves[v] with unsettledRun := t.te.valves[v].unsettledRun + 1 }).isAuto v = true :=
            hauto
          rw [enterFault_of_reached hauto' (by rw [hsame]; exact hfollows) (by rw [hsame]; exact hreached), hsame,
            setValve_setValve]
          rw [if_pos hreached] at hbecomes
          exact evalAttention_trims (h.setValve v hbecomes)
      · exact h
  · exact h

theorem setPointChanged_trims (v : Fin Config.valves) (h : s.Trims t) : s.Trims (setPointChanged v t) := by
  unfold setPointChanged
  dsimp only
  split
  · next hcondition =>
    simp only [Bool.and_eq_true] at hcondition
    exact h.setValve v (becomes_settling hcondition.2)
  · exact h

/-- The setting of an AUTO valve admits the states of AUTO valves alone. -/
theorem isAuto_of_admits {v : Fin Config.valves} {st : ValveState} (hauto : s.isAuto v = true)
    (h : (s.setting v).admits st) : st.isAuto = true := by
  obtain ⟨hbelow, hmode⟩ := (State.isAuto_iff s v).mp hauto
  unfold ValveSetting.admits State.setting at h
  dsimp only at h
  rw [if_pos (by simpa using hbelow), hmode] at h
  rcases h with rfl | rfl | rfl <;> rfl

theorem setTrimMode_trims (mode : TrimMode) (h : s.Trims t) : s.Trims (setTrimMode mode t) := by
  unfold setTrimMode
  split
  · exact h
  · have hmode : s.Trims { t with te := { t.te with mode := mode } } := h.trans ⟨setting_congr rfl rfl rfl, fun v => .refl _⟩
    generalize ({ t with te := { t.te with mode := mode } } : State) = x at hmode ⊢
    dsimp only
    refine evalTrimHold_trims ?_
    split
    · refine hmode.mapValves fun v => ?_
      split
      · next hcondition =>
        simp only [Bool.and_eq_true] at hcondition
        exact fun hg hr => becomes_afresh_settling (isAuto_of_admits hcondition.1 hr.state) rfl rfl rfl rfl rfl hg hr
      · exact .refl _
    · refine hmode.mapValves fun v => ?_
      split
      · exact becomes_restart _
      · exact .refl _
    · exact hmode

theorem releaseFault_trims (v : Fin Config.valves) (h : s.Trims t) : s.Trims (releaseFault v t) := by
  unfold releaseFault
  dsimp only
  split
  · next hfault =>
    refine evalAttention_trims (clearRequests_trims _ (h.setValve v ?_))
    exact becomes_afresh_settling (by rw [hfault]; rfl) rfl rfl rfl rfl rfl
  · exact h

theorem statisticsReset_trims (h : s.Trims t) : s.Trims (statisticsReset t) := by
  unfold statisticsReset
  refine State.Trims.mapValves ?_ fun v => .restarted rfl rfl rfl rfl rfl
  exact h.same rfl rfl rfl

/-! ### Weighed cans -/

/-- The class and the net weight of a judged can are those of its product: one that is fed lies within its reject limits (R103,
R105, R141). -/
def Judged.Fits (j : Judged) (products : Products) : Prop :=
  j.cls.fed = true → ∀ p net, products.table[j.record.product] = some p → j.net = some net →
    p.rejectLow ≤ net ∧ net ≤ p.rejectHigh

theorem classOf_fed {p : Option Product} {tracking : TrackingState} {read : Option ReadResult} {w : WindowResult}
    (h : (classOf p tracking read w).fed = true) {q : Product} {net : Int} (hq : p = some q) (hnet : netWeight p w = some net) :
    q.rejectLow ≤ net ∧ net ≤ q.rejectHigh := by
  subst hq
  unfold classOf at h
  rw [hnet] at h
  dsimp only at h
  repeat' split at h
  all_goals first | (exact absurd h (by decide)) | omega

theorem judgeRecord_fits (r : CanRecord) (w : WindowResult) (s : State) :
    (judgeRecord r w s).2.Fits (judgeRecord r w s).1.pu := by
  have hpu : (judgeRecord r w s).1.pu = s.pu := (judgeRecord_only r w s) .pu (by decide)
  rw [hpu]
  intro hfed p net hp hnet
  exact classOf_fed hfed hp hnet

theorem countJudged_trims (v : Fin Config.valves) (j : Judged) (h : s.Trims t) : s.Trims (countJudged v j t) :=
  h.setValve v (.same rfl rfl rfl rfl rfl)

theorem feedValve_trims (v : Fin Config.valves) {p : Product} {net : Int} (can : Word32)
    (hp : t.activeProduct = some p) (hstate : t.te.valves[v].state = .collecting)
    (hlow : p.rejectLow ≤ net) (hhigh : net ≤ p.rejectHigh) (h : s.Trims t) : s.Trims (feedValve v p net can t) := by
  have hset := h.setValve v (fed_becomes (g := t.setting v) hp can hstate hlow hhigh)
  unfold feedValve
  dsimp only
  split
  · exact clearRequests_trims _ hset
  · exact hset

theorem weighValve_trims {j : Judged} (hj : j.Fits t.pu) (h : s.Trims t) : s.Trims (weighValve j t) := by
  unfold weighValve
  split
  · exact h
  · next v _ =>
    have hcount := countJudged_trims v j h
    have hpu : (countJudged v j t).pu = t.pu := rfl
    generalize countJudged v j t = x at hcount hpu ⊢
    dsimp only
    split
    · next p net hp hnet =>
      split
      · next hfeeds =>
        have hcollecting := collecting_of_feeds hfeeds
        simp only [State.feeds, Bool.and_eq_true, beq_iff_eq] at hfeeds
        obtain ⟨⟨⟨_, hfed⟩, _⟩, hactive⟩ := hfeeds
        have htable : t.pu.table[j.record.product] = some p := by
          unfold State.activeProduct at hp
          rw [hactive, hpu] at hp
          exact hp
        obtain ⟨hlow, hhigh⟩ := hj hfed p net htable hnet
        exact feedValve_trims v _ hp hcollecting hlow hhigh hcount
      · exact hcount
    · exact hcount

/-! ### Captures -/

theorem armValve_trims (v : Fin Config.valves) (h : s.Trims t) : s.Trims (armValve v t) := by
  unfold armValve
  dsimp only
  split
  · exact h.setValve v (.same rfl rfl rfl rfl rfl)
  · exact h

theorem captureJudged_trims (j : Judged) (h : s.Trims t) : s.Trims (captureJudged j t) := by
  have harmed (v : Fin Config.valves) : s.Trims (captureArmed v j t) := by
    have hstored : s.Trims (storeCapture j t).1 := h.only (storeCapture_only j t) (by decide)
    unfold captureArmed
    dsimp only
    generalize storeCapture j t = c at hstored ⊢
    repeat' split
    · exact hstored.setValve v (.same rfl rfl rfl rfl rfl)
    · exact hstored
    · exact h
  unfold captureJudged
  split
  · exact h
  · next v _ =>
    have hcaptured := harmed v
    generalize captureArmed v j t = x at hcaptured ⊢
    dsimp only
    split
    · exact h
    · exact armValve_trims v (hcaptured.setValve v (.same rfl rfl rfl rfl rfl))

theorem assignWeigh_trims (r : CanRecord) (w : WindowResult) (h : s.Trims t) : s.Trims (assignWeigh r w t) := by
  unfold assignWeigh
  dsimp only
  have hjudged : s.Trims (judgeRecord { r with result := some w } w
      (t.withQueue (updateFirst CanRecord.isPassed (fun x => { x with result := some w }) t.tq.queue))).1 :=
    h.trans (judgeRecord_reacts _ w (withQueue_reacts _ (.refl t))).trims
  have hfits := judgeRecord_fits { r with result := some w } w
    (t.withQueue (updateFirst CanRecord.isPassed (fun x => { x with result := some w }) t.tq.queue))
  generalize judgeRecord _ w _ = o at hjudged hfits ⊢
  have hon : s.Trims (handOn o.2 o.1) := captureJudged_trims _ (weighValve_trims hfits hjudged)
  generalize handOn o.2 o.1 = x at hon ⊢
  exact hon.trans (handJudged_reacts _ _ (withQueue_reacts _ (Reacts.refl x))).trims

theorem nextResult_trims (h : s.Trims t) : s.Trims (nextResult t) := by
  unfold nextResult
  split
  · exact h
  · next w rest _ =>
    have htaken : s.Trims (t.withFe { t.fe with results := rest }) := h.same rfl rfl rfl
    generalize t.withFe _ = x at htaken ⊢
    unfold takeResult
    split
    · exact htaken.trans (orphanWeigh_reacts w (.refl x)).trims
    · exact assignWeigh_trims _ w htaken

/-! ### Discharges and dose frames -/

theorem takeDischarge_trims (c : Copy) (h : s.Trims t) : s.Trims (takeDischarge c t) := by
  have hgap : s.Trims (dischargeGap c.sequence t) := h.trans (dischargeGap_reacts c.sequence (.refl t)).trims
  unfold takeDischarge
  generalize dischargeGap c.sequence t = x at hgap ⊢
  dsimp only
  split
  · exact hgap.trans (withTrackingCounters_reacts _ (Reacts.refl x).tq).trims
  · unfold admitDischarge
    split
    · exact hgap.trans (createRecord_reacts _ _ (Reacts.refl x).tq).trims
    · exact followDischarge_trims _ _ _ (hgap.trans (createRecord_reacts _ _ (Reacts.refl x).tq).trims)

theorem rewriteDose_trims (payload : List Byte) (frame : Frame) (h : s.Trims t) : s.Trims (rewriteDose payload frame t).1 := by
  have hrw {t : State} (ht : s.Trims t) (x : Rewriter) : s.Trims (t.withRw x) := ht.same rfl rfl rfl
  have hentry (p : Product) (first : Nat) (r : Rewrite) (i : Nat) (hr : s.Trims r.state) :
      s.Trims (rewriteEntry p first r i).state := by
    unfold rewriteEntry
    split
    · exact hr
    · have hclamp (b : Bool) : s.Trims (countClamp b r.state) := by
        unfold countClamp
        split
        · exact hrw hr _
        · exact hr
      dsimp only
      unfold noteWritten
      split
      · exact hclamp _
      · exact setPointChanged_trims _ (hrw (hclamp _) _)
  have hfold (p : Product) (first : Nat) (x : List Nat) (r : Rewrite) (hr : s.Trims r.state) :
      s.Trims (x.foldl (rewriteEntry p first) r).state := by
    induction x generalizing r with
    | nil => exact hr
    | cons i rest ih => exact ih _ (hentry p first r i hr)
  unfold rewriteDose rewriteEntries
  dsimp only
  repeat' split
  · exact h
  · exact h
  · exact hrw (hfold _ _ _ _ h) _
  · exact hfold _ _ _ _ h

end Trims

end Sys2Proof.Machine
end

section
/-!
PROOFS, the product records and the valves through commits, selections and resets, and the invariants of the valves through every
row.
-/

namespace Sys2Proof.Machine

/-! ### Staged entries -/

theorem mem_of_readEntries {α : Type} {f : Nat → List Byte → Option α} {i : Nat} {entries : List (List Byte)} {l : List α}
    (h : readEntries f i entries = .inr l) {x : α} (hx : x ∈ l) : ∃ j b, f j b = some x := by
  induction entries generalizing i l with
  | nil =>
    obtain rfl := Sum.inr.inj h
    cases hx
  | cons b rest ih =>
    unfold readEntries at h
    split at h
    · cases h
    · next a ha =>
      split at h
      · cases h
      · next k hk =>
        obtain rfl := Sum.inr.inj h
        rcases List.mem_cons.mp hx with rfl | hmem
        · exact ⟨i, b, ha⟩
        · exact ih hk hmem

theorem putRange_get {α : Type} {n : Nat} (old : Vector α n) (first : Nat) (l : List α) (i : Fin n) :
    (putRange old first l)[i] = if first ≤ i.val then (l[i.val - first]?).getD old[i] else old[i] := by
  simp [putRange]

/-- An entry of a table after a commit is one of those loaded, or the one of before. -/
theorem putRange_cases {α : Type} {n : Nat} (old : Vector α n) (first : Nat) (l : List α) (i : Fin n) :
    (putRange old first l)[i] ∈ l ∨ (putRange old first l)[i] = old[i] := by
  rw [putRange_get]
  split
  · cases h : l[i.val - first]? with
    | none => exact .inr rfl
    | some a => exact .inl (List.mem_of_getElem? h)
  · exact .inr rfl

theorem putRange_outside {α : Type} {n : Nat} (old : Vector α n) (first : Nat) (l : List α) {i : Fin n}
    (h : ¬ (first ≤ i.val ∧ i.val < first + l.length)) : (putRange old first l)[i] = old[i] := by
  rw [putRange_get]
  split
  · rw [List.getElem?_eq_none (by omega)]
    rfl
  · rfl

/-! ### The product records (R159) -/

/-- A product record is one that R159 accepts, its dose limits 16-bit values. -/
def Product.Ok (p : Product) : Prop :=
  p.inRange = true ∧ p.related = true ∧ p.doseMax ≤ 65535

theorem productOf_ok {b : List Byte} {p : Product} (h : productOf b = some (some p)) : p.Ok := by
  unfold productOf at h
  split at h
  · cases h
  · cases h
  · split at h
    · next hok =>
      simp only [Bool.and_eq_true] at hok
      obtain rfl := Option.some.inj (Option.some.inj h)
      have hdose := fieldAt_lt b 43 2
      exact ⟨hok.1, hok.2, Nat.le_of_lt_succ hdose⟩
    · cases h

theorem tableInv_speaksOf : SpeaksOf [.pu] State.tableInv := by
  intro s t h hs
  have hpu : t.pu = s.pu := h .pu (by decide)
  unfold State.tableInv
  rw [hpu]
  exact hs

theorem commitProduct_tableInv (first : Nat) (entries : List (List Byte)) {s : State} (h : s.tableInv) :
    (commitProduct first entries s).1.tableInv := by
  unfold commitProduct refuseAt
  repeat' split
  · exact h
  · exact h
  · next l hl _ _ =>
    intro k p hp
    dsimp only at hp
    rcases putRange_cases s.pu.table first l k with hmem | hold
    · rw [hp] at hmem
      obtain ⟨_, b, hb⟩ := mem_of_readEntries hl hmem
      exact productOf_ok hb
    · exact h k p (hold.symm.trans hp)

/-- A lot change leaves what R159 asks of a record and what the valves see of it. -/
theorem setLotBody_tableInv (args : List Byte) {s : State} (h : s.tableInv) : (setLotBody args s).1.tableInv := by
  unfold setLotBody refuse
  split
  · exact h
  · next k _ =>
    split
    · exact h
    · next p hp =>
      intro i q hq
      simp only [changeLot] at hq
      by_cases hik : k = i
      · subst hik
        obtain rfl : p.withLot (args.take 8) = q := by simpa using hq
        exact h k p hp
      · have hne : k.val ≠ i.val := fun he => hik (Fin.ext he)
        exact h i q (by simpa [Vector.getElem_set, hne] using hq)

theorem selectProduct_pu (k : Option (Fin 16)) (s : State) : (selectProduct k s).pu = { s.pu with active := k } :=
  (applySelection_only _) .pu (by decide)

theorem selectBody_tableInv (args : List Byte) {s : State} (h : s.tableInv) : (selectBody args s).1.tableInv := by
  have hselect (k : Option (Fin 16)) : (selectProduct k s).tableInv := by
    unfold State.tableInv
    rw [selectProduct_pu]
    exact h
  unfold selectBody refuse
  dsimp only
  repeat' split
  · dsimp only
    exact hselect _
  · dsimp only
    exact hselect _
  · exact h
  · exact h

theorem tableInv_reset {s : State} (h : s.pu = State.reset.pu) : s.tableInv := by
  intro k p hp
  rw [h] at hp
  simp [State.reset] at hp

theorem commitTable_tableInv (table : TableId) (first : Nat) (entries : List (List Byte)) {s : State} (h : s.tableInv) :
    (commitTable table first entries s).1.tableInv := by
  have hother {l : List Block} {t : State} (k : OnlyChanges l s t) (hl : Block.pu ∉ l) : t.tableInv :=
    tableInv_speaksOf.keep k (by simpa using hl) h
  unfold commitTable
  cases table <;> dsimp only
  case channel => exact hother (commitChannel_only first entries s) (by decide)
  case lineSetup => exact hother (commitLineSetup_only entries s) (by decide)
  case calibration => exact hother (commitCalibration_only entries s) (by decide)
  case product => exact commitProduct_tableInv first entries h
  case valve => exact hother (commitValve_only first entries s) (by decide)
  case policy => exact hother (commitPolicy_only first entries s) (by decide)

/-- What the last segment of a load makes of the state is what its commit makes of it, but for the load. -/
theorem segmentBody_of {P : State → Prop} (hagent : ∀ {s t : State}, OnlyChanges agentBlocks s t →
      t.ma.setup = s.ma.setup → P s → P t) (args : List Byte) {s : State}
    (hcommit : ∀ table first entries, P (commitTable table first entries s).1) (h : P s) : P (segmentBody args s).1 := by
  have hfailed : P (failLoad s) := hagent (failLoad_only s) (failLoad_ma s).setup h
  have hended {t : State} (ht : P t) : P (endLoad t) := hagent (endLoad_only t) (by rw [endLoad_ma]; rfl) ht
  unfold segmentBody takeSegment refuse
  repeat' split
  · exact h
  · dsimp only
    exact hfailed
  · dsimp only
    exact hfailed
  · dsimp only
    exact hagent (withMa_only s _ |>.mono (by decide)) rfl h
  · unfold lastSegment
    dsimp only
    exact hended (hcommit _ _ _)

theorem CommandKind.body_tableInv (k : CommandKind) (args : List Byte) {s : State} (h : s.tableInv) :
    (k.body args s).1.tableInv := by
  by_cases hk : Block.pu ∈ k.touches
  · cases k <;> dsimp only [CommandKind.body] <;> try exact absurd hk (by decide)
    case loadSegment =>
      exact segmentBody_of (P := State.tableInv) (fun hk _ => tableInv_speaksOf.keep hk (by decide)) args
        (fun table first entries => commitTable_tableInv table first entries h) h
    case selectProduct => exact selectBody_tableInv args h
    case setLot => exact setLotBody_tableInv args h
    case resetFull => exact tableInv_reset rfl
  · exact tableInv_speaksOf.keep (k.body_only args s) (by simpa using hk) h

theorem effect_tableInv (c : Instr) {s : State} (h : s.tableInv) : (effect c s).tableInv := by
  cases hc : kindOf c with
  | some k =>
    obtain rfl := eq_row_of_kindOf hc
    exact effect_row_keeps k h (fun args => k.body_tableInv args h)
      fun c r t => tableInv_speaksOf.keep (finish_only c r t) (by decide)
  | none =>
    by_cases htouches : Block.pu ∈ eventTouches c
    · cases c
      case powerOn => exact tableInv_reset rfl
      all_goals exact absurd htouches (by simp [eventTouches])
    · exact tableInv_speaksOf.keep (effect_event_only hc s) (by simpa using htouches) h

theorem tableInv_keptByTimers : KeptByTimers State.tableInv where
  pending _ _ h := h
  pos _ _ _ _ h := h
  fe _ _ _ _ h := h
  hold _ _ _ _ h := h
  load _ _ _ _ h := h
  status _ _ _ _ h := h

/-! ### The valves under a new setting -/

theorem turns_same_setting {g g' : ValveSetting} {r : ValveRecord} (hproduct : g'.product = g.product)
    (hadmits : g.admits r.state → g'.admits r.state) : r.Turns g g' r := fun _ h =>
  ⟨⟨hadmits h.state, h.excluded, hproduct ▸ h.trim, h.run, h.follows⟩, fun k => hproduct ▸ k⟩

theorem mode_of_not_applies {old new : ValveEntry} {r : ValveRecord} (h : entryApplies old new r = false) :
    new.mode = old.mode := by
  unfold entryApplies at h
  dsimp only at h
  split at h
  all_goals simp_all

/-- The capture countdown reloaded, the valve disarmed (R174). -/
theorem turns_rearmed {g g' : ValveSetting} {r t : ValveRecord} (h : r.Turns g g' t) (n : Nat) (b : Bool) :
    r.Turns g g' { t with countdown := n, armed := b } :=
  h.trans (.same rfl rfl rfl rfl rfl)

theorem State.activeProduct_congr {s x : State} (h : x.pu = s.pu) : x.activeProduct = s.activeProduct := by
  unfold State.activeProduct
  rw [h]

/-- The records of all valves mapped: it is enough to see what becomes of each one. -/
theorem turns_mapValves {s x : State} {f : Fin Config.valves → ValveRecord → ValveRecord} (hvalves : x.te.valves = s.te.valves)
    (hf : ∀ v : Fin Config.valves, s.te.valves[v].Turns (s.setting v) (x.setting v) (f v s.te.valves[v])) :
    s.Turns (x.mapValves f) := by
  intro v
  have hsetting : (x.mapValves f).setting v = x.setting v :=
    setting_congr (by simp only [State.mapValves_te]) (by rw [State.mapValves_ma]) (State.mapValves_pu ..) v
  rw [hsetting, State.mapValves_get, hvalves]
  exact hf v

/-- A VALVE commit: an entry that takes effect gives its record, any other leaves the mode as it was (R128). -/
theorem applyValveCommit_turns {s x : State} (first : Nat) (l : List ValveEntry)
    (htable : x.te.table = putRange s.te.table first l) (hvalves : x.te.valves = s.te.valves)
    (hcount : x.ma.setup.valveCount = s.ma.setup.valveCount) (hpu : x.pu = s.pu) :
    s.Turns (applyValveCommit s.te.table first l.length x) := by
  have hproduct := State.activeProduct_congr hpu
  unfold applyValveCommit
  refine State.Turns.trims ?_ (evalAttention_trims (clearRequests_trims _ (.refl _)))
  refine turns_mapValves hvalves fun v => ?_
  dsimp only
  have hrecord : s.te.valves[v].Turns (s.setting v) (x.setting v)
      (if (decide (first ≤ v.val ∧ v.val < first + l.length) && decide (v.val < x.ma.setup.valveCount) &&
          entryApplies s.te.table[v] x.te.table[v] x.te.valves[v]) = true then
        entryRecord x.te.table[v] x.activeProduct s.te.valves[v] else s.te.valves[v]) := by
    split
    · next hacts =>
      simp only [Bool.and_eq_true, decide_eq_true_eq] at hacts
      rw [hproduct]
      exact entryRecord_turns (g := s.setting v) _ (decide_eq_true hacts.1.2) rfl hproduct _
    · next hacts =>
      refine turns_same_setting hproduct fun hadmits => ?_
      by_cases hbelow : v.val < s.ma.setup.valveCount
      · have hmode : x.te.table[v].mode = s.te.table[v].mode := by
          by_cases hrange : first ≤ v.val ∧ v.val < first + l.length
          · refine mode_of_not_applies (r := x.te.valves[v]) ?_
            simpa [hrange, hcount, hbelow] using hacts
          · rw [htable, putRange_outside _ _ _ hrange]
        unfold State.setting ValveSetting.admits at hadmits ⊢
        rwa [hmode, hcount]
      · unfold State.setting ValveSetting.admits at hadmits ⊢
        rw [if_neg (by simpa using hbelow)] at hadmits
        rwa [if_neg (by simpa [hcount] using hbelow)]
  split
  · exact turns_rearmed hrecord _ _
  · exact hrecord

/-- A changed valve count: valves that leave are EXCLUDED, those that join take the mode of their entry (R129). -/
theorem applyValveCount_turns {s x : State} (hte : x.te = s.te) (hpu : x.pu = s.pu) :
    s.Turns (applyValveCount s.ma.setup.valveCount x) := by
  have hproduct := State.activeProduct_congr hpu
  have hadmits (v : Fin Config.valves) (st : ValveState) (h : decide (v.val < x.ma.setup.valveCount) =
      decide (v.val < s.ma.setup.valveCount)) : (s.setting v).admits st → (x.setting v).admits st := by
    unfold State.setting ValveSetting.admits
    rw [h, hte]
    exact id
  unfold applyValveCount
  dsimp only
  split
  · next hsame =>
    intro v
    rw [hte]
    exact turns_same_setting hproduct (hadmits v _ (by rw [hsame]))
  · refine State.Turns.trims ?_ (evalAttention_trims (clearRequests_trims _ (.refl _)))
    refine turns_mapValves (by rw [hte]) fun v => ?_
    split
    · next hleaves =>
      simp only [decide_eq_true_eq] at hleaves
      exact excluded_turns (decide_eq_false (by omega)) _
    · next hstays =>
      simp only [decide_eq_true_eq] at hstays
      split
      · next hjoins =>
        simp only [Bool.and_eq_true, decide_eq_true_eq] at hjoins
        rw [hproduct]
        exact entryRecord_turns (g := s.setting v) _ (decide_eq_true hjoins.1.2) rfl hproduct _
      · next hnot =>
        refine turns_same_setting hproduct fun h => ?_
        by_cases hjoins : s.ma.setup.valveCount ≤ v.val ∧ v.val < x.ma.setup.valveCount
        · have hmode : x.te.table[v].mode = .excluded := by simpa [hjoins] using hnot
          unfold State.setting ValveSetting.admits at h ⊢
          rw [if_neg (by simpa using hjoins.1)] at h
          rwa [if_pos (by simpa using hjoins.2), hmode]
        · exact hadmits v _ (decide_eq_decide.mpr (by omega)) h

/-- A selection (R146). -/
theorem applySelection_turns {s x : State} (hte : x.te = s.te) (hcount : x.ma.setup.valveCount = s.ma.setup.valveCount) :
    s.Turns (applySelection x) := by
  unfold applySelection
  refine State.Turns.trims ?_ (evalTrimHold_trims (evalAttention_trims (clearRequests_trims _ (.refl _))))
  refine turns_mapValves (by rw [hte]) fun v => ?_
  have hturns := selectedRecord_turns s.te.table[v] (decide (v.val < s.ma.setup.valveCount)) s.activeProduct x.activeProduct
    s.te.valves[v]
  have hsetting : x.setting v = ⟨decide (v.val < s.ma.setup.valveCount), s.te.table[v].mode, x.activeProduct⟩ := by
    unfold State.setting
    rw [hte, hcount]
  rw [hsetting, hte, hcount]
  refine (congrArg _ ?_).mp hturns
  unfold selectedRecord
  simp only [decide_eq_true_eq] <;> rfl

/-! ### Every row -/

theorem turns_of_same {s t : State} (hte : t.te = s.te) (hcount : t.ma.setup.valveCount = s.ma.setup.valveCount)
    (hproduct : ∀ v : Fin Config.valves, s.te.valves[v].Turns (s.setting v) { s.setting v with product := t.activeProduct } s.te.valves[v]) :
    s.Turns t := by
  intro v
  have hsetting : t.setting v = { s.setting v with product := t.activeProduct } := by
    unfold State.setting
    rw [hte, hcount]
  rw [hsetting, hte]
  exact hproduct v

theorem turns_of_same_product {s t : State} (hte : t.te = s.te) (hcount : t.ma.setup.valveCount = s.ma.setup.valveCount)
    (hproduct : t.activeProduct = s.activeProduct) : s.Turns t :=
  turns_of_same hte hcount fun v => by rw [hproduct]; exact ValveRecord.Becomes.refl (g := s.setting v) _

/-- A commit of products leaves the active one (R160). -/
theorem commitProduct_turns (first : Nat) (entries : List (List Byte)) (s : State) :
    s.Turns (commitProduct first entries s).1 := by
  unfold commitProduct refuseAt
  split
  · exact (State.Trims.refl s).turns
  · next l _ =>
    split
    · exact (State.Trims.refl s).turns
    · next hnone =>
      refine turns_of_same_product rfl rfl ?_
      unfold State.activeProduct
      dsimp only
      cases hactive : s.pu.active with
      | none => rfl
      | some k =>
        have hk := List.find?_eq_none.mp hnone k (List.mem_finRange k)
        refine putRange_outside _ _ _ fun hrange => ?_
        simp [hrange, State.inUse, hactive] at hk

theorem Product.withLot_trim {p : Product} {lot : List Byte} (t : Int) : trimOk (some (p.withLot lot)) t = trimOk (some p) t :=
  rfl

/-- A lot change leaves the limits of the active product (R166). -/
theorem setLotBody_turns (args : List Byte) (s : State) : s.Turns (setLotBody args s).1 := by
  unfold setLotBody refuse
  split
  · exact (State.Trims.refl s).turns
  · next k hk =>
    split
    · exact (State.Trims.refl s).turns
    · next p hp =>
      refine turns_of_same rfl rfl fun v _ h => ?_
      have hold : (s.setting v).product = some p := by
        unfold State.setting State.activeProduct
        rw [hk]
        exact hp
      have hnew : (changeLot k p (args.take 8) s).activeProduct = some (p.withLot (args.take 8)) := by
        unfold State.activeProduct changeLot
        simp [hk]
      dsimp only
      rw [hnew]
      have htrim := h.trim
      rw [hold] at htrim ⊢
      exact ⟨⟨h.state, h.excluded, htrim, h.run, h.follows⟩, fun k => ⟨k.n, k.idle, k.eAvg⟩⟩

theorem selectBody_turns (args : List Byte) (s : State) : s.Turns (selectBody args s).1 := by
  have hselect (k : Option (Fin 16)) : s.Turns (selectProduct k s) := applySelection_turns rfl rfl
  unfold selectBody refuse
  dsimp only
  repeat' split
  · dsimp only
    exact hselect _
  · dsimp only
    exact hselect _
  · exact (State.Trims.refl s).turns
  · exact (State.Trims.refl s).turns

/-- The Line Setup record changed, nothing else of the setting's yet. -/
theorem deliverSetup_turns (u : LineSetup) (s : State) : s.Turns (deliverSetup s.ma.setup (s.withSetup u)) := by
  have hother {l : List Block} {x y : State} (h : s.Turns x) (k : OnlyChanges l x y)
      (hl : ∀ b ∈ l, b ≠ .te ∧ b ≠ .pu ∧ b ≠ .ma) : s.Turns y :=
    h.trims ((State.Trims.refl x).only k hl)
  have hgrid : (commitGrid s.ma.setup (s.withSetup u)).te = s.te := (commitGrid_only _ _) .te (by decide)
  have hgridPu : (commitGrid s.ma.setup (s.withSetup u)).pu = s.pu := (commitGrid_only _ _) .pu (by decide)
  have hvalves := applyValveCount_turns hgrid hgridPu
  have hhold : s.Turns (commitTrimHold s.ma.setup (applyValveCount s.ma.setup.valveCount
      (commitGrid s.ma.setup (s.withSetup u)))) := by
    unfold commitTrimHold
    split
    · exact hvalves
    · exact hvalves.trims (evalTrimHold_trims (.refl _))
  have hcollector := hother hhold (commitCollector_only s.ma.setup _) (by decide)
  have hthreshold := hother hcollector (commitThreshold_only s.ma.setup _) (by decide)
  unfold deliverSetup
  refine hthreshold.trims ?_
  generalize commitThreshold _ _ = x
  have hinterval := commitInterval_only s.ma.setup x
  refine (State.Trims.refl x).same (hinterval .te (by decide)) ?_ (hinterval .pu (by decide))
  unfold commitInterval
  dsimp only
  repeat' split
  all_goals rfl

theorem commitTable_turns (table : TableId) (first : Nat) (entries : List (List Byte)) (s : State) :
    s.Turns (commitTable table first entries s).1 := by
  have hother {l : List Block} {t : State} (k : OnlyChanges l s t) (hl : ∀ b ∈ l, b ≠ .te ∧ b ≠ .pu ∧ b ≠ .ma) : s.Turns t :=
    ((State.Trims.refl s).only k hl).turns
  unfold commitTable
  cases table <;> dsimp only
  case channel => exact hother (commitChannel_only first entries s) (by decide)
  case lineSetup =>
    unfold commitLineSetup refuseAt
    split
    · exact (State.Trims.refl s).turns
    · next u _ =>
      dsimp only
      exact deliverSetup_turns u s
  case calibration => exact hother (commitCalibration_only entries s) (by decide)
  case product => exact commitProduct_turns first entries s
  case valve =>
    unfold commitValve refuseAt
    split
    · exact (State.Trims.refl s).turns
    · next l _ =>
      dsimp only
      exact applyValveCommit_turns first l rfl rfl rfl rfl
  case policy => exact hother (commitPolicy_only first entries s) (by decide)

theorem agent_trims {s t : State} (k : OnlyChanges agentBlocks s t) (hsetup : t.ma.setup = s.ma.setup) : s.Trims t :=
  (State.Trims.refl s).same (k .te (by decide)) hsetup (k .pu (by decide))

/-- The power-on values (R135, R149). -/
theorem reset_turns {s t : State} (hte : t.te = State.reset.te) (hsetup : t.ma.setup = State.reset.ma.setup)
    (hpu : t.pu = State.reset.pu) : s.Turns t := by
  intro v
  have hrecord : t.te.valves[v] = {} := by rw [hte]; simp [State.reset]
  have hsetting : t.setting v = ⟨true, .auto, none⟩ := by
    unfold State.setting State.activeProduct
    rw [hte, hsetup, hpu]
    have hmode : State.reset.te.table[v].mode = .auto := by simp [State.reset]
    have hbelow : v.val < State.reset.ma.setup.valveCount := v.isLt
    rw [hmode, decide_eq_true hbelow]
    rfl
  rw [hrecord, hsetting]
  exact turns_afresh (fun _ => .inl rfl) (fun h => by cases h) (fun _ _ => rfl) rfl rfl rfl

end Sys2Proof.Machine
end

section
/-!
PROOFS, the valves through every row: the invariants of the Trim Engine.
-/

namespace Sys2Proof.Machine

theorem beginLoad_setup (args : List Byte) (s : State) : (beginLoad args s).1.ma.setup = s.ma.setup := by
  unfold beginLoad refuse
  dsimp only
  repeat' split
  · rfl
  · rfl
  · rfl
  · rw [report_ma]
    rfl

theorem abortLoad_setup (s : State) : (abortLoad s).ma.setup = s.ma.setup := by
  unfold abortLoad
  split
  · rw [endLoad_ma]
    rfl
  · rfl

theorem thawRing_trims {s t : State} (h : s.Trims t) : s.Trims (thawRing t) := by
  have hrc (x : RingCapture) : s.Trims { t with rc := x } := h.same rfl rfl rfl
  unfold thawRing
  split
  · exact h
  · exact evalTrimHold_trims (report_trims (hrc _))

theorem resetCaptureState_trims {s t : State} (h : s.Trims t) : s.Trims (resetCaptureState t) := by
  have hrc (x : RingCapture) : s.Trims { t with rc := x } := h.same rfl rfl rfl
  have hthawed := evalTrimHold_trims (report_trims (u := t) (hrc { t.rc with
    ring := [], burst := [], freeze := .notFrozen, cause := none }))
  unfold resetCaptureState
  dsimp only
  generalize evalTrimHold _ = x at hthawed ⊢
  refine State.Trims.only ?_ (evalCaptureReady_only _) (by decide)
  exact hthawed.same rfl rfl rfl

theorem CommandKind.body_turns (k : CommandKind) (args : List Byte) (s : State) : s.Turns (k.body args s).1 := by
  have hsame := (State.Trims.refl s).turns
  have hagent {t : State} (h : OnlyChanges agentBlocks s t) (hsetup : t.ma.setup = s.ma.setup) : s.Turns t :=
    (agent_trims h hsetup).turns
  by_cases hk : ∀ b ∈ k.touches, b ≠ .te ∧ b ≠ .pu ∧ b ≠ .ma
  · exact ((State.Trims.refl s).only (k.body_only args s) hk).turns
  · cases k <;> dsimp only [CommandKind.body] <;> try exact absurd (by decide) hk
    case loadBegin => exact hagent (beginLoad_only args s) (beginLoad_setup args s)
    case loadAbort => exact hagent (abortLoad_only s) (abortLoad_setup s)
    case loadSegment =>
      exact segmentBody_of (P := s.Turns) (fun h hsetup ht => ht.trims (agent_trims h hsetup)) args
        (fun table first entries => commitTable_turns table first entries s) hsame
    case selectProduct => exact selectBody_turns args s
    case setLot => exact setLotBody_turns args s
    case trimControl =>
      unfold trimBody refuse
      split
      · exact (setTrimMode_trims .off (.refl s)).turns
      · exact (setTrimMode_trims .hold (.refl s)).turns
      · exact (setTrimMode_trims .auto (.refl s)).turns
      · exact hsame
    case releaseValve =>
      unfold releaseBody refuse
      split
      · exact (releaseFault_trims _ (.refl s)).turns
      · exact hsame
    case clearCounters => exact ((State.Trims.refl s).same rfl rfl rfl).turns
    case clearAlarms =>
      have hground := clearAlarms_only s
      exact ((State.Trims.refl s).same (hground .te (by decide)) (clearAlarms_ma s).setup (hground .pu (by decide))).turns
    case ringFreeze => exact (freezeRing_trims .command (.refl s)).turns
    case ringThaw => exact (thawRing_trims (.refl s)).turns
    case captureControl =>
      unfold captureControlBody refuse
      split
      · exact hsame
      · exact turns_of_same_product rfl rfl rfl
    case resetFull => exact reset_turns rfl rfl rfl
    case resetTracking => exact (trackingReset_reacts (.refl s)).trims.turns
    case resetStatistics => exact (statisticsReset_trims (.refl s)).turns
    case resetLoad => exact hagent (loadReset_only s) (abortLoad_setup s)
    case resetCapture => exact (resetCaptureState_trims (.refl s)).turns

theorem receiveFrame_trims (p : Port) (whole : Bool) (frame : Frame) {s t : State} (h : s.Trims t) :
    s.Trims (receiveFrame p whole frame t) := by
  have hcounted {t : State} (ht : s.Trims t) (x : FramePath) : s.Trims (t.withFp x) := ht.same rfl rfl rfl
  have hforward {t : State} (ht : s.Trims t) (q : Port) (x : Frame) : s.Trims (forwardFrame q x t) :=
    ht.only (forwardFrame_only q x t) (by decide)
  have hunless {t : State} (ht : s.Trims t) (b : Bool) (q : Port) (x : Frame) : s.Trims (forwardUnless b q x t) :=
    ht.only (forwardUnless_only b q x t) (by decide)
  have hintake {t : State} (ht : s.Trims t) (c : Copy) : s.Trims (offerIntake c t) :=
    (ht.trans (agent_trims (joinIntake_only c t) (joinIntake_ma c t).setup)).only (holdArrival_only c _) (by decide)
  have hclassify {t : State} (ht : s.Trims t) (c : Copy) : s.Trims (classifyFrame c frame t) := by
    unfold classifyFrame
    repeat' split
    · exact hforward ht _ _
    · unfold stationFrame
      split
      · exact hforward ht _ _
      · unfold matchedFrame
        dsimp only
        repeat' split
        · exact hunless (hcounted ht _) _ _ _
        · exact hforward (rewriteDose_trims _ _ ht) _ _
        · exact hunless (hcounted ht _) _ _ _
    · unfold mgmtFrame
      repeat' split
      · exact hintake ht c
      · exact hforward (hintake ht c) _ _
      · exact hforward ht _ _
    · unfold flowFrame
      split
      · exact ht.only (takeFlow_only c t) (by decide)
      · exact hforward ht _ _
    · exact hforward ht _ _
  unfold receiveFrame
  dsimp only
  repeat' split
  · exact hcounted (hcounted h _) _
  · exact hcounted (hcounted h _) _
  · unfold acceptFrame
    split
    · exact hforward (hcounted h _) _ _
    · exact hclassify (hcounted h _) _

theorem effect_turns (c : Instr) (s : State) : s.Turns (effect c s) := by
  have hrefl := State.Trims.refl s
  cases hc : kindOf c with
  | some k =>
    obtain rfl := eq_row_of_kindOf hc
    exact effect_row_keeps k hrefl.turns (fun args => k.body_turns args s)
      fun c r t ht => ht.trims (agent_trims (finish_only c r t) rfl)
  | none =>
    by_cases hreacts : onlyReacts c = true
    · exact (effect_event_reacts hc hreacts s).trims.turns
    · cases c <;> try exact absurd rfl hreacts
      case powerOn => exact reset_turns rfl rfl rfl
      case windowResult => exact (nextResult_trims hrefl).turns
      case dischargeFrame =>
        exact (onHanded_of (P := s.Trims) hrefl (fun _ => hrefl.same rfl rfl rfl) fun c t ht => takeDischarge_trims c ht).turns
      case uploadStart => exact (hrefl.only (startUpload_only s) (by decide)).turns
      case captureSegment => exact (hrefl.only (produceSegment_only s) (by decide)).turns
      case captureArm b =>
        rw [effect_captureArm]
        split
        · exact (armValve_trims _ hrefl).turns
        · exact hrefl.turns
      case valveFault b =>
        rw [effect_valveFault]
        split
        · exact (enterFault_trims _ hrefl).turns
        · exact hrefl.turns
      case frameReceived p whole frame =>
        rw [effect_frameReceived]
        split
        · exact (receiveFrame_trims p whole frame hrefl).turns
        · exact hrefl.turns

/-! ### The invariants -/

theorem valveInv_congr {s t : State} (hte : t.te = s.te) (hsetup : t.ma.setup = s.ma.setup) (hpu : t.pu = s.pu)
    (h : s.valveInv) : t.valveInv := by
  rw [valveInv_iff] at h ⊢
  intro v
  rw [setting_congr (by rw [hte]) (by rw [hsetup]) hpu v, hte]
  exact h v

theorem averageInv_congr {s t : State} (hte : t.te = s.te) (hpu : t.pu = s.pu) (h : s.averageInv) : t.averageInv := by
  rw [averageInv_iff] at h ⊢
  rw [hte, State.activeProduct_congr hpu]
  exact h

/-- Valves, averages and the products they rest on. -/
theorem valveInv_keptByTimers : KeptByTimers fun s => s.tableInv ∧ s.valveInv where
  pending _ _ h := ⟨h.1, valveInv_congr rfl rfl rfl h.2⟩
  pos _ _ _ _ h := ⟨h.1, valveInv_congr rfl rfl rfl h.2⟩
  fe _ _ _ _ h := ⟨h.1, valveInv_congr rfl rfl rfl h.2⟩
  hold _ _ _ _ h := ⟨h.1, valveInv_congr rfl rfl rfl h.2⟩
  load _ _ _ _ h := ⟨h.1, valveInv_congr rfl rfl rfl h.2⟩
  status _ _ _ _ h := ⟨h.1, valveInv_congr rfl rfl rfl h.2⟩

theorem averageInv_keptByTimers : KeptByTimers fun s => (s.tableInv ∧ s.valveInv) ∧ s.averageInv where
  pending _ _ h := ⟨valveInv_keptByTimers.pending _ _ h.1, averageInv_congr rfl rfl h.2⟩
  pos _ _ hn hlast h := ⟨valveInv_keptByTimers.pos _ _ hn hlast h.1, averageInv_congr rfl rfl h.2⟩
  fe _ _ hn hlast h := ⟨valveInv_keptByTimers.fe _ _ hn hlast h.1, averageInv_congr rfl rfl h.2⟩
  hold _ _ hn hlast h := ⟨valveInv_keptByTimers.hold _ _ hn hlast h.1, averageInv_congr rfl rfl h.2⟩
  load _ _ hn hlast h := ⟨valveInv_keptByTimers.load _ _ hn hlast h.1, averageInv_congr rfl rfl h.2⟩
  status _ _ hn hlast h := ⟨valveInv_keptByTimers.status _ _ hn hlast h.1, averageInv_congr rfl rfl h.2⟩

theorem effect_valveInv (c : Instr) {s : State} (h : s.tableInv ∧ s.valveInv) :
    (effect c s).tableInv ∧ (effect c s).valveInv :=
  ⟨effect_tableInv c h.1, (effect_turns c s).valveInv (effect_tableInv c h.1) h.2⟩

/-- Settles O45: every row takes a valve's record that agrees with its setting to one that agrees with the setting of afterwards,
an average within its bounds to one within them, and ends what changes a flag's ground in the flag's evaluation. -/
theorem valveInvKept : Obligations.ValveInvKept := by
  unfold Obligations.ValveInvKept
  refine ⟨fun s t htable _ hvalve h => ?_, fun s t htable _ hvalve haverage h => ?_, fun s t hflag h => ?_⟩
  · exact (valveInv_keptByTimers.step (fun c u hu => effect_valveInv c hu) ⟨htable, hvalve⟩ h).2
  · refine (averageInv_keptByTimers.step (fun c u hu => ⟨effect_valveInv c hu.1, ?_⟩) ⟨⟨htable, hvalve⟩, haverage⟩ h).2
    exact (effect_turns c u).averageInv (effect_tableInv c hu.1.1) hu.1.2 hu.2
  · exact flagInv_keptByTimers.step (fun c u hu => effect_flags c hu) hflag h

end Sys2Proof.Machine
end

section
/-!
PROOFS, Line Position: the grid, the residue and the silence timer through every row.
-/

namespace Sys2Proof.Machine

/-! ### The Position Unit in order -/

/-- Grid, residue, pending grid and silence timer of a Position Unit are in order. -/
structure Position.Ok (pos : Position) : Prop where
  grid : pos.onGrid
  pending : ∀ g, pos.pendingGrid = some g → g.2 < g.1
  timer : pos.timer.isSome = !pos.fault

theorem positionInv_iff (s : State) : s.positionInv ↔ s.pos.Ok :=
  ⟨fun ⟨a, b, c, d⟩ => ⟨⟨a, b⟩, c, d⟩, fun ⟨⟨a, b⟩, c, d⟩ => ⟨a, b, c, d⟩⟩

/-- A count that is followed leaves grid and residue in order, no grid pending, the timer running and no fault (R22 to R27). -/
theorem takeCount_ok (c : Word16) {s : State} (h : s.pos.Ok) : (takeCount c s).pos.Ok := by
  have hfollowing := positionInv_following_onGrid ((positionInv_iff s).mpr h) s.ma.setup.encoderSilence c
  by_cases hmoves : 1 ≤ countStep s.pos.lastCount c ∧ countStep s.pos.lastCount c ≤ 32767
  · obtain ⟨hpos, _⟩ := takeCount_forward h.grid rfl hmoves.1 hmoves.2
    rw [hpos]
    exact ⟨hfollowing.step hmoves.2, nofun, rfl⟩
  · obtain ⟨hpos, _⟩ := takeCount_still h.grid rfl hmoves
    rw [hpos]
    exact ⟨hfollowing, nofun, rfl⟩

theorem encoderSilence_pos (s : State) : (encoderSilence s).pos = { s.pos with
    fault := true, timer := none, counters := { s.pos.counters with faults := tally s.pos.counters.faults 1 } } := by
  have hraised (t : State) : (raiseForFault t).pos = t.pos := (raiseForFault_only t) .pos (by decide)
  unfold encoderSilence
  rw [hraised]
  exact (report_only _ _) .pos (by decide)

/-- A commit of a Line Setup record leaves its grid pending, when it changes it (R27). -/
theorem deliverSetup_pos (old : LineSetup) (x : State) : (deliverSetup old x).pos =
    if old.pitch = x.ma.setup.pitch ∧ old.phase = x.ma.setup.phase then x.pos
    else { x.pos with pendingGrid := some (x.ma.setup.pitch, x.ma.setup.phase) } := by
  have hrest (y : State) : (commitInterval old (commitThreshold old (commitCollector old (commitTrimHold old
      (applyValveCount old.valveCount y))))).pos = y.pos := by
    rw [(commitInterval_only old _).keep .pos (by decide), (commitThreshold_only old _).keep .pos (by decide),
      (commitCollector_only old _).keep .pos (by decide), (commitTrimHold_only old _).keep .pos (by decide),
      (applyValveCount_only old.valveCount _).keep .pos (by decide)]
  unfold deliverSetup
  rw [hrest]
  unfold commitGrid
  dsimp only
  split <;> rfl

/-- A commit leaves the Position Unit, or leaves the grid of an accepted Line Setup record pending in it (R27, R190). -/
theorem commitTable_pos (table : TableId) (first : Nat) (entries : List (List Byte)) (s : State) :
    (commitTable table first entries s).1.pos = s.pos ∨ ∃ b u, setupOf b = some u ∧
      (commitTable table first entries s).1.pos = { s.pos with pendingGrid := some (u.pitch, u.phase) } := by
  unfold commitTable
  cases table <;> dsimp only
  case channel => exact .inl ((commitChannel_only first entries s) .pos (by decide))
  case lineSetup =>
    unfold commitLineSetup refuseAt
    split
    · exact .inl rfl
    · next u hu =>
      dsimp only
      rw [deliverSetup_pos]
      split
      · exact .inl rfl
      · exact .inr ⟨_, u, hu, rfl⟩
  case calibration => exact .inl ((commitCalibration_only entries s) .pos (by decide))
  case product => exact .inl ((commitProduct_only first entries s) .pos (by decide))
  case valve => exact .inl ((commitValve_only first entries s) .pos (by decide))
  case policy => exact .inl ((commitPolicy_only first entries s) .pos (by decide))

theorem commitTable_pos_ok (table : TableId) (first : Nat) (entries : List (List Byte)) {s : State} (h : s.pos.Ok) :
    (commitTable table first entries s).1.pos.Ok := by
  rcases commitTable_pos table first entries s with hpos | ⟨b, u, hu, hpos⟩
  · exact hpos ▸ h
  · have hrelated := (setupOf_accepted hu).2
    rw [hpos]
    refine ⟨h.grid, fun g hg => ?_, h.timer⟩
    obtain rfl := Option.some.inj hg
    simp only [LineSetup.related, decide_eq_true_eq] at hrelated
    exact hrelated.1

theorem reset_pos_ok : State.reset.pos.Ok :=
  ⟨⟨by decide, by decide⟩, by decide, by decide⟩

/-! ### Every row -/

theorem positionInv_speaksOf : SpeaksOf [.pos] State.positionInv := by
  intro s t h hs
  have hpos : t.pos = s.pos := h .pos (by decide)
  rw [positionInv_iff] at hs ⊢
  exact hpos ▸ hs

theorem CommandKind.body_positionInv (k : CommandKind) (args : List Byte) {s : State} (h : s.positionInv) :
    (k.body args s).1.positionInv := by
  by_cases hk : Block.pos ∈ k.touches
  · cases k <;> dsimp only [CommandKind.body] <;> try exact absurd hk (by decide)
    case loadSegment =>
      exact segmentBody_of (P := State.positionInv) (fun hk _ => positionInv_speaksOf.keep hk (by decide)) args
        (fun table first entries => (positionInv_iff _).mpr (commitTable_pos_ok table first entries ((positionInv_iff s).mp h))) h
    case clearCounters => exact h
    case resetFull => exact (positionInv_iff _).mpr reset_pos_ok
  · exact positionInv_speaksOf.keep (k.body_only args s) (by simpa using hk) h

theorem effect_positionInv (c : Instr) {s : State} (h : s.positionInv) : (effect c s).positionInv := by
  cases hc : kindOf c with
  | some k =>
    obtain rfl := eq_row_of_kindOf hc
    exact effect_row_keeps k h (fun args => k.body_positionInv args h)
      fun c r t => positionInv_speaksOf.keep (finish_only c r t) (by decide)
  | none =>
    by_cases htouches : Block.pos ∈ eventTouches c
    · cases c
      case powerOn => exact (positionInv_iff _).mpr reset_pos_ok
      case encoderFrame =>
        exact onHanded_of (P := State.positionInv) h (fun _ => h) (f := fun c => takeCount (encoderCount c.payload))
          fun c t ht => (positionInv_iff _).mpr (takeCount_ok _ ((positionInv_iff t).mp ht))
      case encoderSilenceExpiry =>
        rw [effect_encoderSilenceExpiry]
        split
        · rw [positionInv_iff, encoderSilence_pos]
          obtain ⟨hgrid, hpending, _⟩ := (positionInv_iff s).mp h
          exact ⟨hgrid, hpending, rfl⟩
        · exact h
      all_goals exact absurd htouches (by simp [eventTouches])
    · exact positionInv_speaksOf.keep (effect_event_only hc s) (by simpa using htouches) h

theorem positionInv_keptByTimers : KeptByTimers State.positionInv where
  pending _ _ h := h
  pos t n hn _ h := by
    obtain ⟨hgrid, hpending, htimer⟩ := (positionInv_iff t).mp h
    rw [hn] at htimer
    exact (positionInv_iff _).mpr ⟨hgrid, hpending, htimer⟩
  fe _ _ _ _ h := h
  hold _ _ _ _ h := h
  load _ _ _ _ h := h
  status _ _ _ _ h := h

end Sys2Proof.Machine
end

section
/-!
PROOFS, the windows: the window state machine and the window buffer through every row.
-/

namespace Sys2Proof.Machine

/-! ### The Front End in order -/

/-- The state machine of the Front End is in order. -/
structure FrontEnd.Ok (fe : FrontEnd) : Prop where
  window : fe.window.isSome = true ↔ fe.mode = .settle ∨ fe.mode = .window
  silent : fe.weigherSilent = true ↔ fe.mode = .silent
  timer : fe.timer = none ↔ fe.mode = .silent
  empty : fe.mode ≠ .zeroReading → fe.accSum = 0 ∧ fe.accCount = 0
  reading : fe.mode = .zeroReading → fe.accCount < 32

/-- The counts and the buffer of an open window are in order. -/
structure FrontEnd.BufferedIn (fe : FrontEnd) (w : OpenWindow) : Prop where
  fits : w.settle + w.length ≤ 383
  sums : 1 ≤ w.length
  settle : fe.mode = .settle → w.settleCount < w.settle ∧ w.count = 0 ∧ fe.buffer.length = 1 + w.settleCount
  summing : fe.mode = .window → w.count < w.length ∧ fe.buffer.length = 1 + w.settle + w.count

/-- The window buffer is in order. -/
structure FrontEnd.Buffered (fe : FrontEnd) : Prop where
  capacity : fe.buffer.length ≤ 384
  opened : ∀ w, fe.window = some w → fe.BufferedIn w

theorem windowInv_iff (s : State) : s.windowInv ↔ s.fe.Ok :=
  ⟨fun ⟨a, b, c, d, e⟩ => ⟨a, b, c, d, e⟩, fun ⟨a, b, c, d, e⟩ => ⟨a, b, c, d, e⟩⟩

theorem bufferInv_iff (s : State) : s.bufferInv ↔ s.fe.Buffered :=
  ⟨fun ⟨a, b⟩ => ⟨a, fun w hw => have ⟨c, d, e, f⟩ := b w hw; ⟨c, d, e, f⟩⟩,
    fun ⟨a, b⟩ => ⟨a, fun w hw => have ⟨c, d, e, f⟩ := b w hw; ⟨c, d, e, f⟩⟩⟩

/-- Two Front Ends have the same window, state, timer and accumulator. -/
structure FrontEnd.SameWindow (fe fe' : FrontEnd) : Prop where
  mode : fe'.mode = fe.mode
  window : fe'.window = fe.window
  buffer : fe'.buffer = fe.buffer
  accSum : fe'.accSum = fe.accSum
  accCount : fe'.accCount = fe.accCount
  timer : fe'.timer.isSome = fe.timer.isSome
  silent : fe'.weigherSilent = fe.weigherSilent

section Front

variable {fe fe' : FrontEnd}

theorem FrontEnd.SameWindow.ok (h : fe.SameWindow fe') (k : fe.Ok) : fe'.Ok := by
  obtain ⟨hmode, hwindow, _, hsum, hcount, htimer, hsilent⟩ := h
  have htimer' : fe'.timer = none ↔ fe.timer = none := by
    rw [← Option.not_isSome_iff_eq_none, ← Option.not_isSome_iff_eq_none, htimer]
  refine ⟨?_, ?_, ?_, ?_, ?_⟩
  · rw [hwindow, hmode]; exact k.window
  · rw [hsilent, hmode]; exact k.silent
  · rw [htimer', hmode]; exact k.timer
  · rw [hmode, hsum, hcount]; exact k.empty
  · rw [hmode, hcount]; exact k.reading

theorem FrontEnd.SameWindow.buffered (h : fe.SameWindow fe') (k : fe.Buffered) : fe'.Buffered := by
  obtain ⟨hmode, hwindow, hbuffer, _⟩ := h
  refine ⟨hbuffer ▸ k.capacity, fun w hw => ?_⟩
  obtain ⟨hfits, hsums, hsettle, hsumming⟩ := k.opened w (hwindow ▸ hw)
  exact ⟨hfits, hsums, by rwa [hmode, hbuffer], by rwa [hmode, hbuffer]⟩

/-- A Front End with no window has nothing of it in the buffer to keep in order. -/
theorem buffered_of_closed (hwindow : fe.window = none) (hcapacity : fe.buffer.length ≤ 384) : fe.Buffered :=
  ⟨hcapacity, fun w hw => by rw [hwindow] at hw; cases hw⟩

end Front

/-! ### Windows -/

@[simp] theorem report_fe (s t : State) : (report s t).fe = t.fe := (report_only s t) .fe (by decide)

theorem closeWindow_fe (w : OpenWindow) (cut silent : Bool) (s : State) : ∃ results counters,
    (closeWindow w cut silent s).fe = { s.fe with window := none, results := results, counters := counters } :=
  ⟨_, _, rfl⟩

/-- The parameters of a window, those of the active product or 0, 4, 4 and 0, fit the buffer (R42, R48). -/
theorem windowParameters_fit {s : State} (h : s.tableInv) :
    s.windowParameters.1 + s.windowParameters.2.1 ≤ 383 ∧ 1 ≤ s.windowParameters.2.1 := by
  have hgood := goodProduct_active h
  unfold State.windowParameters
  cases hp : s.activeProduct with
  | none => decide
  | some p =>
    obtain ⟨hrange, hrelated⟩ := hgood p hp
    simp only [Product.inRange, Product.related, decide_eq_true_eq] at hrange hrelated
    dsimp only
    omega

theorem openWindow_ok (index : Word16) (sample : Int) {s : State} (hsilent : s.fe.weigherSilent = false)
    (htimer : s.fe.timer ≠ none) : (openWindow index sample s).fe.Ok ∧ (openWindow index sample s).fe.mode ≠ .silent := by
  have hnew : (openWindow index sample s).fe.mode = .window ∨ (openWindow index sample s).fe.mode = .settle := by
    unfold openWindow
    by_cases hsettle : s.windowParameters.1 = 0
    · exact .inl (if_pos hsettle)
    · exact .inr (if_neg hsettle)
  have hheard : (openWindow index sample s).fe.mode ≠ .silent := by rcases hnew with hn | hn <;> rw [hn] <;> decide
  have hidle : (openWindow index sample s).fe.mode ≠ .zeroReading := by rcases hnew with hn | hn <;> rw [hn] <;> decide
  refine ⟨⟨iff_of_true rfl hnew.symm, iff_of_false ?_ hheard, iff_of_false ?_ hheard, fun _ => ⟨rfl, rfl⟩,
    fun hread => absurd hread hidle⟩, hheard⟩
  · exact Bool.eq_false_iff.mp hsilent
  · exact htimer

theorem openWindow_buffered (index : Word16) (sample : Int) {s : State} (h : s.tableInv) :
    (openWindow index sample s).fe.Buffered := by
  obtain ⟨hfits, hsums⟩ := windowParameters_fit h
  refine ⟨by simp [openWindow], fun w hw => ?_⟩
  obtain rfl := Option.some.inj hw
  unfold openWindow
  refine ⟨hfits, hsums, fun hmode => ⟨?_, rfl, rfl⟩, fun hmode => ⟨hsums, ?_⟩⟩
  · by_contra hnot
    have hzero : s.windowParameters.1 = 0 := Nat.eq_zero_of_not_pos hnot
    exact absurd ((if_pos hzero).symm.trans hmode) (by decide)
  · by_contra hnot
    have hpos : s.windowParameters.1 ≠ 0 := fun hzero => hnot (by rw [hzero]; rfl)
    exact absurd ((if_neg hpos).symm.trans hmode) (by decide)

theorem cutWindow_heard (s : State) : (cutWindow s).fe.mode = s.fe.mode ∧
    (cutWindow s).fe.weigherSilent = s.fe.weigherSilent ∧ (cutWindow s).fe.timer = s.fe.timer := by
  unfold cutWindow
  split <;> exact ⟨rfl, rfl, rfl⟩

/-- A Front End that hears its weigher: in order and not SILENT. -/
structure FrontEnd.Heard (fe : FrontEnd) : Prop where
  ok : fe.Ok
  mode : fe.mode ≠ .silent

theorem FrontEnd.Heard.silent {fe : FrontEnd} (h : fe.Heard) : fe.weigherSilent = false :=
  Bool.eq_false_iff.mpr fun hs => h.mode (h.ok.silent.mp hs)

theorem FrontEnd.Heard.timer {fe : FrontEnd} (h : fe.Heard) : fe.timer ≠ none :=
  fun ht => h.mode (h.ok.timer.mp ht)

/-- What a heard Front End becomes in another state that is not SILENT, its timer running. -/
theorem FrontEnd.Heard.becomes {fe fe' : FrontEnd} (h : fe.Heard) (hsilent : fe'.weigherSilent = fe.weigherSilent)
    (htimer : fe'.timer = fe.timer) (hmode : fe'.mode ≠ .silent)
    (hwindow : fe'.window.isSome = true ↔ fe'.mode = .settle ∨ fe'.mode = .window)
    (hempty : fe'.mode ≠ .zeroReading → fe'.accSum = 0 ∧ fe'.accCount = 0)
    (hreading : fe'.mode = .zeroReading → fe'.accCount < 32) : fe'.Heard :=
  ⟨⟨hwindow, by rw [hsilent, h.silent]; exact iff_of_false (by decide) hmode,
    by rw [htimer]; exact iff_of_false h.timer hmode, hempty, hreading⟩, hmode⟩

/-! ### Samples -/

theorem startZeroReading_heard {s : State} (h : s.fe.Heard) : (startZeroReading s).fe.Heard := by
  unfold startZeroReading
  dsimp only
  split
  · split
    · next hcondition =>
      have hclosed : ¬ s.fe.window.isSome = true := by
        rw [h.ok.window]
        rcases hcondition.1 with hm | hm <;> simp only [State.withFe_fe] at hm <;> rw [hm] <;> decide
      exact h.becomes rfl rfl (by simp) (iff_of_false hclosed (by simp)) (fun hn => absurd rfl hn) (fun _ => by simp)
    · exact h.becomes rfl rfl h.mode h.ok.window h.ok.empty h.ok.reading
  · exact h

theorem startZeroReading_buffered {s : State} (h : s.fe.Buffered) : (startZeroReading s).fe.Buffered := by
  unfold startZeroReading
  dsimp only
  split
  · split
    · refine ⟨h.capacity, fun w hw => ?_⟩
      obtain ⟨hfits, hsums, _, _⟩ := h.opened w hw
      exact ⟨hfits, hsums, nofun, nofun⟩
    · have hsame : s.fe.SameWindow { s.fe with counted := false } := ⟨rfl, rfl, rfl, rfl, rfl, rfl, rfl⟩
      exact hsame.buffered h
  · exact h

theorem setZeroFault_fe (b : Bool) (s : State) : (setZeroFault b s).fe = { s.fe with zeroFault := b } := report_fe ..
theorem setZeroDone_fe (b : Bool) (s : State) : (setZeroDone b s).fe = { s.fe with zeroDone := b } := report_fe ..
theorem setWeigherSilent_fe (b : Bool) (s : State) : (setWeigherSilent b s).fe = { s.fe with weigherSilent := b } :=
  report_fe ..

theorem rejectZero_fe (s : State) : (rejectZero s).fe = { s.fe with
    zeroFault := true, counters := { s.fe.counters with zeroRejections := tally s.fe.counters.zeroRejections 1 } } :=
  setZeroFault_fe ..

/-- The evaluation of a reading (R39, R40). -/
def evaluateZero (s : State) : State :=
  if s.fe.manualZero then manualZero (roundDiv s.fe.accSum 32) s else trackZero (roundDiv s.fe.accSum 32) s

/-- Evaluating a reading leaves window, state and accumulator. -/
theorem evaluateZero_same (s : State) : s.fe.SameWindow (evaluateZero s).fe := by
  unfold evaluateZero
  split
  · unfold manualZero
    dsimp only
    split
    · rw [setZeroDone_fe, setZeroFault_fe]
      exact ⟨rfl, rfl, rfl, rfl, rfl, rfl, rfl⟩
    · rw [rejectZero_fe]
      exact ⟨rfl, rfl, rfl, rfl, rfl, rfl, rfl⟩
  · unfold trackZero
    dsimp only
    split
    · rw [setZeroFault_fe]
      exact ⟨rfl, rfl, rfl, rfl, rfl, rfl, rfl⟩
    · rw [rejectZero_fe]
      exact ⟨rfl, rfl, rfl, rfl, rfl, rfl, rfl⟩

/-- A zero reading that has its 32 samples is evaluated and left for CLEAR, the accumulator empty (R37); any other state stays. -/
theorem completeZeroReading_eq (s : State) : completeZeroReading s =
    if s.fe.mode = .zeroReading ∧ 32 ≤ s.fe.accCount then
      (evaluateZero s).withFe { (evaluateZero s).fe with
        mode := .clear, beltClear := 0, accSum := 0, accCount := 0
        counters := { (evaluateZero s).fe.counters with
          zeroReadings := tally (evaluateZero s).fe.counters.zeroReadings 1 } }
    else s := rfl

/-- A zero reading with at most 32 samples taken, or any other state in order, is in order once completed. -/
theorem completeZeroReading_ok {s : State} (hwindow : s.fe.window.isSome = true ↔ s.fe.mode = .settle ∨ s.fe.mode = .window)
    (hsilent : s.fe.weigherSilent = true ↔ s.fe.mode = .silent) (htimer : s.fe.timer = none ↔ s.fe.mode = .silent)
    (hempty : s.fe.mode ≠ .zeroReading → s.fe.accSum = 0 ∧ s.fe.accCount = 0) : (completeZeroReading s).fe.Ok := by
  rw [completeZeroReading_eq]
  split
  · next hcomplete =>
    obtain ⟨hmode, hwindow', _, _, _, htimer', hsilent'⟩ := evaluateZero_same s
    generalize evaluateZero s = t at hmode hwindow' htimer' hsilent' ⊢
    rw [hcomplete.1] at hwindow hsilent htimer
    rw [← hwindow'] at hwindow
    rw [← hsilent'] at hsilent
    rw [← Option.not_isSome_iff_eq_none, ← htimer', Option.not_isSome_iff_eq_none] at htimer
    refine ⟨iff_of_false (fun h => ?_) nofun, iff_of_false (fun h => ?_) nofun, iff_of_false (fun h => ?_) nofun,
      fun _ => ⟨rfl, rfl⟩, nofun⟩
    · exact absurd (hwindow.mp h) (by decide)
    · exact absurd (hsilent.mp h) (by decide)
    · exact absurd (htimer.mp h) (by decide)
  · next hnot => exact ⟨hwindow, hsilent, htimer, hempty, fun hmode => not_le.mp fun hcount => hnot ⟨hmode, hcount⟩⟩

theorem completeZeroReading_buffered {s : State} (h : s.fe.Buffered) : (completeZeroReading s).fe.Buffered := by
  rw [completeZeroReading_eq]
  split
  · have hsame := (evaluateZero_same s).buffered h
    generalize evaluateZero s = t at hsame ⊢
    refine ⟨hsame.capacity, fun w hw => ?_⟩
    obtain ⟨hfits, hsums, _, _⟩ := hsame.opened w hw
    exact ⟨hfits, hsums, nofun, nofun⟩
  · exact h

theorem completeZeroReading_mode {s : State} (h : s.fe.mode ≠ .silent) : (completeZeroReading s).fe.mode ≠ .silent := by
  rw [completeZeroReading_eq]
  split
  · exact nofun
  · exact h

theorem completeSettle_heard {s : State} (h : s.fe.Heard) : (completeSettle s).fe.Heard := by
  unfold completeSettle
  split
  · next w hmode hwindow =>
    split
    · exact h.becomes rfl rfl nofun (iff_of_true (by rw [State.withFe_fe, hwindow]; rfl) (.inr rfl))
        (fun _ => h.ok.empty (by rw [hmode]; decide)) nofun
    · exact h
  · exact h

theorem completeWindow_heard {s : State} (h : s.fe.Heard) : (completeWindow s).fe.Heard := by
  unfold completeWindow
  split
  · next w hmode hwindow =>
    split
    · exact h.becomes rfl rfl nofun (iff_of_false nofun nofun)
        (fun _ => h.ok.empty (by rw [hmode]; decide)) nofun
    · exact h
  · exact h

theorem plainSample_heard (sample : Int) {s : State} (h : s.fe.Heard) : (plainSample sample s).fe.Heard := by
  have hclear : (startZeroReading (countClear s)).fe.Heard :=
    startZeroReading_heard (h.becomes rfl rfl h.mode h.ok.window h.ok.empty h.ok.reading)
  unfold plainSample
  split
  · exact hclear
  · exact hclear
  · next hmode =>
    refine ⟨completeZeroReading_ok h.ok.window h.ok.silent h.ok.timer fun hne => absurd hmode hne,
      completeZeroReading_mode h.mode⟩
  · next hmode =>
    split
    · exact h
    · exact completeSettle_heard (h.becomes rfl rfl h.mode (iff_of_true rfl (.inl hmode)) h.ok.empty h.ok.reading)
  · next hmode =>
    split
    · exact h
    · exact completeWindow_heard (h.becomes rfl rfl h.mode (iff_of_true rfl (.inr hmode)) h.ok.empty h.ok.reading)
  · exact h

/-- A window whose settle count is still to be compared: it goes on settling, or it is summed from the next sample on (R43). -/
theorem completeSettle_buffered {s : State} (hcapacity : s.fe.buffer.length ≤ 384) (hother : s.fe.mode ≠ .settle → s.fe.Buffered)
    (h : s.fe.mode = .settle → ∀ w, s.fe.window = some w → w.settle + w.length ≤ 383 ∧ 1 ≤ w.length ∧
      w.settleCount ≤ w.settle ∧ w.count = 0 ∧ s.fe.buffer.length = 1 + w.settleCount) : (completeSettle s).fe.Buffered := by
  unfold completeSettle
  split
  · next w hmode hwindow =>
    obtain ⟨hfits, hsums, hcount, hzero, hbuffer⟩ := h hmode w hwindow
    split
    · refine ⟨hcapacity, fun x hx => ?_⟩
      obtain rfl : w = x := Option.some.inj (hwindow.symm.trans hx)
      refine ⟨hfits, hsums, nofun, fun _ => ⟨by omega, ?_⟩⟩
      change s.fe.buffer.length = _
      omega
    · refine ⟨hcapacity, fun x hx => ?_⟩
      obtain rfl : w = x := Option.some.inj (hwindow.symm.trans hx)
      exact ⟨hfits, hsums, fun _ => ⟨by omega, hzero, hbuffer⟩, fun hw => absurd (hmode.symm.trans hw) (by decide)⟩
  · next hnot =>
    by_cases hmode : s.fe.mode = .settle
    · cases hw : s.fe.window with
      | none => exact buffered_of_closed hw hcapacity
      | some w => exact absurd hw (hnot w hmode)
    · exact hother hmode

/-- A window whose summed count is still to be compared: it goes on, or it closes (R44). -/
theorem completeWindow_buffered {s : State} (hcapacity : s.fe.buffer.length ≤ 384) (hother : s.fe.mode ≠ .window → s.fe.Buffered)
    (h : s.fe.mode = .window → ∀ w, s.fe.window = some w → w.settle + w.length ≤ 383 ∧ 1 ≤ w.length ∧
      s.fe.buffer.length = 1 + w.settle + w.count) : (completeWindow s).fe.Buffered := by
  unfold completeWindow
  split
  · next w hmode hwindow =>
    obtain ⟨hfits, hsums, hbuffer⟩ := h hmode w hwindow
    split
    · exact buffered_of_closed rfl hcapacity
    · refine ⟨hcapacity, fun x hx => ?_⟩
      obtain rfl : w = x := Option.some.inj (hwindow.symm.trans hx)
      exact ⟨hfits, hsums, fun hw => absurd (hmode.symm.trans hw) (by decide), fun _ => ⟨by omega, hbuffer⟩⟩
  · next hnot =>
    by_cases hmode : s.fe.mode = .window
    · cases hw : s.fe.window with
      | none => exact buffered_of_closed hw hcapacity
      | some w => exact absurd hw (hnot w hmode)
    · exact hother hmode

theorem plainSample_buffered (sample : Int) {s : State} (h : s.fe.Buffered) : (plainSample sample s).fe.Buffered := by
  have hclear : (startZeroReading (countClear s)).fe.Buffered := by
    have hsame : s.fe.SameWindow (countClear s).fe := ⟨rfl, rfl, rfl, rfl, rfl, rfl, rfl⟩
    exact startZeroReading_buffered (hsame.buffered h)
  unfold plainSample
  split
  · exact hclear
  · exact hclear
  · exact completeZeroReading_buffered ⟨h.capacity, fun w hw => have ⟨a, b, c, d⟩ := h.opened w hw; ⟨a, b, c, d⟩⟩
  · next hmode =>
    split
    · exact h
    · next w hw =>
      obtain ⟨hfits, hsums, hsettle, _⟩ := h.opened w hw
      obtain ⟨hcount, hzero, hbuffer⟩ := hsettle hmode
      have hlength : (s.fe.buffer ++ [sample]).length = 1 + (w.settleCount + 1) := by simp [hbuffer]; omega
      refine completeSettle_buffered ?_ (fun hne => absurd hmode hne) fun _ x hx => ?_
      · change (s.fe.buffer ++ [sample]).length ≤ _
        omega
      · obtain rfl := Option.some.inj hx
        exact ⟨hfits, hsums, hcount, hzero, hlength⟩
  · next hmode =>
    split
    · exact h
    · next w hw =>
      obtain ⟨hfits, hsums, _, hsumming⟩ := h.opened w hw
      obtain ⟨hcount, hbuffer⟩ := hsumming hmode
      have hlength : (s.fe.buffer ++ [sample]).length = 1 + w.settle + (w.count + 1) := by simp [hbuffer]; omega
      refine completeWindow_buffered ?_ (fun hne => absurd hmode hne) fun _ x hx => ?_
      · change (s.fe.buffer ++ [sample]).length ≤ _
        omega
      · obtain rfl := Option.some.inj hx
        exact ⟨hfits, hsums, hlength⟩
  · exact h

theorem handleSample_heard (x : Word16 × Int × Bool) {s : State} (h : s.fe.Heard) : (handleSample s x).fe.Heard := by
  unfold handleSample
  split
  · obtain ⟨_, hsilent, htimer⟩ := cutWindow_heard s
    obtain ⟨hok, hmode⟩ := openWindow_ok x.1 x.2.1 (hsilent.trans h.silent) (htimer ▸ h.timer)
    exact ⟨hok, hmode⟩
  · exact plainSample_heard _ h

theorem handleSample_buffered (x : Word16 × Int × Bool) {s : State} (htable : s.tableInv) (h : s.fe.Buffered) :
    (handleSample s x).fe.Buffered := by
  unfold handleSample
  split
  · exact openWindow_buffered _ _ (tableInv_speaksOf.keep (cutWindow_only s) (by decide) htable)
  · exact plainSample_buffered _ h

theorem samples_heard (l : List (Word16 × Int × Bool)) {s : State} (h : s.fe.Heard) : (l.foldl handleSample s).fe.Heard := by
  induction l generalizing s with
  | nil => exact h
  | cons x rest ih => exact ih (handleSample_heard x h)

theorem samples_buffered (l : List (Word16 × Int × Bool)) {s : State} (htable : s.tableInv) (h : s.fe.Buffered) :
    (l.foldl handleSample s).fe.Buffered := by
  induction l generalizing s with
  | nil => exact h
  | cons x rest ih =>
    exact ih (tableInv_speaksOf.keep (handleSample_only s x) (by decide) htable) (handleSample_buffered x htable h)

/-! ### Sample frames and silence -/

theorem handleGap_ok {s : State} (h : s.fe.Ok) : (handleGap s).fe.Ok := by
  have hgap : FrontEnd.Ok { s.fe with window := s.fe.window.map fun w => { w with gap := true } } := by
    refine ⟨?_, h.silent, h.timer, h.empty, h.reading⟩
    rw [← h.window]
    dsimp only
    rw [Option.isSome_map]
  unfold handleGap
  split
  · exact ⟨h.window, h.silent, h.timer, h.empty, h.reading⟩
  · exact ⟨h.window, h.silent, h.timer, h.empty, h.reading⟩
  · next hmode =>
    obtain ⟨hwindow, hsilent, htimer, _, _⟩ := h
    rw [hmode] at hwindow hsilent htimer
    refine ⟨iff_of_false (fun k => ?_) nofun, iff_of_false (fun k => ?_) nofun, iff_of_false (fun k => ?_) nofun,
      fun _ => ⟨rfl, rfl⟩, nofun⟩
    · exact absurd (hwindow.mp k) (by decide)
    · exact absurd (hsilent.mp k) (by decide)
    · exact absurd (htimer.mp k) (by decide)
  · exact hgap
  · exact hgap
  · exact h

theorem handleGap_buffered {s : State} (h : s.fe.Buffered) : (handleGap s).fe.Buffered := by
  have hgap : FrontEnd.Buffered { s.fe with window := s.fe.window.map fun w => { w with gap := true } } := by
    refine ⟨h.capacity, fun w hw => ?_⟩
    obtain ⟨x, hx, rfl⟩ := Option.map_eq_some_iff.mp hw
    obtain ⟨a, b, c, d⟩ := h.opened x hx
    exact ⟨a, b, c, d⟩
  have hsame {fe : FrontEnd} (k : s.fe.SameWindow fe) : fe.Buffered := k.buffered h
  unfold handleGap
  split
  · exact hsame ⟨rfl, rfl, rfl, rfl, rfl, rfl, rfl⟩
  · exact hsame ⟨rfl, rfl, rfl, rfl, rfl, rfl, rfl⟩
  · exact ⟨h.capacity, fun w hw => have ⟨a, b, _, _⟩ := h.opened w hw; ⟨a, b, nofun, nofun⟩⟩
  · exact hgap
  · exact hgap
  · exact h

theorem countGap_ok (g : Nat) {s : State} (h : s.fe.Ok) : (countGap g s).fe.Ok := by
  unfold countGap
  split
  · exact h
  · exact handleGap_ok ⟨h.window, h.silent, h.timer, h.empty, h.reading⟩

theorem countGap_buffered (g : Nat) {s : State} (h : s.fe.Buffered) : (countGap g s).fe.Buffered := by
  unfold countGap
  split
  · exact h
  · have hsame : s.fe.SameWindow { s.fe with counters := { s.fe.counters with missing := tally s.fe.counters.missing g } } :=
      ⟨rfl, rfl, rfl, rfl, rfl, rfl, rfl⟩
    exact handleGap_buffered (hsame.buffered h)

/-- A taken frame leaves SILENT; with its timer running the Front End hears its weigher (R34, R35). -/
theorem leaveSilent_heard {s : State} (h : s.fe.Ok) (expected : Option Word16) (n : Nat) :
    FrontEnd.Heard { (leaveSilent s).fe with expected := expected, timer := some n } := by
  unfold leaveSilent
  dsimp only
  split
  · next hmode =>
    rw [State.withFe_fe, setWeigherSilent_fe]
    refine ⟨⟨iff_of_false (fun k => ?_) nofun, iff_of_false nofun nofun, iff_of_false nofun nofun, fun _ => ?_, nofun⟩, nofun⟩
    · exact absurd (h.window.mp k) (by rw [hmode]; decide)
    · exact h.empty (by rw [hmode]; decide)
  · next hmode => exact ⟨⟨h.window, h.silent, iff_of_false nofun hmode, h.empty, h.reading⟩, hmode⟩

theorem leaveSilent_buffered {s : State} (h : s.fe.Buffered) (expected : Option Word16) (n : Nat) :
    FrontEnd.Buffered { (leaveSilent s).fe with expected := expected, timer := some n } := by
  unfold leaveSilent
  dsimp only
  split
  · rw [State.withFe_fe, setWeigherSilent_fe]
    exact ⟨h.capacity, fun w hw => have ⟨a, b, _, _⟩ := h.opened w hw; ⟨a, b, nofun, nofun⟩⟩
  · exact ⟨h.capacity, fun w hw => have ⟨a, b, c, d⟩ := h.opened w hw; ⟨a, b, c, d⟩⟩

theorem takeSamples_ok (payload : List Byte) {s : State} (h : s.fe.Ok) : (takeSamples payload s).fe.Ok := by
  unfold takeSamples
  split
  · exact ⟨h.window, h.silent, h.timer, h.empty, h.reading⟩
  · next g _ => exact (samples_heard _ (leaveSilent_heard (countGap_ok g h) _ _)).ok

theorem takeSamples_buffered (payload : List Byte) {s : State} (htable : s.tableInv) (h : s.fe.Buffered) :
    (takeSamples payload s).fe.Buffered := by
  unfold takeSamples
  split
  · have hsame : s.fe.SameWindow { s.fe with counters := { s.fe.counters with stale := tally s.fe.counters.stale 1 } } :=
      ⟨rfl, rfl, rfl, rfl, rfl, rfl, rfl⟩
    exact hsame.buffered h
  · next g _ =>
    refine samples_buffered _ ?_ (leaveSilent_buffered (countGap_buffered g h) _ _)
    have hready : (leaveSilent (countGap g s)).tableInv :=
      tableInv_speaksOf.keep (leaveSilent_only _) (by decide)
        (tableInv_speaksOf.keep (countGap_only g s) (by decide) htable)
    exact hready

/-- The expiry of the silence timer closes a window and abandons a zero reading (R47). -/
theorem closeSilent_closed {s : State} (h : s.fe.Ok) :
    (closeSilent s).fe.window = none ∧ (closeSilent s).fe.accSum = 0 ∧ (closeSilent s).fe.accCount = 0 := by
  unfold closeSilent
  split
  · next hmode _ => exact ⟨rfl, h.empty (by rw [hmode]; decide)⟩
  · next hmode _ => exact ⟨rfl, h.empty (by rw [hmode]; decide)⟩
  · next hmode =>
    refine ⟨Option.not_isSome_iff_eq_none.mp fun k => ?_, rfl, rfl⟩
    exact absurd (h.window.mp k) (by rw [hmode]; decide)
  · next hread hsettle hsum =>
    have hclosed : s.fe.window = none := by
      cases hw : s.fe.window with
      | none => rfl
      | some w =>
        rcases h.window.mp (by rw [hw]; rfl) with hmode | hmode
        · exact absurd hw (hsettle w hmode)
        · exact absurd hw (hsum w hmode)
    exact ⟨hclosed, h.empty hread⟩

theorem digitiserSilence_ok {s : State} (h : s.fe.Ok) : (digitiserSilence s).fe.Ok := by
  obtain ⟨hwindow, hsum, hcount⟩ := closeSilent_closed h
  unfold digitiserSilence
  dsimp only
  rw [setWeigherSilent_fe]
  exact ⟨iff_of_false (by rw [State.withFe_fe, hwindow]; decide) nofun, iff_of_true rfl rfl, iff_of_true rfl rfl,
    fun _ => ⟨hsum, hcount⟩, nofun⟩

theorem digitiserSilence_buffered {s : State} (hok : s.fe.Ok) (h : s.fe.Buffered) : (digitiserSilence s).fe.Buffered := by
  obtain ⟨hwindow, _, _⟩ := closeSilent_closed hok
  have hbuffer : (closeSilent s).fe.buffer = s.fe.buffer := by
    unfold closeSilent
    split <;> rfl
  unfold digitiserSilence
  dsimp only
  rw [setWeigherSilent_fe]
  exact buffered_of_closed hwindow (by rw [State.withFe_fe, hbuffer]; exact h.capacity)

/-- A TRACKING reset abandons an open window (R56). -/
theorem abandonWindow_ok {s : State} (h : s.fe.Ok) : (abandonWindow s).fe.Ok := by
  have habandoned (hmode : s.fe.mode ≠ .silent) (hread : s.fe.mode ≠ .zeroReading) :
      FrontEnd.Ok { s.fe with window := none, buffer := [], mode := .occupied, beltClear := 0 } := by
    have hheard : s.fe.Heard := ⟨h, hmode⟩
    exact ⟨iff_of_false nofun nofun, iff_of_false (Bool.eq_false_iff.mp hheard.silent) nofun,
      iff_of_false hheard.timer nofun, fun _ => h.empty hread, nofun⟩
  unfold abandonWindow
  split
  · next hmode => exact habandoned (by rw [hmode]; decide) (by rw [hmode]; decide)
  · next hmode => exact habandoned (by rw [hmode]; decide) (by rw [hmode]; decide)
  all_goals exact h

theorem abandonWindow_buffered {s : State} (h : s.fe.Buffered) : (abandonWindow s).fe.Buffered := by
  unfold abandonWindow
  split
  · exact buffered_of_closed rfl (Nat.zero_le _)
  · exact buffered_of_closed rfl (Nat.zero_le _)
  all_goals exact h

/-! ### The rows that leave the windows -/

theorem FrontEnd.SameWindow.refl (fe : FrontEnd) : fe.SameWindow fe := ⟨rfl, rfl, rfl, rfl, rfl, rfl, rfl⟩

theorem clearAlarms_fe (s : State) : (clearAlarms s).fe = { s.fe with zeroDone := false } := by
  have hlineStop (t : State) : (clearLineStop t).fe = t.fe := report_fe _ _
  have hunexpected (t : State) : (clearUnexpected t).fe = t.fe := report_fe _ _
  have hbefore : (clearOverrun (raiseForFault (clearUnexpected (clearLineStop s)))).fe = s.fe := by
    unfold clearOverrun
    rw [report_fe, State.withMa_fe, (raiseForFault_only _).keep .fe (by decide), hunexpected, hlineStop]
  unfold clearAlarms
  rw [setZeroDone_fe, hbefore]

theorem zeroNowBody_window (s : State) : s.fe.SameWindow (zeroNowBody s).1.fe := by
  unfold zeroNowBody refuse
  split
  · exact .refl _
  · rw [setZeroDone_fe]
    exact ⟨rfl, rfl, rfl, rfl, rfl, rfl, rfl⟩

theorem commitTable_window (table : TableId) (first : Nat) (entries : List (List Byte)) (s : State) :
    s.fe.SameWindow (commitTable table first entries s).1.fe := by
  have hother {l : List Block} {t : State} (k : OnlyChanges l s t) (hl : Block.fe ∉ l) : s.fe.SameWindow t.fe := by
    have hfe : t.fe = s.fe := k .fe hl
    rw [hfe]
    exact .refl _
  unfold commitTable
  cases table <;> dsimp only
  case channel => exact hother (commitChannel_only first entries s) (by decide)
  case lineSetup => exact hother (commitLineSetup_only entries s) (by decide)
  case calibration =>
    unfold commitCalibration
    dsimp only
    rw [setZeroFault_fe]
    exact ⟨rfl, rfl, rfl, rfl, rfl, rfl, rfl⟩
  case product => exact hother (commitProduct_only first entries s) (by decide)
  case valve => exact hother (commitValve_only first entries s) (by decide)
  case policy => exact hother (commitPolicy_only first entries s) (by decide)

theorem nextResult_window (s : State) : s.fe.SameWindow (nextResult s).fe := by
  unfold nextResult
  split
  · exact .refl _
  · rw [(takeResult_only _ _).keep .fe (by decide)]
    exact ⟨rfl, rfl, rfl, rfl, rfl, rfl, rfl⟩

/-- The commands of Table 11-3 leave the windows, but for the two resets that act on them. -/
theorem CommandKind.body_window (k : CommandKind) (args : List Byte) (s : State) (hfull : k ≠ .resetFull)
    (htracking : k ≠ .resetTracking) : s.fe.SameWindow (k.body args s).1.fe := by
  by_cases hk : Block.fe ∈ k.touches
  · cases k <;> dsimp only [CommandKind.body] <;> try exact absurd hk (by decide)
    case loadSegment =>
      refine segmentBody_of (P := fun t => s.fe.SameWindow t.fe) (fun {t u} hchange _ h => ?_) args
        (fun table first entries => commitTable_window table first entries s) (.refl _)
      have hfe : u.fe = t.fe := hchange .fe (by decide)
      exact hfe ▸ h
    case clearCounters => exact ⟨rfl, rfl, rfl, rfl, rfl, rfl, rfl⟩
    case clearAlarms =>
      rw [clearAlarms_fe]
      exact ⟨rfl, rfl, rfl, rfl, rfl, rfl, rfl⟩
    case zeroNow => exact zeroNowBody_window s
    case resetFull => exact absurd rfl hfull
    case resetTracking => exact absurd rfl htracking
  · have hfe : (k.body args s).1.fe = s.fe := (k.body_only args s) .fe hk
    rw [hfe]
    exact .refl _

theorem trackingReset_fe (s : State) : ∃ t : State, t.fe = s.fe ∧ trackingReset s = abandonWindow t :=
  ⟨loseQueue (forgetSequences (flushRecords s)), by
    rw [(loseQueue_only _).keep .fe (by decide)]
    exact (flushRecords_only s).keep .fe (by decide), rfl⟩

end Sys2Proof.Machine
end

section
/-!
PROOFS, Line Position and the windows: their invariants through every step.
-/

namespace Sys2Proof.Machine

theorem reset_fe_ok (results : List WindowResult) : FrontEnd.Ok { State.reset.fe with results := results }  := by
  have hreset : State.reset.fe.Ok := ⟨by decide, by decide, by decide, by decide, by decide⟩
  exact ⟨hreset.window, hreset.silent, hreset.timer, hreset.empty, hreset.reading⟩

theorem reset_fe_buffered (results : List WindowResult) : FrontEnd.Buffered { State.reset.fe with results := results } :=
  buffered_of_closed rfl (Nat.zero_le _)

/-- The events that act on the windows. -/
theorem event_keeps_window {c : Instr} (hc : kindOf c = none) (htouches : Block.fe ∉ eventTouches c) (s : State) :
    s.fe.SameWindow (effect c s).fe := by
  have hfe : (effect c s).fe = s.fe := (effect_event_only hc s) .fe htouches
  rw [hfe]
  exact .refl _

theorem body_fe_ok (k : CommandKind) (args : List Byte) {s : State} (h : s.fe.Ok) : (k.body args s).1.fe.Ok := by
  by_cases hfull : k = .resetFull
  · subst hfull
    exact reset_fe_ok s.fe.results
  · by_cases htracking : k = .resetTracking
    · subst htracking
      obtain ⟨t, hfe, heq⟩ := trackingReset_fe s
      change (trackingReset s).fe.Ok
      rw [heq]
      exact abandonWindow_ok (hfe ▸ h)
    · exact (k.body_window args s hfull htracking).ok h

theorem body_fe_buffered (k : CommandKind) (args : List Byte) {s : State} (h : s.fe.Buffered) :
    (k.body args s).1.fe.Buffered := by
  by_cases hfull : k = .resetFull
  · subst hfull
    exact reset_fe_buffered s.fe.results
  · by_cases htracking : k = .resetTracking
    · subst htracking
      obtain ⟨t, hfe, heq⟩ := trackingReset_fe s
      change (trackingReset s).fe.Buffered
      rw [heq]
      exact abandonWindow_buffered (hfe ▸ h)
    · exact (k.body_window args s hfull htracking).buffered h

theorem completeSettle_ok {s : State} (h : s.fe.Ok) : (completeSettle s).fe.Ok := by
  by_cases hmode : s.fe.mode = .silent
  · have hsame : completeSettle s = s := by
      unfold completeSettle
      rw [hmode]
    rwa [hsame]
  · exact (completeSettle_heard ⟨h, hmode⟩).ok

theorem completeWindow_ok {s : State} (h : s.fe.Ok) : (completeWindow s).fe.Ok := by
  by_cases hmode : s.fe.mode = .silent
  · have hsame : completeWindow s = s := by
      unfold completeWindow
      rw [hmode]
    rwa [hsame]
  · exact (completeWindow_heard ⟨h, hmode⟩).ok

theorem startZeroReading_ok {s : State} (h : s.fe.Ok) : (startZeroReading s).fe.Ok := by
  by_cases hmode : s.fe.mode = .silent
  · unfold startZeroReading
    dsimp only
    split
    · rw [if_neg fun hcondition => by rw [State.withFe_fe, hmode] at hcondition; simp at hcondition]
      exact ⟨h.window, h.silent, h.timer, h.empty, h.reading⟩
    · exact h
  · exact (startZeroReading_heard ⟨h, hmode⟩).ok

theorem effect_windowInv (c : Instr) {s : State} (hs : s.windowInv) : (effect c s).windowInv := by
  have h := (windowInv_iff s).mp hs
  rw [windowInv_iff]
  cases hc : kindOf c with
  | some k =>
    obtain rfl := eq_row_of_kindOf hc
    exact effect_row_keeps (P := fun t => t.fe.Ok) k h (fun args => body_fe_ok k args h) fun c r t ht => ht
  | none =>
    by_cases htouches : Block.fe ∈ eventTouches c
    · cases c
      case powerOn => exact reset_fe_ok []
      case sampleFrame =>
        exact onHanded_of (P := fun t => t.fe.Ok) (f := fun c => takeSamples c.payload) h (fun _ => h)
          fun c t ht => takeSamples_ok _ ht
      case zeroReadingStart => exact startZeroReading_ok h
      case zeroReadingComplete => exact completeZeroReading_ok h.window h.silent h.timer h.empty
      case settleComplete => exact completeSettle_ok h
      case windowClose => exact completeWindow_ok h
      case digitiserSilenceExpiry =>
        rw [effect_digitiserSilenceExpiry]
        split
        · exact digitiserSilence_ok h
        · exact h
      case windowResult => exact (nextResult_window s).ok h
      all_goals exact absurd htouches (by simp [eventTouches])
    · exact (event_keeps_window hc htouches s).ok h

theorem effect_bufferInv (c : Instr) {s : State} (htable : s.tableInv) (hwindow : s.windowInv) (hs : s.bufferInv) :
    (effect c s).bufferInv := by
  have hok := (windowInv_iff s).mp hwindow
  have h := (bufferInv_iff s).mp hs
  rw [bufferInv_iff]
  cases hc : kindOf c with
  | some k =>
    obtain rfl := eq_row_of_kindOf hc
    exact effect_row_keeps (P := fun t => t.fe.Buffered) k h (fun args => body_fe_buffered k args h) fun c r t ht => ht
  | none =>
    by_cases htouches : Block.fe ∈ eventTouches c
    · cases c
      case powerOn => exact reset_fe_buffered []
      case sampleFrame =>
        exact (onHanded_of (P := fun t => t.tableInv ∧ t.fe.Buffered) (f := fun c => takeSamples c.payload) ⟨htable, h⟩
          (fun _ => ⟨htable, h⟩) fun c t ht => ⟨tableInv_speaksOf.keep (takeSamples_only _ t) (by decide) ht.1,
            takeSamples_buffered _ ht.1 ht.2⟩).2
      case zeroReadingStart => exact startZeroReading_buffered h
      case zeroReadingComplete => exact completeZeroReading_buffered h
      case settleComplete =>
        refine completeSettle_buffered h.capacity (fun _ => h) fun hmode w hw => ?_
        obtain ⟨hfits, hsums, hsettle, _⟩ := h.opened w hw
        obtain ⟨hcount, hzero, hbuffer⟩ := hsettle hmode
        exact ⟨hfits, hsums, hcount.le, hzero, hbuffer⟩
      case windowClose =>
        refine completeWindow_buffered h.capacity (fun _ => h) fun hmode w hw => ?_
        obtain ⟨hfits, hsums, _, hsumming⟩ := h.opened w hw
        exact ⟨hfits, hsums, (hsumming hmode).2⟩
      case digitiserSilenceExpiry =>
        rw [effect_digitiserSilenceExpiry]
        split
        · exact digitiserSilence_buffered hok h
        · exact h
      case windowResult => exact (nextResult_window s).buffered h
      all_goals exact absurd htouches (by simp [eventTouches])
    · exact (event_keeps_window hc htouches s).buffered h

/-! ### Every step -/

theorem windowInv_keptByTimers : KeptByTimers State.windowInv where
  pending _ _ h := h
  pos _ _ _ _ h := h
  fe t n hn _ h := by
    rw [windowInv_iff] at h ⊢
    have hsame : t.fe.SameWindow { t.fe with timer := some (n - 1) } := ⟨rfl, rfl, rfl, rfl, rfl, by rw [hn]; rfl, rfl⟩
    exact hsame.ok h
  hold _ _ _ _ h := h
  load _ _ _ _ h := h
  status _ _ _ _ h := h

theorem bufferInv_keptByTimers : KeptByTimers fun s => (s.tableInv ∧ s.windowInv) ∧ s.bufferInv where
  pending _ _ h := h
  pos _ _ _ _ h := h
  fe t n hn hlast h := ⟨⟨h.1.1, windowInv_keptByTimers.fe t n hn hlast h.1.2⟩, h.2⟩
  hold _ _ _ _ h := h
  load _ _ _ _ h := h
  status _ _ _ _ h := h

/-- Settles O24: each row keeps the Position Unit, the window state machine and the window buffer in order, and so does a timer
that counts. -/
theorem positionAndWindowInvKept : Obligations.PositionAndWindowInvKept := by
  unfold Obligations.PositionAndWindowInvKept
  refine ⟨fun s t hs h => positionInv_keptByTimers.step (fun c u hu => effect_positionInv c hu) hs h,
    fun s t hs h => windowInv_keptByTimers.step (fun c u hu => effect_windowInv c hu) hs h,
    fun s t htable hwindow hs h => ?_⟩
  refine (bufferInv_keptByTimers.step (fun c u hu => ?_) ⟨⟨htable, hwindow⟩, hs⟩ h).2
  obtain ⟨⟨hutable, huwindow⟩, hubuffer⟩ := hu
  exact ⟨⟨effect_tableInv c hutable, effect_windowInv c huwindow⟩, effect_bufferInv c hutable huwindow hubuffer⟩

end Sys2Proof.Machine
end

section
/-!
PROOFS, the order of the Tracking Queue as a fact about lists: what a new can, a coded can, a tick, a removal, a match and a lookahead
match make of records in order.
-/

namespace Sys2Proof.Machine

/-! ### Lists -/

/-- Every element of a list stands in `P` with the elements after it. -/
def Suffixes {α : Type} (P : α → List α → Prop) : List α → Prop
  | [] => True
  | a :: after => P a after ∧ Suffixes P after

theorem suffixes_iff {α : Type} {P : α → List α → Prop} {l : List α} :
    Suffixes P l ↔ ∀ before after a, l = before ++ a :: after → P a after := by
  induction l with
  | nil => exact iff_of_true trivial fun before after a h => by simp at h
  | cons x rest ih =>
    refine ⟨fun ⟨hx, hrest⟩ before after a h => ?_, fun h => ⟨h [] rest x rfl, ih.mpr fun before after a hl => ?_⟩⟩
    · cases before with
      | nil =>
        obtain ⟨rfl, rfl⟩ := List.cons.inj h
        exact hx
      | cons y before => exact ih.mp hrest before after a (List.cons.inj h).2
    · exact h (x :: before) after a (by rw [hl]; rfl)

theorem suffixes_append {α : Type} {P : α → List α → Prop} {a b : List α} :
    Suffixes P (a ++ b) ↔ Suffixes (fun x after => P x (after ++ b)) a ∧ Suffixes P b := by
  induction a with
  | nil => simp [Suffixes]
  | cons x rest ih => simp [Suffixes, ih, and_assoc]

theorem Suffixes.imp {α : Type} {P Q : α → List α → Prop} {l : List α} (h : Suffixes P l)
    (hPQ : ∀ x after, x ∈ l → (∀ y ∈ after, y ∈ l) → P x after → Q x after) : Suffixes Q l := by
  induction l with
  | nil => trivial
  | cons x rest ih =>
    refine ⟨hPQ x rest (by simp) (fun y hy => List.mem_cons_of_mem _ hy) h.1, ih h.2 fun y after hy hafter => ?_⟩
    exact hPQ y after (List.mem_cons_of_mem _ hy) fun z hz => List.mem_cons_of_mem _ (hafter z hz)

theorem suffixes_map {α β : Type} {P : β → List β → Prop} (f : α → β) {l : List α} :
    Suffixes P (l.map f) ↔ Suffixes (fun x after => P (f x) (after.map f)) l := by
  induction l with
  | nil => exact Iff.rfl
  | cons x rest ih => simp [Suffixes, ih]

theorem updateFirst_append {α : Type} {p : α → Bool} {f : α → α} {a b : List α} (h : ∀ x ∈ a, p x = false) :
    updateFirst p f (a ++ b) = a ++ updateFirst p f b := by
  induction a with
  | nil => rfl
  | cons x rest ih =>
    rw [List.cons_append, updateFirst, if_neg (by rw [h x (by simp)]; decide), ih fun y hy => h y (List.mem_cons_of_mem _ hy)]
    rfl

theorem updateFirst_cons {α : Type} {p : α → Bool} {f : α → α} {x : α} {l : List α} (h : p x = true) :
    updateFirst p f (x :: l) = f x :: l :=
  if_pos h

theorem updateFirst_of_none {α : Type} {p : α → Bool} {f : α → α} {l : List α} (h : ∀ x ∈ l, p x = false) :
    updateFirst p f l = l := by
  simpa [updateFirst] using updateFirst_append (f := f) (b := []) h

theorem removeFirst_append {α : Type} {p : α → Bool} {a b : List α} (h : ∀ x ∈ a, p x = false) :
    removeFirst p (a ++ b) = a ++ removeFirst p b := by
  induction a with
  | nil => rfl
  | cons x rest ih =>
    rw [List.cons_append, removeFirst, if_neg (by rw [h x (by simp)]; decide), ih fun y hy => h y (List.mem_cons_of_mem _ hy)]
    rfl

/-- Where the first elements that satisfy `p` stand together, the first `k` of them are removed together. -/
theorem removeFirstN_append {α : Type} {p : α → Bool} {a b c : List α} (ha : ∀ x ∈ a, p x = false) (hb : ∀ x ∈ b, p x = true)
    {k : Nat} (hk : k ≤ b.length) : removeFirstN p k (a ++ (b ++ c)) = a ++ (b.drop k ++ c) := by
  induction k generalizing b with
  | zero => rfl
  | succ n ih =>
    cases b with
    | nil => simp at hk
    | cons x rest =>
      rw [removeFirstN, removeFirst_append ha, List.cons_append, removeFirst, if_pos (hb x (by simp))]
      exact ih (fun y hy => hb y (List.mem_cons_of_mem _ hy)) (by simpa using hk)

/-- Where a bound once missed is missed by all before, the elements within it are a last part of the list. -/
theorem filter_eq_suffix {α : Type} {p : α → Bool} {l : List α} (h : l.Pairwise fun x y => p x = true → p y = true) :
    ∃ a, l = a ++ l.filter p := by
  induction l with
  | nil => exact ⟨[], rfl⟩
  | cons x rest ih =>
    obtain ⟨hx, hrest⟩ := List.pairwise_cons.mp h
    cases hp : p x with
    | true =>
      refine ⟨[], ?_⟩
      rw [List.filter_eq_self.mpr]
      · rfl
      · intro y hy
        rcases List.mem_cons.mp hy with rfl | hy
        · exact hp
        · exact hx y hy hp
    | false =>
      obtain ⟨a, ha⟩ := ih hrest
      refine ⟨x :: a, ?_⟩
      rw [List.filter_cons_of_neg (by rw [hp]; decide), List.cons_append, ← ha]

/-! ### The order -/

/-- How long ago a can number was given, by the can number counter. -/
def cansAgo (cans number : Word32) : Nat :=
  (cans - number).toNat

/-- How long ago a tag was issued, by the tag counter. -/
def tagsAgo (tags tag : Tag) : Nat :=
  (tags.toNat + 4095 - tag.toNat - 1) % 4095 + 1

/-- Two records stand in the order of the queue. -/
def Precedes (cans : Word32) (tags : Tag) (x y : CanRecord) : Prop :=
  y.stage.rank ≤ x.stage.rank ∧ y.age ≤ x.age ∧ cansAgo cans y.number < cansAgo cans x.number ∧
    ∀ a b : Tag, x.tag = some a → y.tag = some b → a ≠ 4095 → b ≠ 4095 → tagsAgo tags b < tagsAgo tags a

/-- A record's can number and tag agree with the records after it and the FILLED ones of the queue. -/
def Spans (cans : Word32) (tags : Tag) (filled : Nat) (r : CanRecord) (after : List CanRecord) : Prop :=
  1 ≤ cansAgo cans r.number ∧ cansAgo cans r.number ≤ cansSpanned (r :: after) ∧
    (r.stage ≠ .passed → cansAgo cans r.number = (r :: after).length) ∧
    ∀ tag : Tag, r.tag = some tag → tag ≠ 4095 → tag.toNat ≤ 4094 ∧ tagsAgo tags tag + filled ≤ cansAgo cans r.number

/-- Records in the order of the Tracking Queue. -/
def InOrder (cans : Word32) (tags : Tag) (l : List CanRecord) : Prop :=
  l.Pairwise (Precedes cans tags) ∧ Suffixes (Spans cans tags (l.countP CanRecord.isFilled)) l

theorem orderInv_iff (s : State) : s.orderInv ↔ InOrder s.tq.canCounter s.tq.tagCounter s.tq.queue := by
  unfold State.orderInv InOrder
  rw [suffixes_iff]
  rfl

section Order

variable {cans : Word32} {tags : Tag}

theorem Spans.fewer {n m : Nat} {r : CanRecord} {after : List CanRecord} (h : Spans cans tags n r after) (hm : m ≤ n) :
    Spans cans tags m r after := by
  obtain ⟨hpos, hspan, hexact, htag⟩ := h
  refine ⟨hpos, hspan, hexact, fun tag ht hn => ?_⟩
  obtain ⟨hlow, hago⟩ := htag tag ht hn
  exact ⟨hlow, by omega⟩

theorem inOrder_nil : InOrder cans tags [] :=
  ⟨.nil, trivial⟩

/-- The last records of a queue in order are in order. -/
theorem InOrder.suffix {a b : List CanRecord} (h : InOrder cans tags (a ++ b)) : InOrder cans tags b := by
  obtain ⟨hpairs, hspans⟩ := h
  refine ⟨(List.pairwise_append.mp hpairs).2.1, (suffixes_append.mp hspans).2.imp fun r after _ _ hr => hr.fewer ?_⟩
  rw [List.countP_append]
  omega

/-! ### Removals -/

/-- The records that are not too old are the last ones (R75). -/
theorem InOrder.aged {l : List CanRecord} (h : InOrder cans tags l) (maxAge : Nat) :
    InOrder cans tags (l.filter fun r => !decide (maxAge < r.age)) := by
  have hsuffix : ∃ a, l = a ++ l.filter fun r => !decide (maxAge < r.age) := by
    refine filter_eq_suffix (h.1.imp fun {x y} hxy hx => ?_)
    obtain ⟨_, hage, _⟩ := hxy
    simp only [Bool.not_eq_true', decide_eq_false_iff_not, not_lt] at hx ⊢
    omega
  obtain ⟨a, ha⟩ := hsuffix
  rw [ha] at h
  exact h.suffix

/-- The oldest PASSED_READER record, if there is one, is the oldest of all (R60). -/
theorem InOrder.popped {l : List CanRecord} (h : InOrder cans tags l) : InOrder cans tags (removeFirst CanRecord.isPassed l) := by
  cases l with
  | nil => exact h
  | cons r rest =>
    obtain ⟨hr, _⟩ := List.pairwise_cons.mp h.1
    unfold removeFirst
    split
    · exact h.suffix (a := [r])
    · next hpassed =>
      have hnone : ∀ x ∈ rest, x.isPassed = false := by
        intro x hx
        obtain ⟨hrank, _⟩ := hr x hx
        cases hr : r.stage <;> cases hx : x.stage <;> simp_all [CanRecord.isPassed, Stage.rank]
      have hsame : removeFirst CanRecord.isPassed rest = rest := by
        simpa [removeFirst] using removeFirst_append (b := []) hnone
      rw [hsame]
      exact h

/-! ### Ages -/

/-- A tick raises every age and nothing else (R74). -/
theorem InOrder.ticked {l : List CanRecord} (h : InOrder cans tags l) : InOrder cans tags (ageRecords l) := by
  obtain ⟨hpairs, hspans⟩ := h
  have hcount (p : CanRecord → Bool) (hp : ∀ r : CanRecord, p { r with age := min (r.age + 1) 1023 } = p r)
      (x : List CanRecord) : (ageRecords x).countP p = x.countP p := by
    unfold ageRecords
    rw [List.countP_map]
    exact List.countP_congr fun r _ => by simp [hp]
  refine ⟨?_, ?_⟩
  · unfold ageRecords
    rw [List.pairwise_map]
    refine hpairs.imp fun {x y} hxy => ?_
    obtain ⟨hrank, hage, hnumber, htag⟩ := hxy
    exact ⟨hrank, by dsimp only; omega, hnumber, htag⟩
  · rw [hcount _ fun _ => rfl]
    unfold ageRecords
    rw [suffixes_map]
    refine hspans.imp fun r after _ _ hr => ?_
    obtain ⟨hpos, hspan, hexact, htag⟩ := hr
    refine ⟨hpos, ?_, ?_, htag⟩
    · have hsame : cansSpanned (({ r with age := min (r.age + 1) 1023 } : CanRecord) :: after.map fun r =>
          { r with age := min (r.age + 1) 1023 }) = cansSpanned (r :: after) := by
        have hpassed := hcount CanRecord.isPassed (fun _ => rfl) (r :: after)
        unfold ageRecords at hpassed
        rw [List.map_cons] at hpassed
        unfold cansSpanned
        rw [hpassed]
        simp
      rw [hsame]
      exact hspan
    · simpa using hexact

end Order

end Sys2Proof.Machine
end

section
/-!
PROOFS, the order of the Tracking Queue when a can joins, is coded or is matched.
-/

namespace Sys2Proof.Machine

/-! ### The parts of a queue -/

/-- Records whose stages never increase: PASSED_READER, then CODED, then FILLED ones (R60). -/
structure Staged (passed coded filled : List CanRecord) : Prop where
  passed : ∀ r ∈ passed, r.stage = .passed
  coded : ∀ r ∈ coded, r.stage = .coded
  filled : ∀ r ∈ filled, r.stage = .filled

theorem exists_staged {l : List CanRecord} (h : l.Pairwise fun x y => y.stage.rank ≤ x.stage.rank) :
    ∃ p c f, l = p ++ (c ++ f) ∧ Staged p c f := by
  induction l with
  | nil => exact ⟨[], [], [], rfl, ⟨by simp, by simp, by simp⟩⟩
  | cons r rest ih =>
    obtain ⟨hr, hrest⟩ := List.pairwise_cons.mp h
    obtain ⟨p, c, f, rfl, hstaged⟩ := ih hrest
    obtain ⟨hp, hc, hf⟩ := hstaged
    have hrank : ∀ x ∈ p ++ (c ++ f), x.stage.rank ≤ r.stage.rank := hr
    cases hs : r.stage with
    | passed =>
      exact ⟨r :: p, c, f, rfl, ⟨by simpa [hs] using hp, hc, hf⟩⟩
    | coded =>
      have hnone : p = [] := by
        cases p with
        | nil => rfl
        | cons x p => exact absurd (hrank x (by simp)) (by simp [hp x (by simp), hs, Stage.rank])
      subst hnone
      exact ⟨[], r :: c, f, rfl, ⟨by simp, by simpa [hs] using hc, hf⟩⟩
    | filled =>
      have hnone : p = [] := by
        cases p with
        | nil => rfl
        | cons x p => exact absurd (hrank x (by simp)) (by simp [hp x (by simp), hs, Stage.rank])
      have hnone' : c = [] := by
        cases c with
        | nil => rfl
        | cons x c => exact absurd (hrank x (by simp)) (by simp [hc x (by simp), hs, Stage.rank])
      subst hnone hnone'
      exact ⟨[], [], r :: f, rfl, ⟨by simp, by simp, by simpa [hs] using hf⟩⟩

section Staged

variable {p c f : List CanRecord} (h : Staged p c f)
include h

theorem Staged.passed_not_filled : ∀ r ∈ p, r.isFilled = false := fun r hr => by simp [CanRecord.isFilled, h.passed r hr]
theorem Staged.coded_not_filled : ∀ r ∈ c, r.isFilled = false := fun r hr => by simp [CanRecord.isFilled, h.coded r hr]
theorem Staged.filled_filled : ∀ r ∈ f, r.isFilled = true := fun r hr => by simp [CanRecord.isFilled, h.filled r hr]
theorem Staged.passed_not_coded : ∀ r ∈ p, r.isCoded = false := fun r hr => by simp [CanRecord.isCoded, h.passed r hr]
theorem Staged.coded_coded : ∀ r ∈ c, r.isCoded = true := fun r hr => by simp [CanRecord.isCoded, h.coded r hr]
theorem Staged.filled_not_coded : ∀ r ∈ f, r.isCoded = false := fun r hr => by simp [CanRecord.isCoded, h.filled r hr]
theorem Staged.passed_passed : ∀ r ∈ p, r.isPassed = true := fun r hr => by simp [CanRecord.isPassed, h.passed r hr]
theorem Staged.coded_not_passed : ∀ r ∈ c, r.isPassed = false := fun r hr => by simp [CanRecord.isPassed, h.coded r hr]
theorem Staged.filled_not_passed : ∀ r ∈ f, r.isPassed = false := fun r hr => by simp [CanRecord.isPassed, h.filled r hr]

theorem Staged.countFilled : (p ++ (c ++ f)).countP CanRecord.isFilled = f.length := by
  rw [List.countP_append, List.countP_append, List.countP_eq_zero.mpr (by simpa using h.passed_not_filled),
    List.countP_eq_zero.mpr (by simpa using h.coded_not_filled), List.countP_eq_length.mpr h.filled_filled]
  omega

end Staged

/-! ### A new can -/

section Order

variable {cans : Word32} {tags : Tag}

theorem cansAgo_next {number : Word32} (h : cansAgo cans number < 2 ^ 32 - 1) :
    cansAgo (cans + 1) number = cansAgo cans number + 1 := by
  unfold cansAgo at h ⊢
  bv_omega

theorem cansSpanned_le (l : List CanRecord) : cansSpanned l ≤ 9 * l.length := by
  have hcount : l.countP CanRecord.isPassed ≤ l.length := List.countP_le_length
  unfold cansSpanned
  omega

theorem cansSpanned_append (a b : List CanRecord) : cansSpanned (a ++ b) = cansSpanned a + cansSpanned b := by
  unfold cansSpanned
  rw [List.length_append, List.countP_append]
  ring

/-- A record of a queue in order was given a number less than 9 cans ago for every place. -/
theorem InOrder.recent {l : List CanRecord} (h : InOrder cans tags l) {r : CanRecord} (hr : r ∈ l) :
    1 ≤ cansAgo cans r.number ∧ cansAgo cans r.number ≤ 9 * l.length := by
  obtain ⟨before, after, rfl⟩ := List.append_of_mem hr
  obtain ⟨hpos, hspan, _⟩ := suffixes_iff.mp h.2 before after r rfl
  have hle := cansSpanned_le (r :: after)
  rw [List.length_append]
  omega

/-- A new can joins at the tail with the next can number (R59, R67). -/
theorem InOrder.joined {l : List CanRecord} (h : InOrder cans tags l) (hroom : l.length < 128) {r : CanRecord}
    (hnumber : r.number = cans) (hstage : r.stage = .filled) (hage : r.age = 0) (htag : r.tag = none) :
    InOrder (cans + 1) tags (l ++ [r]) := by
  have hago : cansAgo (cans + 1) r.number = 1 := by
    rw [hnumber]
    unfold cansAgo
    bv_omega
  have hnext (x : CanRecord) (hx : x ∈ l) : 1 ≤ cansAgo cans x.number ∧
      cansAgo (cans + 1) x.number = cansAgo cans x.number + 1 := by
    obtain ⟨hpos, hle⟩ := h.recent hx
    exact ⟨hpos, cansAgo_next (by omega)⟩
  obtain ⟨hpairs, hspans⟩ := h
  refine ⟨List.pairwise_append.mpr ⟨?_, List.pairwise_singleton _ _, fun x hx y hy => ?_⟩, ?_⟩
  · refine List.Pairwise.imp_of_mem (fun {x y} hx hy hxy => ?_) hpairs
    obtain ⟨hrank, hages, hnumbers, htags⟩ := hxy
    exact ⟨hrank, hages, by rw [(hnext x hx).2, (hnext y hy).2]; omega, htags⟩
  · obtain rfl : y = r := by simpa using hy
    refine ⟨?_, ?_, ?_, fun a b _ hb => ?_⟩
    · rw [hstage]
      exact Nat.zero_le _
    · omega
    · rw [hago, (hnext x hx).2]
      have := (hnext x hx).1
      omega
    · rw [htag] at hb
      cases hb
  · have hcount : (l ++ [r]).countP CanRecord.isFilled = l.countP CanRecord.isFilled + 1 := by
      simp [CanRecord.isFilled, hstage]
    rw [hcount, suffixes_append]
    refine ⟨hspans.imp fun x after hx _ hspan => ?_, ⟨by omega, ?_, fun _ => by rw [hago]; rfl, fun tag ht => ?_⟩, trivial⟩
    · obtain ⟨hpos, hspanned, hexact, htags⟩ := hspan
      rw [Spans, (hnext x hx).2, ← List.cons_append, cansSpanned_append, List.length_append]
      have hone : 1 ≤ cansSpanned [r] := by simp [cansSpanned]
      refine ⟨by omega, by omega, fun hne => by rw [hexact hne]; rfl, fun tag ht hn => ?_⟩
      obtain ⟨hlow, hsum⟩ := htags tag ht hn
      exact ⟨hlow, by omega⟩
    · rw [hago]
      simp [cansSpanned]
    · rw [htag] at ht
      cases ht

/-! ### A coded can -/

theorem nextTag_toNat (h : tags.toNat ≤ 4094) : (nextTag tags).toNat = if tags.toNat = 4094 then 0 else tags.toNat + 1 := by
  unfold nextTag
  by_cases hlast : tags = 4094
  · rw [if_pos hlast, if_pos (by rw [hlast]; rfl)]
    rfl
  · have hne : tags.toNat ≠ 4094 := fun he => hlast (BitVec.eq_of_toNat_eq he)
    rw [if_neg hlast, if_neg hne]
    bv_omega

theorem tagsAgo_next {tag : Tag} (htags : tags.toNat ≤ 4094) (htag : tag.toNat ≤ 4094) (hago : tagsAgo tags tag < 4095) :
    tagsAgo (nextTag tags) tag = tagsAgo tags tag + 1 := by
  unfold tagsAgo at hago ⊢
  rw [nextTag_toNat htags]
  split <;> omega

theorem tagsAgo_issued (htags : tags.toNat ≤ 4094) : tagsAgo (nextTag tags) tags = 1 := by
  unfold tagsAgo
  rw [nextTag_toNat htags]
  split <;> omega

/-- The records of a queue in order, an issued tag among them: it was issued less than 4,095 tags ago. -/
theorem Spans.tag_recent {filled : Nat} {r : CanRecord} {after : List CanRecord} (h : Spans cans tags filled r after)
    (hlength : (r :: after).length ≤ 128) {tag : Tag} (ht : r.tag = some tag) (hn : tag ≠ 4095) :
    tag.toNat ≤ 4094 ∧ 1 ≤ tagsAgo tags tag ∧ tagsAgo tags tag < 4095 := by
  obtain ⟨_, hspan, _, htag⟩ := h
  obtain ⟨hlow, hsum⟩ := htag tag ht hn
  have hle := cansSpanned_le (r :: after)
  exact ⟨hlow, by unfold tagsAgo; omega, by omega⟩

/-- The tag counter after a coding, advanced when a tag was issued (R72). -/
def tagsAfter (advance : Bool) (tags : Tag) : Tag :=
  if advance then nextTag tags else tags

theorem tagsAgo_after (htags : tags.toNat ≤ 4094) (advance : Bool) {tag : Tag} (htag : tag.toNat ≤ 4094)
    (hago : tagsAgo tags tag < 4095) : tagsAgo (tagsAfter advance tags) tag = tagsAgo tags tag + advance.toNat := by
  cases advance with
  | false => rfl
  | true => exact tagsAgo_next htags htag hago

theorem cansSpanned_cons (r : CanRecord) (l : List CanRecord) :
    cansSpanned (r :: l) = cansSpanned l + 1 + 8 * r.isPassed.toNat := by
  unfold cansSpanned
  rw [List.length_cons, List.countP_cons]
  cases r.isPassed <;> simp <;> ring

theorem Precedes.retagged {tags' : Tag} {x y : CanRecord} (h : Precedes cans tags x y) (hy : y.tag = none) :
    Precedes cans tags' x y := by
  obtain ⟨hrank, hage, hnumber, _⟩ := h
  exact ⟨hrank, hage, hnumber, fun a b _ hb => by rw [hy] at hb; cases hb⟩

theorem Spans.retagged {tags' : Tag} {n m : Nat} {r : CanRecord} {after : List CanRecord} (h : Spans cans tags n r after)
    (hr : r.tag = none) : Spans cans tags' m r after := by
  obtain ⟨hpos, hspan, hexact, _⟩ := h
  exact ⟨hpos, hspan, hexact, fun tag ht => by rw [hr] at ht; cases ht⟩

section Coded

variable {q f : List CanRecord} {r t : CanRecord} {tag : Tag} (advance : Bool)

/-- The oldest FILLED record, `r`, becomes the CODED `t`, with the null tag or with the tag issued for it (R69, R71, R72). -/
theorem InOrder.recoded (h : InOrder cans tags (q ++ r :: f)) (hlength : (q ++ r :: f).length ≤ 128) (htags : tags.toNat ≤ 4094)
    (hq : ∀ x ∈ q, 1 ≤ x.stage.rank) (hr : r.stage = .filled) (hf : ∀ x ∈ f, x.stage = .filled ∧ x.tag = none)
    (htag : tag = 4095 ∨ advance = true ∧ tag = tags) (hnumber : t.number = r.number) (hage : t.age = r.age)
    (hstage : t.stage = .coded) (hcoded : t.tag = some tag) : InOrder cans (tagsAfter advance tags) (q ++ t :: f) := by
  obtain ⟨hpairs, hspans⟩ := h
  obtain ⟨hqPairs, htail, hcross⟩ := List.pairwise_append.mp hpairs
  obtain ⟨hrf, hfPairs⟩ := List.pairwise_cons.mp htail
  have hfilledIn (x : CanRecord) (hx : x ∈ f) : x.isFilled = true := by simp [CanRecord.isFilled, (hf x hx).1]
  have hqCount : q.countP CanRecord.isFilled = 0 := List.countP_eq_zero.mpr fun x hx hfilled => by
    have hrank := hq x hx
    rw [show x.stage = .filled by simpa [CanRecord.isFilled] using hfilled] at hrank
    exact absurd hrank (by decide)
  have hold : (q ++ r :: f).countP CanRecord.isFilled = f.length + 1 := by
    rw [List.countP_append, List.countP_cons_of_pos (by simp [CanRecord.isFilled, hr]), hqCount,
      List.countP_eq_length.mpr hfilledIn, Nat.zero_add]
  have hnew : (q ++ t :: f).countP CanRecord.isFilled = f.length := by
    rw [List.countP_append, List.countP_cons_of_neg (by simp [CanRecord.isFilled, hstage]), hqCount,
      List.countP_eq_length.mpr hfilledIn, Nat.zero_add]
  rw [hold] at hspans
  have hissued (x : CanRecord) (hx : x ∈ q) (a : Tag) (ha : x.tag = some a) (hn : a ≠ 4095) :
      1 ≤ tagsAgo tags a ∧ tagsAgo (tagsAfter advance tags) a = tagsAgo tags a + advance.toNat := by
    obtain ⟨before, after, rfl⟩ := List.append_of_mem hx
    have hspan := suffixes_iff.mp hspans before (after ++ r :: f) x (by simp)
    obtain ⟨hlow, hpos, hago⟩ := hspan.tag_recent (by simp at hlength ⊢; omega) ha hn
    exact ⟨hpos, tagsAgo_after htags advance hlow hago⟩
  have hspanned (after : List CanRecord) : cansSpanned (after ++ t :: f) = cansSpanned (after ++ r :: f) := by
    rw [cansSpanned_append, cansSpanned_append, cansSpanned_cons, cansSpanned_cons, CanRecord.isPassed, CanRecord.isPassed, hr,
      hstage]
    rfl
  obtain ⟨hqSpans, hrSpan, hfSpans⟩ := suffixes_append.mp hspans
  refine ⟨List.pairwise_append.mpr ⟨?_, List.pairwise_cons.mpr ⟨fun y hy => ?_, ?_⟩, fun x hx y hy => ?_⟩, ?_⟩
  · refine List.Pairwise.imp_of_mem (fun {x y} hx hy hxy => ?_) hqPairs
    obtain ⟨hrank, hages, hnumbers, hordered⟩ := hxy
    refine ⟨hrank, hages, hnumbers, fun a b ha hb hna hnb => ?_⟩
    rw [(hissued x hx a ha hna).2, (hissued y hy b hb hnb).2]
    have := hordered a b ha hb hna hnb
    omega
  · obtain ⟨hrank, hages, hnumbers, _⟩ := hrf y hy
    refine ⟨?_, hage ▸ hages, hnumber ▸ hnumbers, fun a b _ hb => ?_⟩
    · rw [(hf y hy).1]
      exact Nat.zero_le _
    · rw [(hf y hy).2] at hb
      cases hb
  · exact hfPairs.imp_of_mem fun _ hy hxy => hxy.retagged (hf _ hy).2
  · rcases List.mem_cons.mp hy with rfl | hy
    · obtain ⟨_, hages, hnumbers, _⟩ := hcross x hx r (by simp)
      refine ⟨?_, hage ▸ hages, hnumber ▸ hnumbers, fun a b ha hb hna hnb => ?_⟩
      · rw [hstage]
        exact hq x hx
      · obtain rfl : tag = b := Option.some.inj (hcoded.symm.trans hb)
        obtain ⟨rfl, rfl⟩ := htag.resolve_left hnb
        rw [(hissued x hx a ha hna).2, tagsAfter, if_pos rfl, tagsAgo_issued htags]
        have := (hissued x hx a ha hna).1
        simp
        omega
    · exact (hcross x hx y (List.mem_cons_of_mem _ hy)).retagged (hf y hy).2
  · rw [hnew, suffixes_append]
    refine ⟨?_, ?_, ?_⟩
    · refine hqSpans.imp fun x after hx hafter hspan => ?_
      obtain ⟨hpos, hle, hexact, hsum⟩ := hspan
      refine ⟨hpos, ?_, ?_, fun a ha hn => ?_⟩
      · rw [← List.cons_append, hspanned, List.cons_append]
        exact hle
      · simpa using hexact
      · obtain ⟨hlow, hbound⟩ := hsum a ha hn
        rw [(hissued x hx a ha hn).2]
        refine ⟨hlow, ?_⟩
        cases advance <;> simp <;> omega
    · obtain ⟨hpos, hle, hexact, _⟩ := hrSpan
      have hago : cansAgo cans r.number = f.length + 1 := hexact (by rw [hr]; decide)
      have hsame := hspanned []
      simp only [List.nil_append] at hsame
      refine ⟨hnumber ▸ hpos, by rw [hnumber, hsame]; exact hle, fun _ => by rw [hnumber]; exact hago, fun a ha hn => ?_⟩
      obtain rfl : tag = a := Option.some.inj (hcoded.symm.trans ha)
      obtain ⟨rfl, rfl⟩ := htag.resolve_left hn
      rw [hnumber, hago, tagsAfter, if_pos rfl, tagsAgo_issued htags]
      omega
    · exact hfSpans.imp fun x after hx _ hspan => hspan.retagged (hf x hx).2

end Coded

/-- The oldest FILLED record is coded. -/
theorem InOrder.codedFirst {l : List CanRecord} (h : InOrder cans tags l) (hlength : l.length ≤ 128) (htags : tags.toNat ≤ 4094)
    (hplain : ∀ r ∈ l, r.stage = .filled → r.tag = none) (hsome : ∃ r ∈ l, r.isFilled = true) (advance : Bool)
    {tag : Tag} (htag : tag = 4095 ∨ advance = true ∧ tag = tags) {g : CanRecord → CanRecord}
    (hnumber : ∀ r, (g r).number = r.number) (hage : ∀ r, (g r).age = r.age) (hstage : ∀ r, (g r).stage = .coded)
    (hcoded : ∀ r, (g r).tag = some tag) : InOrder cans (tagsAfter advance tags) (updateFirst CanRecord.isFilled g l) := by
  obtain ⟨p, c, f, rfl, hstaged⟩ := exists_staged (h.1.imp fun hxy => hxy.1)
  have hpos : 0 < f.length := hstaged.countFilled ▸ List.countP_pos_iff.mpr hsome
  obtain ⟨r, f, rfl⟩ := List.exists_cons_of_length_pos hpos
  rw [updateFirst_append hstaged.passed_not_filled, updateFirst_append hstaged.coded_not_filled,
    updateFirst_cons (hstaged.filled_filled r (by simp)), ← List.append_assoc]
  rw [← List.append_assoc] at h hlength hplain
  refine h.recoded advance hlength htags (fun x hx => ?_) (hstaged.filled r (by simp)) (fun x hx => ?_) htag (hnumber r) (hage r)
    (hstage r) (hcoded r)
  · rcases List.mem_append.mp hx with hx | hx
    · rw [hstaged.passed x hx]
      decide
    · rw [hstaged.coded x hx]
      decide
  · have hfilled := hstaged.filled x (List.mem_cons_of_mem _ hx)
    exact ⟨hfilled, hplain x (by simp [hx]) hfilled⟩

/-! ### A matched can -/

section Matched

variable {p c f : List CanRecord} {r t : CanRecord}

/-- The CODED record `r` becomes the PASSED_READER `t`, and the CODED ones before it, at most eight, are removed (R92, R93). -/
theorem InOrder.rematched (h : InOrder cans tags (p ++ (c ++ r :: f))) (hp : ∀ x ∈ p, x.stage = .passed) (hc : c.length ≤ 8)
    (hcStage : ∀ x ∈ c, x.stage = .coded) (hr : r.stage = .coded)
    (hnumber : t.number = r.number) (hage : t.age = r.age) (hstage : t.stage = .passed) (htag : t.tag = r.tag) :
    InOrder cans tags (p ++ t :: f) := by
  obtain ⟨hpairs, hspans⟩ := h
  obtain ⟨hpPairs, htail, hcross⟩ := List.pairwise_append.mp hpairs
  obtain ⟨_, htail, _⟩ := List.pairwise_append.mp htail
  obtain ⟨hrf, hfPairs⟩ := List.pairwise_cons.mp htail
  have hcount : (p ++ (c ++ r :: f)).countP CanRecord.isFilled = (p ++ t :: f).countP CanRecord.isFilled := by
    have hcFilled : c.countP CanRecord.isFilled = 0 :=
      List.countP_eq_zero.mpr fun x hx => by simp [CanRecord.isFilled, hcStage x hx]
    rw [List.countP_append, List.countP_append, List.countP_append, hcFilled,
      List.countP_cons_of_neg (by simp [CanRecord.isFilled, hr]),
      List.countP_cons_of_neg (by simp [CanRecord.isFilled, hstage]), Nat.zero_add]
  have hpassedSpan : cansSpanned (c ++ r :: f) ≤ cansSpanned (t :: f) := by
    have hcSpan : cansSpanned c = c.length := by
      unfold cansSpanned
      rw [List.countP_eq_zero.mpr fun x hx => by simp [CanRecord.isPassed, hcStage x hx], Nat.mul_zero, Nat.add_zero]
    rw [cansSpanned_append, cansSpanned_cons, cansSpanned_cons, hcSpan, CanRecord.isPassed, CanRecord.isPassed, hr, hstage]
    have hfew : (Stage.coded == Stage.passed).toNat = 0 := rfl
    have hone : (Stage.passed == Stage.passed).toNat = 1 := rfl
    omega
  rw [hcount] at hspans
  obtain ⟨hpSpans, htailSpans⟩ := suffixes_append.mp hspans
  obtain ⟨_, hrSpan, hfSpans⟩ := suffixes_append.mp htailSpans
  refine ⟨List.pairwise_append.mpr ⟨hpPairs, List.pairwise_cons.mpr ⟨fun y hy => ?_, hfPairs⟩, fun x hx y hy => ?_⟩,
    suffixes_append.mpr ⟨?_, ?_, hfSpans⟩⟩
  · obtain ⟨hrank, hages, hnumbers, htags⟩ := hrf y hy
    refine ⟨?_, hage ▸ hages, hnumber ▸ hnumbers, htag ▸ htags⟩
    rw [hr] at hrank
    rw [hstage]
    exact hrank.trans (by decide)
  · rcases List.mem_cons.mp hy with rfl | hy
    · obtain ⟨_, hages, hnumbers, htags⟩ := hcross x hx r (by simp)
      refine ⟨?_, hage ▸ hages, hnumber ▸ hnumbers, htag ▸ htags⟩
      rw [hp x hx, hstage]
    · exact hcross x hx y (by simp [hy])
  · refine hpSpans.imp fun x after hx _ hspan => ?_
    obtain ⟨hpos, hle, _, htags⟩ := hspan
    refine ⟨hpos, ?_, fun hne => absurd (hp x hx) hne, htags⟩
    rw [← List.cons_append, cansSpanned_append] at hle ⊢
    omega
  · obtain ⟨hpos, hle, _, htags⟩ := hrSpan
    have hmore : cansSpanned (r :: f) ≤ cansSpanned (t :: f) := by
      rw [cansSpanned_cons, cansSpanned_cons, CanRecord.isPassed, CanRecord.isPassed, hr, hstage]
      have hfew : (Stage.coded == Stage.passed).toNat = 0 := rfl
      omega
    exact ⟨hnumber ▸ hpos, by rw [hnumber]; exact hle.trans hmore, fun hne => absurd hstage hne, by rw [hnumber, htag]; exact htags⟩

end Matched

/-- The CODED records before the matched one are removed and it passes the reader (R92, R93). -/
theorem InOrder.slipped {l : List CanRecord} (h : InOrder cans tags l) {k : Nat} (hk : k ≤ 8)
    (hmore : k < l.countP CanRecord.isCoded) {g : CanRecord → CanRecord} (hnumber : ∀ r, (g r).number = r.number)
    (hage : ∀ r, (g r).age = r.age) (hstage : ∀ r, (g r).stage = .passed) (htag : ∀ r, (g r).tag = r.tag) :
    InOrder cans tags (updateFirst CanRecord.isCoded g (removeFirstN CanRecord.isCoded k l)) := by
  obtain ⟨p, m, f, rfl, hstaged⟩ := exists_staged (h.1.imp fun hxy => hxy.1)
  have hcount : (p ++ (m ++ f)).countP CanRecord.isCoded = m.length := by
    have hp : p.countP CanRecord.isCoded = 0 := List.countP_eq_zero.mpr (by simpa using hstaged.passed_not_coded)
    have hf : f.countP CanRecord.isCoded = 0 := List.countP_eq_zero.mpr (by simpa using hstaged.filled_not_coded)
    rw [List.countP_append, List.countP_append, hp, hf, List.countP_eq_length.mpr hstaged.coded_coded, Nat.zero_add, Nat.add_zero]
  rw [hcount] at hmore
  rw [removeFirstN_append hstaged.passed_not_coded hstaged.coded_coded hmore.le, updateFirst_append hstaged.passed_not_coded]
  have hsplit : m = m.take k ++ m[k] :: m.drop (k + 1) := by rw [← List.drop_eq_getElem_cons hmore, List.take_append_drop]
  rw [List.drop_eq_getElem_cons hmore, List.cons_append, updateFirst_cons (hstaged.coded_coded _ (List.getElem_mem hmore))]
  rw [hsplit, List.append_assoc, List.cons_append] at h
  refine h.rematched hstaged.passed (by rw [List.length_take]; omega) (fun x hx => hstaged.coded x (List.mem_of_mem_take hx))
    (hstaged.coded _ (List.getElem_mem hmore)) (hnumber _) (hage _) (hstage _) (htag _)

end Order

end Sys2Proof.Machine
end

section
/-!
PROOFS, the Tracking Queue through the operations on it: each makes it by a few moves, and each move keeps capacity, stages,
products and order.
-/

namespace Sys2Proof.Machine

/-! ### The moves -/

/-- A record as it is coded (R69, R71). -/
structure Codes (tag : Tag) (g : CanRecord → CanRecord) : Prop where
  number : ∀ r, (g r).number = r.number
  age : ∀ r, (g r).age = r.age
  product : ∀ r, (g r).product = r.product
  readResult : ∀ r, (g r).readResult = r.readResult
  stage : ∀ r, (g r).stage = .coded
  tag : ∀ r, (g r).tag = some tag

/-- A record as it passes the reader (R91, R92). -/
structure Passes (g : CanRecord → CanRecord) : Prop where
  number : ∀ r, (g r).number = r.number
  age : ∀ r, (g r).age = r.age
  product : ∀ r, (g r).product = r.product
  tag : ∀ r, (g r).tag = r.tag
  stage : ∀ r, (g r).stage = .passed
  readResult : ∀ r, (g r).readResult.isSome = true

/-- A record as it is created (R58, R67). -/
structure CanRecord.Fresh (r : CanRecord) (cans : Word32) : Prop where
  number : r.number = cans
  stage : r.stage = .filled
  age : r.age = 0
  tag : r.tag = none
  readResult : r.readResult = none

/-- `t` follows `q` by moves of the Tracking Queue: a can joins or is coded, the ages rise, old records are removed, cans are
matched within the lookahead, judged cans leave, the queue is flushed. -/
inductive Tracking.Moves (active : Option (Fin 16)) (lookahead : Nat) (q : Tracking) : Tracking → Prop
  | refl : Moves active lookahead q q
  | same {t u : Tracking} (h : Moves active lookahead q t) (hqueue : u.queue = t.queue) (hcans : u.canCounter = t.canCounter)
      (htags : u.tagCounter = t.tagCounter) : Moves active lookahead q u
  | clear {t : Tracking} (h : Moves active lookahead q t) : Moves active lookahead q { t with queue := [] }
  | join {t : Tracking} (h : Moves active lookahead q t) (r : CanRecord) (hroom : t.queue.length < 128)
      (hnew : r.Fresh t.canCounter) (hactive : active = some r.product) :
      Moves active lookahead q { t with queue := t.queue ++ [r], canCounter := t.canCounter + 1 }
  | code {t : Tracking} (h : Moves active lookahead q t) (hsome : ∃ r ∈ t.queue, r.isFilled = true) (advance : Bool) {tag : Tag}
      (htag : tag = 4095 ∨ advance = true ∧ tag = t.tagCounter) {g : CanRecord → CanRecord} (hg : Codes tag g) :
      Moves active lookahead q
        { t with queue := updateFirst CanRecord.isFilled g t.queue, tagCounter := tagsAfter advance t.tagCounter }
  | tick {t : Tracking} (h : Moves active lookahead q t) : Moves active lookahead q { t with queue := ageRecords t.queue }
  | removeAged {t : Tracking} (h : Moves active lookahead q t) (maxAge : Nat) :
      Moves active lookahead q { t with queue := t.queue.filter fun r => !decide (maxAge < r.age) }
  | slip {t : Tracking} (h : Moves active lookahead q t) {k : Nat} (hk : k ≤ lookahead)
      (hmore : k < t.queue.countP CanRecord.isCoded) {g : CanRecord → CanRecord} (hg : Passes g) :
      Moves active lookahead q
        { t with queue := updateFirst CanRecord.isCoded g (removeFirstN CanRecord.isCoded k t.queue) }
  | pop {t : Tracking} (h : Moves active lookahead q t) :
      Moves active lookahead q { t with queue := removeFirst CanRecord.isPassed t.queue }

/-! ### What the moves keep -/

theorem mem_updateFirst {α : Type} {p : α → Bool} {f : α → α} {l : List α} {x : α} (h : x ∈ updateFirst p f l) :
    x ∈ l ∨ ∃ y ∈ l, p y = true ∧ x = f y := by
  induction l with
  | nil => cases h
  | cons y rest ih =>
    unfold updateFirst at h
    split at h
    · next hy =>
      rcases List.mem_cons.mp h with rfl | hx
      · exact .inr ⟨y, by simp, hy, rfl⟩
      · exact .inl (List.mem_cons_of_mem _ hx)
    · rcases List.mem_cons.mp h with rfl | hx
      · exact .inl (by simp)
      · rcases ih hx with hx | ⟨z, hz, hp, rfl⟩
        · exact .inl (List.mem_cons_of_mem _ hx)
        · exact .inr ⟨z, List.mem_cons_of_mem _ hz, hp, rfl⟩

theorem length_updateFirst {α : Type} (p : α → Bool) (f : α → α) (l : List α) : (updateFirst p f l).length = l.length := by
  induction l with
  | nil => rfl
  | cons x rest ih =>
    unfold updateFirst
    split
    · rfl
    · rw [List.length_cons, ih, List.length_cons]

/-- The queue in capacity, each record well staged, the tag counter a tag. -/
structure Tracking.Ok (q : Tracking) : Prop where
  capacity : q.queue.length ≤ 128
  staged : ∀ r ∈ q.queue, r.wellStaged
  tags : q.tagCounter.toNat ≤ 4094

theorem queueInv_iff (s : State) : s.queueInv ↔ s.tq.Ok :=
  ⟨fun ⟨a, b, c⟩ => ⟨a, b, c⟩, fun ⟨a, b, c⟩ => ⟨a, b, c⟩⟩

section Moves

variable {active : Option (Fin 16)} {lookahead : Nat} {q t : Tracking}

/-- Fewer records, each of before. -/
theorem Tracking.Ok.fewer (h : t.Ok) {l : List CanRecord} (hl : l.Sublist t.queue) : Tracking.Ok { t with queue := l } :=
  ⟨hl.length_le.trans h.capacity, fun r hr => h.staged r (hl.subset hr), h.tags⟩

theorem CanRecord.wellStaged.coded {r : CanRecord} (h : r.wellStaged) (hr : r.isFilled = true) {tag : Tag}
    {g : CanRecord → CanRecord} (hg : Codes tag g) : (g r).wellStaged := by
  obtain ⟨_, hread, hage⟩ := h
  have hfilled : r.stage = .filled := by simpa [CanRecord.isFilled] using hr
  rw [hfilled] at hread
  refine ⟨?_, ?_, hg.age r ▸ hage⟩
  · rw [hg.stage, hg.tag]
    exact iff_of_false (by decide) (by simp)
  · rw [hg.stage, hg.readResult]
    exact iff_of_false (by decide) fun h => absurd (hread.mpr h) (by decide)

theorem CanRecord.wellStaged.passed {r : CanRecord} (h : r.wellStaged) (hr : r.isCoded = true) {g : CanRecord → CanRecord}
    (hg : Passes g) : (g r).wellStaged := by
  obtain ⟨htag, _, hage⟩ := h
  have hcoded : r.stage = .coded := by simpa [CanRecord.isCoded] using hr
  rw [hcoded] at htag
  refine ⟨?_, ?_, hg.age r ▸ hage⟩
  · rw [hg.stage, hg.tag]
    exact iff_of_false (by decide) fun h => absurd (htag.mpr h) (by decide)
  · rw [hg.stage]
    exact iff_of_true rfl (hg.readResult r)

theorem tagsAfter_le (advance : Bool) {tags : Tag} (h : tags.toNat ≤ 4094) : (tagsAfter advance tags).toNat ≤ 4094 := by
  cases advance with
  | false => exact h
  | true =>
    rw [tagsAfter, if_pos rfl, nextTag_toNat h]
    split <;> omega

theorem Tracking.Moves.ok (h : Tracking.Moves active lookahead q t) (hq : q.Ok) : t.Ok := by
  induction h with
  | refl => exact hq
  | same _ hqueue _ htags ih => exact ⟨hqueue ▸ ih.capacity, hqueue ▸ ih.staged, htags ▸ ih.tags⟩
  | clear _ ih => exact ih.fewer (List.nil_sublist _)
  | join _ r hroom hnew _ ih =>
    refine ⟨by simp; omega, fun x hx => ?_, ih.tags⟩
    rcases List.mem_append.mp hx with hx | hx
    · exact ih.staged x hx
    · obtain rfl : x = r := by simpa using hx
      refine ⟨iff_of_true hnew.stage hnew.tag, ?_, by rw [hnew.age]; omega⟩
      rw [hnew.stage, hnew.readResult]
      exact iff_of_false (by decide) (by simp)
  | code _ _ advance _ hg ih =>
    refine ⟨(length_updateFirst _ _ _).trans_le ih.capacity, fun x hx => ?_, tagsAfter_le advance ih.tags⟩
    rcases mem_updateFirst hx with hx | ⟨y, hy, hfilled, rfl⟩
    · exact ih.staged x hx
    · exact (ih.staged y hy).coded hfilled hg
  | tick _ ih =>
    refine ⟨by simpa [ageRecords] using ih.capacity, fun x hx => ?_, ih.tags⟩
    obtain ⟨y, hy, rfl⟩ := List.mem_map.mp hx
    obtain ⟨htag, hread, _⟩ := ih.staged y hy
    exact ⟨htag, hread, min_le_right _ _⟩
  | removeAged _ _ ih => exact ih.fewer List.filter_sublist
  | @slip u _ k _ _ g hg ih =>
    have hfewer := ih.fewer (removeFirstN_sublist CanRecord.isCoded k u.queue)
    refine ⟨(length_updateFirst _ _ _).trans_le hfewer.capacity, fun x hx => ?_, ih.tags⟩
    rcases mem_updateFirst hx with hx | ⟨y, hy, hcoded, rfl⟩
    · exact hfewer.staged x hx
    · exact (hfewer.staged y hy).passed hcoded hg
  | pop _ ih => exact ih.fewer (removeFirst_sublist _ _)

/-- A property of product slots that the active one has is kept of the slots of the queue (R162). -/
theorem Tracking.Moves.products (h : Tracking.Moves active lookahead q t) {P : Fin 16 → Prop} (hactive : ∀ k, active = some k → P k)
    (hq : ∀ r ∈ q.queue, P r.product) : ∀ r ∈ t.queue, P r.product := by
  induction h with
  | refl => exact hq
  | same _ hqueue _ _ ih => exact hqueue ▸ ih
  | clear => simp
  | join _ r _ _ hnew ih =>
    intro x hx
    rcases List.mem_append.mp hx with hx | hx
    · exact ih x hx
    · obtain rfl : x = r := by simpa using hx
      exact hactive _ hnew
  | code _ _ _ _ hg ih =>
    intro x hx
    rcases mem_updateFirst hx with hx | ⟨y, hy, _, rfl⟩
    · exact ih x hx
    · rw [hg.product]
      exact ih y hy
  | tick _ ih =>
    intro x hx
    obtain ⟨y, hy, rfl⟩ := List.mem_map.mp hx
    exact ih y hy
  | removeAged _ _ ih => exact fun x hx => ih x (List.mem_of_mem_filter hx)
  | slip _ _ _ hg ih =>
    intro x hx
    rcases mem_updateFirst hx with hx | ⟨y, hy, _, rfl⟩
    · exact ih x ((removeFirstN_sublist _ _ _).subset hx)
    · rw [hg.product]
      exact ih y ((removeFirstN_sublist _ _ _).subset hy)
  | pop _ ih => exact fun x hx => ih x ((removeFirst_sublist _ _).subset hx)

theorem Tracking.Moves.order (h : Tracking.Moves active lookahead q t) (hlookahead : lookahead ≤ 8) (hok : q.Ok)
    (hq : InOrder q.canCounter q.tagCounter q.queue) : InOrder t.canCounter t.tagCounter t.queue := by
  induction h with
  | refl => exact hq
  | same _ hqueue hcans htags ih =>
    rw [hqueue, hcans, htags]
    exact ih
  | clear => exact inOrder_nil
  | join _ r hroom hnew _ ih => exact ih.joined hroom hnew.number hnew.stage hnew.age hnew.tag
  | code hmoves hsome advance htag hg ih =>
    have hcurrent := hmoves.ok hok
    exact ih.codedFirst hcurrent.capacity hcurrent.tags (fun r hr hs => (hcurrent.staged r hr).1.mp hs) hsome advance htag
      hg.number hg.age hg.stage hg.tag
  | tick _ ih => exact ih.ticked
  | removeAged _ maxAge ih => exact ih.aged maxAge
  | slip _ hk hmore hg ih => exact ih.slipped (hk.trans hlookahead) hmore hg.number hg.age hg.stage hg.tag
  | pop _ ih => exact ih.popped

end Moves

end Sys2Proof.Machine
end

section
/-!
PROOFS, the operations that act on the Tracking Queue, each by moves.
-/

namespace Sys2Proof.Machine

/-- `t` follows `s` by moves of the Tracking Queue, products and Line Setup record as they were; new records are of the product
`active`, and with none there are no new records. -/
structure State.Queues (s : State) (active : Option (Fin 16)) (t : State) : Prop where
  pu : t.pu = s.pu
  setup : t.ma.setup = s.ma.setup
  moves : s.tq.Moves active s.ma.setup.lookahead t.tq

section Queues

variable {s t u : State} {active : Option (Fin 16)}

theorem State.Queues.refl (s : State) : s.Queues active s :=
  ⟨rfl, rfl, .refl⟩

theorem State.Queues.same (h : s.Queues active t) (hpu : u.pu = t.pu) (hsetup : u.ma.setup = t.ma.setup)
    (hqueue : u.tq.queue = t.tq.queue) (hcans : u.tq.canCounter = t.tq.canCounter)
    (htags : u.tq.tagCounter = t.tq.tagCounter) : s.Queues active u :=
  ⟨hpu.trans h.pu, hsetup.trans h.setup, .same h.moves hqueue hcans htags⟩

theorem State.Queues.only {l : List Block} (h : s.Queues active t) (k : OnlyChanges l t u)
    (hl : ∀ b ∈ l, b ≠ .tq ∧ b ≠ .pu ∧ b ≠ .ma) : s.Queues active u := by
  have htq : State.agrees .tq t u := k .tq fun hb => (hl _ hb).1 rfl
  have hpu : State.agrees .pu t u := k .pu fun hb => (hl _ hb).2.1 rfl
  have hma : State.agrees .ma t u := k .ma fun hb => (hl _ hb).2.2 rfl
  exact h.same hpu (congrArg Mgmt.setup hma) (congrArg Tracking.queue htq) (congrArg Tracking.canCounter htq)
    (congrArg Tracking.tagCounter htq)

/-! ### Removal of the whole queue -/

theorem handRemoved_queues (fate : Fate) (x : Word32) (records : List CanRecord) (h : s.Queues active t) :
    s.Queues active (handRemoved fate x records t) :=
  h.only (handRemoved_only fate x records t) (by decide)

theorem withTrackingCounters_queues (x : TrackingCounters) (h : s.Queues active t) : s.Queues active (t.withTrackingCounters x) :=
  h.same rfl rfl rfl rfl rfl

theorem flushRecords_queues (h : s.Queues active t) : s.Queues active (flushRecords t) := by
  have hcleared : s.Queues active (t.withQueue []) := ⟨h.pu, h.setup, h.moves.clear⟩
  exact handRemoved_queues _ _ _ (withTrackingCounters_queues _ hcleared)

/-! ### Discharges -/

theorem makeRoom_queues (h : s.Queues active t) : s.Queues active (makeRoom t) := by
  unfold makeRoom
  split
  · exact h
  · exact (withTrackingCounters_queues _ (flushRecords_queues h)).only (loseQueue_only _) (by decide)

theorem flushRecords_queue (s : State) : (flushRecords s).tq.queue = [] := by
  unfold flushRecords
  rw [(handRemoved_only _ _ _ _).keep .tq (by decide)]
  rfl

/-- There is room after room is made (R68). -/
theorem makeRoom_room (s : State) : (makeRoom s).tq.queue.length < 128 := by
  unfold makeRoom
  split
  · assumption
  · unfold overflowFlush
    rw [(loseQueue_only _).keep .tq (by decide), State.withTrackingCounters, flushRecords_queue]
    decide

theorem createRecord_queues {k : Fin 16} (hk : active = some k) (seed : RecordSeed) (h : s.Queues active t) :
    s.Queues active (createRecord k seed t) := by
  have hroom := makeRoom_room t
  have hmade := makeRoom_queues h
  unfold createRecord
  generalize makeRoom t = x at hroom hmade ⊢
  dsimp only
  refine ⟨hmade.pu, hmade.setup, ?_⟩
  exact .same (.join hmade.moves _ hroom ⟨rfl, rfl, rfl, rfl, rfl⟩ hk) rfl rfl rfl

theorem createPlaceholders_queues {k : Fin 16} (m : Nat) (hk : active = some k) (h : s.Queues active t) :
    s.Queues active (createPlaceholders k m t) := by
  induction m generalizing t with
  | zero => exact h
  | succ n ih =>
    have hcreated := createRecord_queues hk placeholderSeed h
    unfold createPlaceholders
    dsimp only
    generalize createRecord k placeholderSeed t = x at hcreated ⊢
    exact ih (withTrackingCounters_queues _ hcreated)

theorem breakTracking_queues (h : s.Queues active t) : s.Queues active (breakTracking t) :=
  h.only (breakTracking_only t) (by decide)

theorem dischargeGap_queues (seq : Byte) (h : s.Queues s.pu.active t) : s.Queues s.pu.active (dischargeGap seq t) := by
  unfold dischargeGap
  dsimp only
  split
  · exact h
  · split
    · exact h
    · split
      · split
        · exact h
        · next k hk => exact createPlaceholders_queues _ (h.pu ▸ hk) h
      · exact breakTracking_queues h

theorem admitDischarge_queues (h : s.Queues active t) {k : Fin 16} (hk : active = some k) (v : Nat) (x : Word16) :
    s.Queues active (admitDischarge k v x t) := by
  unfold admitDischarge
  split
  · exact createRecord_queues hk _ h
  · exact (createRecord_queues hk _ h).only (followDischarge_only _ _ _ _) (by decide)

theorem takeDischarge_queues (c : Copy) (h : s.Queues s.pu.active t) : s.Queues s.pu.active (takeDischarge c t) := by
  have hgap := dischargeGap_queues c.sequence h
  unfold takeDischarge
  generalize dischargeGap c.sequence t = x at hgap ⊢
  have hexpected : s.Queues s.pu.active { x with tq := { x.tq with dischargeExp := some (c.sequence + 1) } } := hgap.same rfl rfl rfl rfl rfl
  dsimp only
  split
  · exact withTrackingCounters_queues _ hexpected
  · next k hk => exact admitDischarge_queues hexpected (hexpected.pu ▸ hk) _ _

/-! ### Seams -/

theorem codeLostSeams_moves {active : Option (Fin 16)} {lookahead : Nat} {q : Tracking} (m : Nat) {x : Tracking}
    (h : q.Moves active lookahead x) :
    q.Moves active lookahead { x with queue := (codeLostSeams m x.queue).1 } := by
  induction m generalizing x with
  | zero => exact h
  | succ n ih =>
    unfold codeLostSeams
    split
    · next hsome =>
      refine ih (x := { x with queue := updateFirst CanRecord.isFilled _ x.queue }) ?_
      exact .code h (List.any_eq_true.mp hsome) false (tag := 4095) (.inl rfl)
        ⟨fun _ => rfl, fun _ => rfl, fun _ => rfl, fun _ => rfl, fun _ => rfl, fun _ => rfl⟩
    · exact h

theorem orphanSeams_queues (n : Nat) (h : s.Queues active t) : s.Queues active (orphanSeams n t) :=
  breakTracking_queues (withTrackingCounters_queues _ h)

theorem seamGap_queues (seq : Byte) (h : s.Queues active t) : s.Queues active (seamGap seq t) := by
  have hlost (m : Nat) : s.Queues active (t.withQueue (codeLostSeams m t.tq.queue).1) :=
    ⟨h.pu, h.setup, codeLostSeams_moves m h.moves⟩
  unfold seamGap
  dsimp only
  split
  · exact h
  · split
    · exact h
    · split
      · split
        · exact hlost _
        · exact orphanSeams_queues _ (hlost _)
      · exact breakTracking_queues h

/-- A tag is issued: the counter advances, and the record's tag is the counter's value or the null tag (R72). -/
theorem issueTag_tq (n : Word32) (s : State) : (issueTag n s).1.tq = { s.tq with tagCounter := nextTag s.tq.tagCounter } ∧
    ((issueTag n s).2 = 4095 ∨ (issueTag n s).2 = s.tq.tagCounter) ∧ (issueTag n s).1.pu = s.pu ∧ (issueTag n s).1.ma = s.ma := by
  unfold issueTag
  dsimp only
  split
  · exact ⟨rfl, .inr rfl, rfl, rfl⟩
  · refine ⟨rfl, ?_, rfl, rfl⟩
    dsimp only
    split
    · exact .inr rfl
    · exact .inl rfl

theorem seamOwn_queues (head : Byte) (h : s.Queues active t) : s.Queues active (seamOwn head t) := by
  unfold seamOwn
  split
  · exact orphanSeams_queues _ h
  · next r hr =>
    obtain ⟨htq, htag, hpu, hma⟩ := issueTag_tq r.number t
    generalize issueTag r.number t = o at htq htag hpu hma ⊢
    refine ⟨hpu.trans h.pu, (congrArg Mgmt.setup hma).trans h.setup, ?_⟩
    have hsome : ∃ r ∈ t.tq.queue, r.isFilled = true := ⟨r, List.mem_of_find?_eq_some hr, List.find?_some hr⟩
    have hcoded := Tracking.Moves.code h.moves hsome true (tag := o.2) (htag.imp id fun ht => ⟨rfl, ht⟩)
      (g := fun x => { x with stage := .coded, head := some head, tag := some o.2,
                              headRange := decide (t.ma.setup.headCount ≤ head.toNat) })
      ⟨fun _ => rfl, fun _ => rfl, fun _ => rfl, fun _ => rfl, fun _ => rfl, fun _ => rfl⟩
    refine .same hcoded ?_ ?_ ?_
    · rw [State.withQueue, htq]
    · rw [State.withQueue, htq]
    · rw [State.withQueue, htq]
      rfl

theorem takeSeam_queues (c : Copy) (h : s.Queues active t) : s.Queues active (takeSeam c t) := by
  have hgap := seamGap_queues c.sequence h
  unfold takeSeam
  exact seamOwn_queues _ (hgap.same rfl rfl rfl rfl rfl)

/-! ### Ageing -/

theorem removeAged_queues (h : s.Queues active t) : s.Queues active (removeAged t) := by
  unfold removeAged
  split
  · exact h
  · have haged : s.Queues active { t with tq := { t.tq with
        queue := t.tq.queue.filter fun r => !decide (t.ma.setup.maxAge < r.age), ticked := none } } :=
      ⟨h.pu, h.setup, .same (h.moves.removeAged t.ma.setup.maxAge) rfl rfl rfl⟩
    exact handRemoved_queues _ _ _ (haged.same rfl rfl rfl rfl rfl)

theorem pitchTick_queues (b : Word32) (h : s.Queues active t) : s.Queues active (pitchTick b t) :=
  removeAged_queues ⟨h.pu, h.setup, .same h.moves.tick rfl rfl rfl⟩

theorem ticks_queues (ticks : List Word32) (h : s.Queues active t) : s.Queues active (ticks.foldl (fun u b => pitchTick b u) t) := by
  induction ticks generalizing t with
  | nil => exact h
  | cons b rest ih => exact ih (pitchTick_queues b h)

theorem takeCount_queues (c : Word16) (h : s.Queues active t) : s.Queues active (takeCount c t) := by
  have hready : s.Queues active t.readied := h.only (State.readied_only t) (by decide)
  have hpos {t : State} (x : Position) (ht : s.Queues active t) : s.Queues active (t.withPos x) := ht.only (withPos_only t x) (by decide)
  rw [takeCount_eq]
  unfold handleCount
  generalize t.readied = x at hready ⊢
  dsimp only
  split
  · exact hpos _ hready
  · split
    · exact hpos _ hready
    · split
      · exact (ticks_queues _ (hpos _ (hpos _ hready))).only (advance_only _ _ _) (by decide)
      · exact hpos _ (hpos _ hready)

/-! ### Reads -/

theorem markMatched_passes (accepted : Bool) : Passes (markMatched accepted) :=
  ⟨fun _ => rfl, fun _ => rfl, fun _ => rfl, fun _ => rfl, fun _ => rfl, fun _ => rfl⟩

theorem withReaderCounters_queues (x : ReaderCounters) (h : s.Queues active t) : s.Queues active (t.withReaderCounters x) :=
  h.same rfl rfl rfl rfl rfl

/-- The expected record is matched. -/
theorem markFirst_tq (lot : List Byte) (s : State) : ∃ accepted, (markFirst lot s).tq =
    { s.tq with queue := updateFirst CanRecord.isCoded (markMatched accepted) s.tq.queue } ∧ (markFirst lot s).pu = s.pu ∧
    (markFirst lot s).ma = s.ma := by
  refine ⟨s.lotOf lot, ?_⟩
  unfold markFirst
  dsimp only
  split <;> exact ⟨rfl, rfl, rfl⟩

theorem becomeSynced_queues (h : s.Queues active t) : s.Queues active (becomeSynced t) := h.only (becomeSynced_only t) (by decide)
theorem becomeLost_queues (h : s.Queues active t) : s.Queues active (becomeLost t) := h.only (becomeLost_only t) (by decide)

theorem unreadMark_queues (hsome : 0 < t.tq.queue.countP CanRecord.isCoded) (h : s.Queues active t) : s.Queues active (unreadMark t) := by
  have hmarked : s.Queues active (t.withQueue (updateFirst CanRecord.isCoded
      (fun r => { r with readResult := some .unread, lotOk := false, stage := .passed }) t.tq.queue)) :=
    ⟨h.pu, h.setup, h.moves.slip (k := 0) (Nat.zero_le _) hsome
      ⟨fun _ => rfl, fun _ => rfl, fun _ => rfl, fun _ => rfl, fun _ => rfl, fun _ => rfl⟩⟩
  exact becomeLost_queues (hmarked.same rfl rfl rfl rfl rfl)

theorem exactMatch_queues (lot : List Byte) (hsome : 0 < t.tq.queue.countP CanRecord.isCoded) (h : s.Queues active t) :
    s.Queues active (exactMatch lot t) := by
  obtain ⟨accepted, htq, hpu, hma⟩ := markFirst_tq lot t
  have hmarked : s.Queues active (markFirst lot t) :=
    ⟨hpu.trans h.pu, (congrArg Mgmt.setup hma).trans h.setup,
      htq ▸ h.moves.slip (k := 0) (Nat.zero_le _) hsome (markMatched_passes accepted)⟩
  unfold exactMatch
  generalize markFirst lot t = x at hmarked ⊢
  exact becomeSynced_queues (hmarked.same rfl rfl rfl rfl rfl)

theorem lookaheadMatch_queues {k : Nat} (hk : k ≤ t.ma.setup.lookahead) (lot : List Byte)
    (hmore : k < t.tq.queue.countP CanRecord.isCoded) (h : s.Queues active t) : s.Queues active (lookaheadMatch k lot t) := by
  have hslip (accepted : Bool) := h.moves.slip (h.setup ▸ hk) hmore (markMatched_passes accepted)
  unfold lookaheadMatch
  dsimp only
  have hremoved := handMissing_only t.pos.linePos ((t.tq.queue.filter CanRecord.isCoded).take k)
    (t.withQueue (removeFirstN CanRecord.isCoded k t.tq.queue))
  have hqueue : (handMissing t.pos.linePos ((t.tq.queue.filter CanRecord.isCoded).take k)
      (t.withQueue (removeFirstN CanRecord.isCoded k t.tq.queue))).tq = { t.tq with
        queue := removeFirstN CanRecord.isCoded k t.tq.queue
        counters := { t.tq.counters with
          missing := tally t.tq.counters.missing ((t.tq.queue.filter CanRecord.isCoded).take k).length } } :=
    (handRemoved_only _ _ _ _).keep .tq (by decide)
  have hpu := hremoved .pu (by decide)
  have hma := hremoved .ma (by decide)
  dsimp only [State.agrees] at hpu hma
  generalize handMissing _ _ _ = x at hqueue hpu hma ⊢
  obtain ⟨accepted, htq, hpu', hma'⟩ := markFirst_tq lot x
  generalize markFirst lot x = y at htq hpu' hma' ⊢
  refine ⟨?_, ?_, ?_⟩
  · exact (hpu'.trans hpu).trans h.pu
  · exact (congrArg Mgmt.setup (hma'.trans hma)).trans h.setup
  · refine .same (hslip accepted) ?_ ?_ ?_
    · exact (congrArg Tracking.queue htq).trans (by rw [hqueue])
    · exact (congrArg Tracking.canCounter htq).trans (by rw [hqueue])
    · exact (congrArg Tracking.tagCounter htq).trans (by rw [hqueue])

theorem orphanRead_queues (rd : CodeRead) (h : s.Queues active t) : s.Queues active (orphanRead rd t) := by
  unfold orphanRead
  dsimp only
  split <;> exact h.same rfl rfl rfl rfl rfl

theorem matchRead_queues (rd : CodeRead) (h : s.Queues active t) : s.Queues active (matchRead rd t) := by
  unfold matchRead
  split
  · exact orphanRead_queues rd h
  · next expected following hcoded =>
    have hcount : t.tq.queue.countP CanRecord.isCoded = following.length + 1 := by
      rw [List.countP_eq_length_filter, hcoded, List.length_cons]
    have hsome : 0 < t.tq.queue.countP CanRecord.isCoded := by omega
    split
    · exact unreadMark_queues hsome h
    · exact unreadMark_queues hsome h
    · split
      · exact exactMatch_queues _ hsome h
      · split
        · next i hi =>
          have hlt : i < (following.take t.ma.setup.lookahead).length := (List.findIdx?_eq_some_iff_findIdx_eq.mp hi).1
          rw [List.length_take] at hlt
          exact lookaheadMatch_queues (by omega) _ (by omega) h
        · split
          · exact withReaderCounters_queues _ h
          · exact unreadMark_queues hsome h

theorem matchLost_queues (m : Nat) (h : s.Queues active t) : s.Queues active (matchLost m t) := by
  induction m generalizing t with
  | zero => exact h
  | succ n ih => exact ih (matchRead_queues _ h)

theorem readGap_queues (seq : Byte) (h : s.Queues active t) : s.Queues active (readGap seq t) := by
  unfold readGap
  dsimp only
  split
  · exact h
  · split
    · exact h
    · split
      · exact withReaderCounters_queues _ (matchLost_queues _ h)
      · exact breakTracking_queues (withReaderCounters_queues _ h)

theorem takeRead_queues (c : Copy) (h : s.Queues active t) : s.Queues active (takeRead c t) := by
  have hgap := readGap_queues c.sequence h
  unfold takeRead
  generalize readGap c.sequence t = x at hgap ⊢
  exact matchRead_queues _ (hgap.same rfl rfl rfl rfl rfl)

/-! ### Window Results -/

theorem updateFirst_congr_pop {p : CanRecord → Bool} {g : CanRecord → CanRecord} (hg : ∀ r, p (g r) = p r) (l : List CanRecord) :
    removeFirst p (updateFirst p g l) = removeFirst p l := by
  induction l with
  | nil => rfl
  | cons r rest ih =>
    unfold updateFirst
    split
    · next hr => rw [removeFirst, if_pos (by rw [hg, hr]), removeFirst, if_pos hr]
    · next hr => rw [removeFirst, if_neg hr, ih, removeFirst, if_neg hr]

/-- The judged can leaves the queue (R76). -/
theorem assignWeigh_queues (r : CanRecord) (w : WindowResult) (h : s.Queues active t) : s.Queues active (assignWeigh r w t) := by
  have hkeep {l : List Block} {x y : State} (k : OnlyChanges l x y) (hl : ∀ b ∈ l, b ≠ .tq ∧ b ≠ .pu ∧ b ≠ .ma) :
      y.tq = x.tq ∧ y.pu = x.pu ∧ y.ma = x.ma :=
    ⟨k .tq fun hb => (hl _ hb).1 rfl, k .pu fun hb => (hl _ hb).2.1 rfl, k .ma fun hb => (hl _ hb).2.2 rfl⟩
  unfold assignWeigh
  dsimp only
  obtain ⟨htq, hpu, hma⟩ := hkeep (judgeRecord_only { r with result := some w } w
    (t.withQueue (updateFirst CanRecord.isPassed (fun x => { x with result := some w }) t.tq.queue))) (by decide)
  generalize judgeRecord _ w _ = o at htq hpu hma ⊢
  obtain ⟨htq', hpu', hma'⟩ := hkeep (handOn_only o.2 o.1) (by decide)
  generalize handOn o.2 o.1 = x at htq' hpu' hma' ⊢
  have hpopped : s.Queues active (x.withQueue (removeFirst CanRecord.isPassed x.tq.queue)) := by
    refine ⟨(hpu'.trans hpu).trans h.pu, (congrArg Mgmt.setup (hma'.trans hma)).trans h.setup, .same h.moves.pop ?_ ?_ ?_⟩
    · rw [State.withQueue, htq', htq]
      exact updateFirst_congr_pop (p := CanRecord.isPassed) (g := fun x => { x with result := some w }) (fun _ => rfl) t.tq.queue
    · rw [State.withQueue, htq', htq]
      rfl
    · rw [State.withQueue, htq', htq]
      rfl
  exact hpopped.only (handJudged_only _ _ _) (by decide)

theorem nextResult_queues (h : s.Queues active t) : s.Queues active (nextResult t) := by
  unfold nextResult
  split
  · exact h
  · next w rest _ =>
    have htaken : s.Queues active (t.withFe { t.fe with results := rest }) := h.same rfl rfl rfl rfl rfl
    generalize t.withFe _ = x at htaken ⊢
    unfold takeResult
    split
    · exact (withTrackingCounters_queues _ htaken).only (judgeOrphan_only w _) (by decide)
    · exact assignWeigh_queues _ w htaken

/-! ### The TRACKING and STATISTICS resets -/

theorem trackingReset_queues (h : s.Queues active t) : s.Queues active (trackingReset t) := by
  have hforgotten : s.Queues active (forgetSequences (flushRecords t)) := (flushRecords_queues h).same rfl rfl rfl rfl rfl
  unfold trackingReset
  exact (hforgotten.only (loseQueue_only _) (by decide)).only (abandonWindow_only _) (by decide)

theorem statisticsReset_queues (h : s.Queues active t) : s.Queues active (statisticsReset t) :=
  h.same rfl rfl rfl rfl rfl

end Queues

end Sys2Proof.Machine
end

section
/-!
PROOFS, the Tracking Queue and the product slots through every row.
-/

namespace Sys2Proof.Machine

theorem CommandKind.body_moves (active : Option (Fin 16)) (k : CommandKind) (hfull : k ≠ .resetFull) (args : List Byte)
    (s : State) : s.tq.Moves active s.ma.setup.lookahead (k.body args s).1.tq := by
  by_cases hk : Block.tq ∈ k.touches
  · cases k <;> dsimp only [CommandKind.body] <;> try exact absurd hk (by decide)
    case clearCounters => exact .same .refl rfl rfl rfl
    case resetFull => exact absurd rfl hfull
    case resetTracking => exact (trackingReset_queues (.refl s)).moves
    case resetStatistics => exact (statisticsReset_queues (.refl s)).moves
  · have htq : (k.body args s).1.tq = s.tq := (k.body_only args s) .tq hk
    rw [htq]
    exact .refl

/-- The rows that give the Tracking Queue its power-on values. -/
def clearsQueue : Instr → Bool
  | .powerOn _ | .resetFull => true
  | _ => false

/-- Only a discharge frame makes records, of the active product (R67). -/
theorem effect_moves_of {c : Instr} (hc : clearsQueue c = false) (s : State) {active : Option (Fin 16)}
    (hdischarge : c = .dischargeFrame → active = s.pu.active) : s.tq.Moves active s.ma.setup.lookahead (effect c s).tq := by
  cases hkind : kindOf c with
  | some k =>
    obtain rfl := eq_row_of_kindOf hkind
    refine effect_row_keeps (P := fun t => s.tq.Moves active s.ma.setup.lookahead t.tq) k .refl (fun args => ?_)
      fun c r t ht => ht
    exact k.body_moves active (fun hfull => by rw [hfull] at hc; cases hc) args s
  | none =>
    by_cases htouches : Block.tq ∈ eventTouches c
    · have honHanded {role : Role} {f : Copy → State → State} (hf : ∀ c {t}, s.Queues active t → s.Queues active (f c t)) :
          s.tq.Moves active s.ma.setup.lookahead (onHanded role f s).tq :=
        (onHanded_of (P := s.Queues active) (.refl s) (fun _ => (State.Queues.refl s).same rfl rfl rfl rfl rfl) fun c _ => hf c).moves
      cases c
      case powerOn => cases hc
      case encoderFrame => exact honHanded (f := fun c => takeCount (encoderCount c.payload)) fun c _ h => takeCount_queues _ h
      case maxAgeRemoval => exact (removeAged_queues (.refl s)).moves
      case dischargeFrame =>
        obtain rfl := hdischarge rfl
        exact honHanded fun c _ h => takeDischarge_queues c h
      case seamFrame => exact honHanded fun c _ h => takeSeam_queues c h
      case readFrame => exact honHanded fun c _ h => takeRead_queues c h
      case windowResult => exact (nextResult_queues (.refl s)).moves
      all_goals exact absurd htouches (by simp [eventTouches])
    · have htq : (effect c s).tq = s.tq := (effect_event_only hkind s) .tq htouches
      rw [htq]
      exact .refl

theorem effect_moves {c : Instr} (hc : clearsQueue c = false) (s : State) :
    s.tq.Moves s.pu.active s.ma.setup.lookahead (effect c s).tq :=
  effect_moves_of hc s fun _ => rfl

theorem effect_reset_tq {c : Instr} (hc : clearsQueue c = true) (s : State) :
    (effect c s).tq = State.reset.tq ∨ effect c s = s ∨ ∃ d status, effect c s = s.replied d { status := status } := by
  cases c <;> try cases hc
  case powerOn => exact .inl rfl
  case resetFull =>
    rcases effect_row_cases .resetFull s with h | ⟨d, _, ⟨status, h⟩ | h⟩
    · exact .inr (.inl h)
    · exact .inr (.inr ⟨d, status, h⟩)
    · refine .inl ?_
      rw [show effect .resetFull s = _ from h]
      rfl

/-- A fact about the Tracking Queue that its power-on values have and its moves keep is kept by every row. -/
theorem effect_keeps_tq {P : Tracking → Prop} (hreset : P State.reset.tq) (c : Instr) {s : State} (hs : P s.tq)
    (hmoves : ∀ {t}, s.tq.Moves s.pu.active s.ma.setup.lookahead t → P t) : P (effect c s).tq := by
  cases hc : clearsQueue c with
  | false => exact hmoves (effect_moves hc s)
  | true =>
    rcases effect_reset_tq hc s with h | h | ⟨d, status, h⟩
    · rw [h]
      exact hreset
    · rw [h]
      exact hs
    · rw [h]
      exact hs

theorem reset_tq_ok : State.reset.tq.Ok :=
  ⟨by decide, by simp [State.reset], by decide⟩

theorem effect_queueInv (c : Instr) {s : State} (h : s.queueInv) : (effect c s).queueInv := by
  rw [queueInv_iff] at h ⊢
  exact effect_keeps_tq reset_tq_ok c h fun hmoves => hmoves.ok h

theorem lookahead_le {s : State} (h : s.setupInv) : s.ma.setup.lookahead ≤ 8 := by
  obtain ⟨hrange, _⟩ := h
  simp only [LineSetup.inRange, Bool.and_eq_true, decide_eq_true_eq] at hrange
  obtain ⟨⟨⟨_, hfields⟩, _⟩, _⟩ := hrange
  omega

theorem effect_orderInv (c : Instr) {s : State} (hsetup : s.setupInv) (hqueue : s.queueInv) (h : s.orderInv) :
    (effect c s).orderInv := by
  rw [orderInv_iff] at h ⊢
  exact effect_keeps_tq (P := fun q => InOrder q.canCounter q.tagCounter q.queue) inOrder_nil c h
    fun hmoves => hmoves.order (lookahead_le hsetup) ((queueInv_iff s).mp hqueue) h

theorem effect_setupInv (c : Instr) {s : State} (h : s.setupInv) : (effect c s).setupInv :=
  (effect_ma c s).setupOk h

/-! ### The product slots in use (R160, R162) -/

/-- The active slot and the slots of the queue hold records. -/
theorem productInv_iff (s : State) : s.productInv ↔
    (∀ k, s.pu.active = some k → s.pu.table[k].isSome = true) ∧ ∀ r ∈ s.tq.queue, s.pu.table[r.product].isSome = true :=
  Iff.rfl

/-- With the product records as they were, new records of the active product keep the slots of the queue filled. -/
theorem productInv_of_moves {s t : State} (h : s.productInv) (hpu : t.pu = s.pu)
    (hmoves : s.tq.Moves s.pu.active s.ma.setup.lookahead t.tq) : t.productInv := by
  obtain ⟨hactive, hqueue⟩ := h
  rw [productInv_iff, hpu]
  exact ⟨hactive, hmoves.products hactive hqueue⟩

theorem productInv_speaksOf : SpeaksOf [.tq, .pu] State.productInv := by
  intro s t h hs
  have htq : t.tq = s.tq := h .tq (by decide)
  have hpu : t.pu = s.pu := h .pu (by decide)
  rw [productInv_iff, htq, hpu]
  exact hs

theorem reset_productInv {s : State} (hpu : s.pu = State.reset.pu) (htq : s.tq = State.reset.tq) : s.productInv := by
  rw [productInv_iff, hpu, htq]
  exact ⟨fun k hk => by simp [State.reset] at hk, fun r hr => by simp [State.reset] at hr⟩

/-- A commit of products leaves the slots in use (R160). -/
theorem commitProduct_productInv (first : Nat) (entries : List (List Byte)) {s : State} (h : s.productInv) :
    (commitProduct first entries s).1.productInv := by
  unfold commitProduct refuseAt
  split
  · exact h
  · next l _ =>
    split
    · exact h
    · next hnone =>
      obtain ⟨hactive, hqueue⟩ := h
      have hkept (k : Fin 16) (huse : s.inUse k = true) : (putRange s.pu.table first l)[k] = s.pu.table[k] := by
        refine putRange_outside _ _ _ fun hrange => ?_
        have hk := List.find?_eq_none.mp hnone k (List.mem_finRange k)
        exact hk (by rw [huse, decide_eq_true hrange]; rfl)
      refine ⟨fun k hk => ?_, fun r hr => ?_⟩
      · dsimp only at hk ⊢
        rw [hkept k (by simp [State.inUse, hk])]
        exact hactive k hk
      · dsimp only at hr ⊢
        have huse : s.inUse r.product = true := by
          simp only [State.inUse, Bool.or_eq_true, List.any_eq_true]
          exact .inr ⟨r, hr, by simp⟩
        rw [hkept r.product huse]
        exact hqueue r hr

theorem commitTable_productInv (table : TableId) (first : Nat) (entries : List (List Byte)) {s : State} (h : s.productInv) :
    (commitTable table first entries s).1.productInv := by
  have hother {l : List Block} {t : State} (k : OnlyChanges l s t) (hl : ∀ b ∈ [Block.tq, .pu], b ∉ l) : t.productInv :=
    productInv_speaksOf.keep k hl h
  unfold commitTable
  cases table <;> dsimp only
  case channel => exact hother (commitChannel_only first entries s) (by decide)
  case lineSetup => exact hother (commitLineSetup_only entries s) (by decide)
  case calibration => exact hother (commitCalibration_only entries s) (by decide)
  case product => exact commitProduct_productInv first entries h
  case valve => exact hother (commitValve_only first entries s) (by decide)
  case policy => exact hother (commitPolicy_only first entries s) (by decide)

theorem selectBody_productInv (args : List Byte) {s : State} (h : s.productInv) : (selectBody args s).1.productInv := by
  have htq (k : Option (Fin 16)) : (selectProduct k s).tq = s.tq := (applySelection_only _) .tq (by decide)
  have hselect (k : Option (Fin 16)) (hk : ∀ i, k = some i → s.pu.table[i].isSome = true) : (selectProduct k s).productInv := by
    rw [productInv_iff, selectProduct_pu, htq]
    exact ⟨hk, h.2⟩
  unfold selectBody refuse
  dsimp only
  split
  · dsimp only
    exact hselect _ nofun
  · split
    · split
      · next hsome =>
        dsimp only
        exact hselect _ fun i hi => by obtain rfl := Option.some.inj hi; exact hsome
      · exact h
    · exact h

theorem setLotBody_productInv (args : List Byte) {s : State} (h : s.productInv) : (setLotBody args s).1.productInv := by
  unfold setLotBody refuse
  split
  · exact h
  · next k _ =>
    split
    · exact h
    · next p hp =>
      have hkept (i : Fin 16) (hi : s.pu.table[i].isSome = true) :
          (s.pu.table.set k.val (some (p.withLot (args.take 8))) k.isLt)[i].isSome = true := by
        by_cases hik : k.val = i.val
        · simp [hik]
        · simpa [Vector.getElem_set, hik] using hi
      exact ⟨fun i hi => hkept i (h.1 i hi), fun r hr => hkept r.product (h.2 r hr)⟩

theorem CommandKind.body_productInv (k : CommandKind) (args : List Byte) {s : State} (h : s.productInv) :
    (k.body args s).1.productInv := by
  by_cases hk : Block.pu ∈ k.touches
  · cases k <;> dsimp only [CommandKind.body] <;> try exact absurd hk (by decide)
    case loadSegment =>
      exact segmentBody_of (P := State.productInv) (fun hk _ => productInv_speaksOf.keep hk (by decide)) args
        (fun table first entries => commitTable_productInv table first entries h) h
    case selectProduct => exact selectBody_productInv args h
    case setLot => exact setLotBody_productInv args h
    case resetFull => exact reset_productInv rfl rfl
  · refine productInv_of_moves h ((k.body_only args s) .pu hk) (k.body_moves s.pu.active (fun hfull => hk ?_) args s)
    rw [hfull]
    decide

theorem effect_productInv (c : Instr) {s : State} (h : s.productInv) : (effect c s).productInv := by
  cases hc : kindOf c with
  | some k =>
    obtain rfl := eq_row_of_kindOf hc
    exact effect_row_keeps k h (fun args => k.body_productInv args h)
      fun c r t => productInv_speaksOf.keep (finish_only c r t) (by decide)
  | none =>
    by_cases htouches : Block.pu ∈ eventTouches c
    · cases c
      case powerOn => exact reset_productInv rfl rfl
      all_goals exact absurd htouches (by simp [eventTouches])
    · refine productInv_of_moves h ((effect_event_only hc s) .pu htouches) (effect_moves ?_ s)
      cases c <;> try rfl
      · exact absurd (by simp [eventTouches]) htouches
      · cases hc

/-! ### Every step -/

theorem productInv_keptByTimers : KeptByTimers State.productInv where
  pending _ _ h := h
  pos _ _ _ _ h := h
  fe _ _ _ _ h := h
  hold _ _ _ _ h := h
  load _ _ _ _ h := h
  status _ _ _ _ h := h

theorem queueInv_keptByTimers : KeptByTimers State.queueInv where
  pending _ _ h := h
  pos _ _ _ _ h := h
  fe _ _ _ _ h := h
  hold _ _ _ _ h := h
  load _ _ _ _ h := h
  status _ _ _ _ h := h

theorem orderInv_keptByTimers : KeptByTimers fun s => (s.setupInv ∧ s.queueInv) ∧ s.orderInv where
  pending _ _ h := h
  pos _ _ _ _ h := h
  fe _ _ _ _ h := h
  hold _ _ _ _ h := h
  load _ _ _ _ h := h
  status t n hn hlast h := ⟨⟨setupInv_keptByTimers.status t n hn hlast h.1.1, h.1.2⟩, h.2⟩

end Sys2Proof.Machine
end

section
/-!
PROOFS, the Judgement and Reject Unit: what its operations make of the Reject Schedule and of Line Stop Request, and the invariants of
queue and schedule through every step.
-/

namespace Sys2Proof.Machine

/-! ### The moves of the Reject Schedule -/

/-- A deadline exactly on a FIRED entry, and LATE on no other (R112, Table 6-3). -/
def RejectEntry.Ok (e : RejectEntry) : Prop :=
  e.fired = e.deadline.isSome ∧ (e.late = true → e.fired = true)

/-- `k` follows `j`: entries join, fire and leave; the policy changes as R108 lets it, and Line Stop Request stays once it
stands. -/
inductive Judge.Moves (j : Judge) : Judge → Prop
  | refl : Moves j j
  | same {k l : Judge} (h : Moves j k) (hpolicy : l.policy = k.policy) (hschedule : l.schedule = k.schedule)
      (hstop : k.lineStop = true → l.lineStop = true) : Moves j l
  | permit {k : Judge} (h : Moves j k) {p : Vector Bool 12} (hp : ∀ i : Fin 12, i.val ≤ 1 → p[i] = true ∨ p[i] = k.policy[i]) :
      Moves j { k with policy := p }
  | insert {k : Judge} (h : Moves j k) (hroom : k.schedule.length < 32) {e : RejectEntry} (he : e.Ok) :
      Moves j { k with schedule := insertEntry e k.schedule }
  | remove {k : Judge} (h : Moves j k) (p : RejectEntry → Bool) : Moves j { k with schedule := removeFirst p k.schedule }
  | fire {k : Judge} (h : Moves j k) (p : RejectEntry → Bool) (x : RejectEntry → Word32) :
      Moves j { k with schedule := updateFirst p (fun e => { e with fired := true, deadline := some (x e) }) k.schedule }

theorem mem_insertEntry {e x : RejectEntry} {l : List RejectEntry} : x ∈ insertEntry e l ↔ x = e ∨ x ∈ l := by
  induction l with
  | nil => simp [insertEntry]
  | cons y rest ih =>
    unfold insertEntry
    split
    · simp
    · simp [ih]
      tauto

theorem length_insertEntry (e : RejectEntry) (l : List RejectEntry) : (insertEntry e l).length = l.length + 1 := by
  induction l with
  | nil => rfl
  | cons y rest ih =>
    unfold insertEntry
    split
    · rfl
    · rw [List.length_cons, ih, List.length_cons]

/-- The Reject Schedule in capacity, its entries in order each. -/
structure Judge.Ok (j : Judge) : Prop where
  orphan : j.policy[0] = true
  noWeight : j.policy[1] = true
  capacity : j.schedule.length ≤ 32
  entries : ∀ e ∈ j.schedule, e.Ok

theorem rejectInv_iff (s : State) : s.rejectInv ↔ s.jr.Ok :=
  ⟨fun ⟨a, b, c, d⟩ => ⟨a, b, c, d⟩, fun ⟨a, b, c, d⟩ => ⟨a, b, c, d⟩⟩

theorem Judge.Moves.ok {j k : Judge} (h : j.Moves k) (hj : j.Ok) : k.Ok := by
  induction h with
  | refl => exact hj
  | same _ hpolicy hschedule _ ih =>
    exact ⟨hpolicy ▸ ih.orphan, hpolicy ▸ ih.noWeight, hschedule ▸ ih.capacity, hschedule ▸ ih.entries⟩
  | permit _ hp ih =>
    have hkept (i : Fin 12) (hi : i.val ≤ 1) (htrue : _) : _ = true := (hp i hi).elim id fun h => h.trans htrue
    exact ⟨hkept 0 (by decide) ih.orphan, hkept 1 (by decide) ih.noWeight, ih.capacity, ih.entries⟩
  | insert _ hroom he ih =>
    refine ⟨ih.orphan, ih.noWeight, (length_insertEntry _ _).trans_le hroom, fun x hx => ?_⟩
    rcases mem_insertEntry.mp hx with rfl | hx
    · exact he
    · exact ih.entries x hx
  | remove _ p ih =>
    have hsub := removeFirst_sublist p
    exact ⟨ih.orphan, ih.noWeight, (hsub _).length_le.trans ih.capacity, fun x hx => ih.entries x ((hsub _).subset hx)⟩
  | fire _ p x ih =>
    refine ⟨ih.orphan, ih.noWeight, (length_updateFirst _ _ _).trans_le ih.capacity, fun y hy => ?_⟩
    rcases mem_updateFirst hy with hy | ⟨z, _, _, rfl⟩
    · exact ih.entries y hy
    · exact ⟨rfl, fun _ => rfl⟩

theorem Judge.Moves.lineStop {j k : Judge} (h : j.Moves k) (hj : j.lineStop = true) : k.lineStop = true := by
  induction h with
  | refl => exact hj
  | same _ _ _ hstop ih => exact hstop ih
  | permit _ _ ih => exact ih
  | insert _ _ _ ih => exact ih
  | remove _ _ ih => exact ih
  | fire _ _ _ ih => exact ih

/-! ### The operations -/

theorem report_jr (s t : State) : (report s t).jr = t.jr := (report_only s t) .jr (by decide)

theorem raiseLineStop_jr (s : State) : (raiseLineStop s).jr = { s.jr with lineStop := true } := report_jr _ _

section Operations

variable {j : Judge} {s : State}

theorem Judge.Moves.only {l : List Block} {t : State} (h : j.Moves s.jr) (k : OnlyChanges l s t) (hl : Block.jr ∉ l) :
    j.Moves t.jr := by
  have hjr : t.jr = s.jr := k .jr hl
  rw [hjr]
  exact h

theorem raiseLineStop_moves (h : j.Moves s.jr) : j.Moves (raiseLineStop s).jr := by
  rw [raiseLineStop_jr]
  exact .same h rfl rfl fun _ => rfl

theorem raiseForFault_moves (h : j.Moves s.jr) : j.Moves (raiseForFault s).jr := by
  unfold raiseForFault
  split
  · exact raiseLineStop_moves h
  · exact h

theorem withRejectCounters_moves (c : RejectCounters) (h : j.Moves s.jr) : j.Moves (s.withRejectCounters c).jr :=
  .same h rfl rfl id

theorem loseReject_moves (h : j.Moves s.jr) : j.Moves (loseReject s).jr :=
  raiseLineStop_moves (withRejectCounters_moves _ h)

theorem offerReject_moves (n : Option Word32) (cls : CanClass) (h : j.Moves s.jr) : j.Moves (offerReject n cls s).1.jr :=
  h.only (offerReject_only n cls s) (by decide)

theorem fireFirst_moves (p : RejectEntry → Bool) (h : j.Moves s.jr) : j.Moves (fireFirst p s).jr := by
  unfold fireFirst
  split
  · exact h
  · next e _ =>
    have hoffered := offerReject_moves e.number e.cls h
    generalize offerReject e.number e.cls s = o at hoffered ⊢
    dsimp only
    split
    · exact withRejectCounters_moves _ (hoffered.fire p fun x => o.1.deadline x.firePos)
    · exact loseReject_moves (hoffered.remove p)

theorem timeoutFirst_moves (p : RejectEntry → Bool) (h : j.Moves s.jr) : j.Moves (timeoutFirst p s).jr := by
  unfold timeoutFirst
  split
  · exact h
  · have hremoved : j.Moves (s.withSchedule (removeFirst p s.jr.schedule)).jr := h.remove p
    have hraised := raiseLineStop_moves (withRejectCounters_moves
      { (s.withSchedule (removeFirst p s.jr.schedule)).jr.counters with
        unconfirmed := tally (s.withSchedule (removeFirst p s.jr.schedule)).jr.counters.unconfirmed 1 } hremoved)
    dsimp only
    split
    · exact hraised.only (freezeRing_only _ _) (by decide)
    · exact hraised

theorem advanceRun_moves (x : Word32) (d fuel : Nat) (h : j.Moves s.jr) : j.Moves (advanceRun x d fuel s).jr := by
  induction fuel generalizing s with
  | zero => exact h
  | succ n ih =>
    unfold advanceRun
    split
    · exact h
    · refine ih ?_
      unfold advanceOnce
      split
      · exact fireFirst_moves _ h
      · exact timeoutFirst_moves _ h

theorem takeCount_moves (c : Word16) (h : j.Moves s.jr) : j.Moves (takeCount c s).jr := by
  have hready : j.Moves s.readied.jr := h.only (State.readied_only s) (by decide)
  rw [takeCount_eq]
  unfold handleCount
  generalize s.readied = t at hready ⊢
  dsimp only
  split
  · exact hready
  · split
    · exact hready
    · split
      · refine advanceRun_moves _ _ _ (Judge.Moves.only ?_ (ticks_only _ _) (by decide))
        exact hready
      · exact hready

/-! ### Scheduling -/

theorem raiseAfterScheduling_moves (h : j.Moves s.jr) : j.Moves (raiseAfterScheduling s).jr := by
  unfold raiseAfterScheduling
  split
  · exact raiseLineStop_moves h
  · exact h

theorem joinEntry_moves {e : RejectEntry} (h : j.Moves s.jr) (hroom : s.jr.schedule.length < 32) (he : e.Ok) :
    j.Moves (s.withSchedule (insertEntry e s.jr.schedule)).jr :=
  h.insert hroom he

theorem scheduleLate_moves (n : Option Word32) (cls : CanClass) (hroom : s.jr.schedule.length < 32) (h : j.Moves s.jr) :
    j.Moves (scheduleLate n cls s).state.jr := by
  have hoffered := offerReject_moves n cls (withRejectCounters_moves { s.jr.counters with late := tally s.jr.counters.late 1 } h)
  have hsame : (offerReject n cls (s.withRejectCounters { s.jr.counters with late := tally s.jr.counters.late 1 })).1.jr.schedule =
      s.jr.schedule := by
    rw [(offerReject_only n cls _) .jr (by decide)]
    rfl
  unfold scheduleLate
  dsimp only
  generalize offerReject n cls _ = o at hoffered hsame ⊢
  split
  · dsimp only
    have hjoined := joinEntry_moves (e := ⟨n, cls, s.pos.linePos, true, some (s.deadline s.pos.linePos), true⟩) hoffered
      (hsame.symm ▸ hroom) ⟨rfl, fun _ => rfl⟩
    exact raiseAfterScheduling_moves (withRejectCounters_moves _ hjoined)
  · dsimp only
    exact raiseAfterScheduling_moves (loseReject_moves hoffered)

theorem scheduleReject_moves (n : Option Word32) (cls : CanClass) (x : Word32) (h : j.Moves s.jr) :
    j.Moves (scheduleReject n cls x s).state.jr := by
  unfold scheduleReject
  split
  · dsimp only
    exact loseReject_moves h
  · next hroom =>
    have hroom' : s.jr.schedule.length < 32 := not_le.mp hroom
    dsimp only
    split
    · exact scheduleLate_moves n cls hroom' h
    · dsimp only
      have hjoined := joinEntry_moves (e := ⟨n, cls, firePosition s.pos s.ma.setup.rejectOffset x, false, none, false⟩) h hroom'
        ⟨rfl, nofun⟩
      exact raiseAfterScheduling_moves hjoined

theorem rejectIfAsked_moves (n : Option Word32) (cls : CanClass) (x : Word32) (h : j.Moves s.jr) :
    j.Moves (rejectIfAsked n cls x s).state.jr := by
  unfold rejectIfAsked
  split
  · exact scheduleReject_moves n cls x h
  · exact h

theorem countClass_moves (cls : CanClass) (h : j.Moves s.jr) : j.Moves (countClass cls s).jr :=
  .same h rfl rfl id

theorem judgeRecord_moves (r : CanRecord) (w : WindowResult) (h : j.Moves s.jr) : j.Moves (judgeRecord r w s).1.jr := by
  unfold judgeRecord
  dsimp only
  exact rejectIfAsked_moves _ _ _ (countClass_moves _ h)

theorem nextResult_moves (h : j.Moves s.jr) : j.Moves (nextResult s).jr := by
  have htake (w : WindowResult) (t : State) (ht : j.Moves t.jr) : j.Moves (takeResult w t).jr := by
    unfold takeResult
    split
    · unfold orphanWeigh judgeOrphan
      have hcounted : j.Moves (t.withTrackingCounters { t.tq.counters with
          orphanWeighs := tally t.tq.counters.orphanWeighs 1 }).jr := ht
      generalize t.withTrackingCounters _ = u at hcounted ⊢
      have hasked := rejectIfAsked_moves none .orphan w.entryPos (countClass_moves .orphan hcounted)
      dsimp only
      exact hasked.only (handJudged_only _ _ _) (by decide)
    · next r _ =>
      unfold assignWeigh
      dsimp only
      have hmarked : j.Moves (t.withQueue (updateFirst CanRecord.isPassed (fun x => { x with result := some w })
          t.tq.queue)).jr := ht
      have hjudged := judgeRecord_moves { r with result := some w } w hmarked
      generalize judgeRecord _ w _ = o at hjudged ⊢
      have hon := hjudged.only (handOn_only o.2 o.1) (by decide)
      generalize handOn o.2 o.1 = u at hon ⊢
      have hpopped : j.Moves (u.withQueue (removeFirst CanRecord.isPassed u.tq.queue)).jr := hon
      generalize u.withQueue _ = v at hpopped ⊢
      exact hpopped.only (handJudged_only _ _ _) (by decide)
  unfold nextResult
  split
  · exact h
  · next w rest _ =>
    have htaken : j.Moves (s.withFe { s.fe with results := rest }).jr := h
    exact htake w _ htaken

/-! ### Confirms -/

theorem confirmLost_moves (m : Nat) (h : j.Moves s.jr) : j.Moves (confirmLost m s).jr := by
  induction m generalizing s with
  | zero => exact h
  | succ n ih =>
    unfold confirmLost
    split
    · exact ih (withRejectCounters_moves _ (h.remove fun e => e.fired))
    · exact h

theorem takeConfirm_moves (c : Copy) (h : j.Moves s.jr) : j.Moves (takeConfirm c s).jr := by
  have hgap : j.Moves (confirmGap c.sequence s).jr := by
    unfold confirmGap
    dsimp only
    split
    · exact .same h rfl rfl id
    · split
      · exact .same h rfl rfl id
      · split
        · exact .same (confirmLost_moves _ h) rfl rfl id
        · exact .same h rfl rfl id
  unfold takeConfirm confirmOwn
  generalize confirmGap c.sequence s = t at hgap ⊢
  dsimp only
  split
  · exact withRejectCounters_moves _ (hgap.remove fun e => e.fired)
  · rw [report_jr]
    exact .same hgap rfl rfl id

/-! ### Commits, counters and the alarms -/

theorem policyOf_low {i : Nat} {b : List Byte} {r : Bool} (h : policyOf i b = some r) (hi : i ≤ 1) : r = true := by
  unfold policyOf at h
  split at h
  · cases h
  · split at h
    · cases h
    · next hlow =>
      obtain rfl := Option.some.inj h
      by_contra hr
      exact hlow ⟨Bool.eq_false_iff.mpr hr, hi⟩

theorem getElem_of_readEntries {α : Type} {f : Nat → List Byte → Option α} {i : Nat} {entries : List (List Byte)} {l : List α}
    (h : readEntries f i entries = .inr l) {k : Nat} {x : α} (hx : l[k]? = some x) : ∃ b, f (i + k) b = some x := by
  induction entries generalizing i l k with
  | nil =>
    obtain rfl := Sum.inr.inj h
    cases hx
  | cons b rest ih =>
    unfold readEntries at h
    split at h
    · cases h
    · next a ha =>
      split at h
      · cases h
      · next m hm =>
        obtain rfl := Sum.inr.inj h
        cases k with
        | zero =>
          obtain rfl := Option.some.inj hx
          exact ⟨b, ha⟩
        | succ k =>
          obtain ⟨b, hb⟩ := ih hm hx
          exact ⟨b, by rwa [Nat.add_right_comm] at hb⟩

/-- A policy commit leaves ORPHAN and NO_WEIGHT rejected (R108). -/
theorem commitPolicy_moves (first : Nat) (entries : List (List Byte)) (h : j.Moves s.jr) :
    j.Moves (commitPolicy first entries s).1.jr := by
  unfold commitPolicy refuseAt
  split
  · exact h
  · next l hl =>
    refine h.permit fun i hi => ?_
    rw [putRange_get]
    split
    · next hfirst =>
      cases hx : l[i.val - first]? with
      | none => exact .inr rfl
      | some x =>
        obtain ⟨b, hb⟩ := getElem_of_readEntries hl hx
        exact .inl (policyOf_low hb (by omega))
    · exact .inr rfl

theorem commitTable_moves (table : TableId) (first : Nat) (entries : List (List Byte)) (h : j.Moves s.jr) :
    j.Moves (commitTable table first entries s).1.jr := by
  unfold commitTable
  cases table <;> dsimp only
  case channel => exact h.only (commitChannel_only first entries s) (by decide)
  case lineSetup => exact h.only (commitLineSetup_only entries s) (by decide)
  case calibration => exact h.only (commitCalibration_only entries s) (by decide)
  case product => exact h.only (commitProduct_only first entries s) (by decide)
  case valve => exact h.only (commitValve_only first entries s) (by decide)
  case policy => exact commitPolicy_moves first entries h

end Operations

theorem setZeroDone_jr (b : Bool) (s : State) : (setZeroDone b s).jr = s.jr := report_jr _ _

theorem clearOverrun_jr (s : State) : (clearOverrun s).jr = s.jr := report_jr _ _

theorem clearUnexpected_jr (s : State) : (clearUnexpected s).jr = { s.jr with unexpected := false } := report_jr _ _

theorem clearLineStop_jr (s : State) : (clearLineStop s).jr = { s.jr with lineStop := false } := report_jr _ _

/-- CLEAR_ALARMS leaves policy and schedule. -/
theorem clearAlarms_jr (s : State) : ∃ stop unexpected,
    (clearAlarms s).jr = { s.jr with lineStop := stop, unexpected := unexpected } := by
  unfold clearAlarms raiseForFault
  rw [setZeroDone_jr, clearOverrun_jr]
  split
  · rw [raiseLineStop_jr, clearUnexpected_jr, clearLineStop_jr]
    exact ⟨_, _, rfl⟩
  · rw [clearUnexpected_jr, clearLineStop_jr]
    exact ⟨_, _, rfl⟩

end Sys2Proof.Machine
end

section
/-!
PROOFS, the Judgement and Reject Unit through every row, and with it the invariants of queue and schedule (O30) and the hold of
Line Stop Request (O40).
-/

namespace Sys2Proof.Machine

/-! ### Every row -/

theorem CommandKind.body_judge (k : CommandKind) (hfull : k ≠ .resetFull) (halarms : k ≠ .clearAlarms) (args : List Byte)
    (s : State) : s.jr.Moves (k.body args s).1.jr := by
  by_cases hk : Block.jr ∈ k.touches
  · cases k <;> dsimp only [CommandKind.body] <;> try exact absurd hk (by decide)
    case loadSegment =>
      exact segmentBody_of (P := fun t => s.jr.Moves t.jr) (fun hk _ ht => ht.only hk (by decide)) args
        (fun table first entries => commitTable_moves table first entries .refl) .refl
    case clearCounters => exact .same .refl rfl rfl id
    case clearAlarms => exact absurd rfl halarms
    case resetFull => exact absurd rfl hfull
    case resetStatistics => exact .same .refl rfl rfl id
  · have hjr : (k.body args s).1.jr = s.jr := (k.body_only args s) .jr hk
    rw [hjr]
    exact .refl

/-- The rows that may clear Line Stop Request (R119). -/
def clearsStop : Instr → Bool
  | .powerOn _ | .resetFull | .clearAlarms => true
  | _ => false

theorem effect_judge {c : Instr} (hc : clearsStop c = false) (s : State) : s.jr.Moves (effect c s).jr := by
  cases hkind : kindOf c with
  | some k =>
    obtain rfl := eq_row_of_kindOf hkind
    refine effect_row_keeps (P := fun t => s.jr.Moves t.jr) k .refl (fun args => ?_) fun c r t ht => ht
    exact k.body_judge (fun hk => by rw [hk] at hc; cases hc) (fun hk => by rw [hk] at hc; cases hc) args s
  | none =>
    by_cases htouches : Block.jr ∈ eventTouches c
    · have honHanded {role : Role} {f : Copy → State → State} (hf : ∀ c t, s.jr.Moves t.jr → s.jr.Moves (f c t).jr) :
          s.jr.Moves (onHanded role f s).jr :=
        onHanded_of (P := fun t => s.jr.Moves t.jr) .refl (fun _ => .refl) hf
      cases c
      case powerOn => cases hc
      case encoderFrame => exact honHanded (f := fun c => takeCount (encoderCount c.payload)) fun c _ h => takeCount_moves _ h
      case rejectFire => exact fireFirst_moves _ .refl
      case confirmTimeout => exact timeoutFirst_moves _ .refl
      case encoderSilenceExpiry =>
        rw [effect_encoderSilenceExpiry]
        split
        · exact raiseForFault_moves (by rw [report_jr]; exact .refl)
        · exact .refl
      case windowResult => exact nextResult_moves .refl
      case confirmFrame => exact honHanded fun c _ h => takeConfirm_moves c h
      all_goals exact absurd htouches (by simp [eventTouches])
    · have hjr : (effect c s).jr = s.jr := (effect_event_only hkind s) .jr htouches
      rw [hjr]
      exact .refl

/-! ### The Reject Schedule in order (R108, R110, Table 6-3) -/

theorem reset_jr_ok : State.reset.jr.Ok :=
  ⟨rfl, rfl, Nat.zero_le _, fun _ he => absurd he List.not_mem_nil⟩

theorem clearAlarms_jr_ok {s : State} (h : s.jr.Ok) : (clearAlarms s).jr.Ok := by
  obtain ⟨stop, unexpected, hjr⟩ := clearAlarms_jr s
  rw [hjr]
  exact ⟨h.orphan, h.noWeight, h.capacity, h.entries⟩

theorem effect_rejectInv (c : Instr) {s : State} (h : s.rejectInv) : (effect c s).rejectInv := by
  rw [rejectInv_iff] at h ⊢
  have hrow (k : CommandKind) (hbody : ∀ args, (k.body args s).1.jr.Ok) : (effect k.row s).jr.Ok :=
    effect_row_keeps (P := fun t => t.jr.Ok) k h hbody fun c r t ht => ht
  cases hc : clearsStop c with
  | false => exact (effect_judge hc s).ok h
  | true =>
    cases c <;> try cases hc
    case powerOn.refl => exact reset_jr_ok
    case resetFull.refl => exact hrow .resetFull fun _ => reset_jr_ok
    case clearAlarms.refl =>
      refine hrow .clearAlarms fun _ => ?_
      dsimp only [CommandKind.body]
      exact clearAlarms_jr_ok h

theorem rejectInv_keptByTimers : KeptByTimers State.rejectInv where
  pending _ _ h := h
  pos _ _ _ _ h := h
  fe _ _ _ _ h := h
  hold _ _ _ _ h := h
  load _ _ _ _ h := h
  status _ _ _ _ h := h

/-- Settles O30: each row keeps the product slots, the Tracking Queue and the Reject Schedule in order. -/
theorem queueAndRejectInvKept : Obligations.QueueAndRejectInvKept := by
  unfold Obligations.QueueAndRejectInvKept
  refine ⟨fun s t hs h => tableInv_keptByTimers.step (fun c u hu => effect_tableInv c hu) hs h,
    fun s t hs h => productInv_keptByTimers.step (fun c u hu => effect_productInv c hu) hs h,
    fun s t hs h => queueInv_keptByTimers.step (fun c u hu => effect_queueInv c hu) hs h,
    fun s t hsetup hqueue hs h => ?_,
    fun s t hs h => rejectInv_keptByTimers.step (fun c u hu => effect_rejectInv c hu) hs h⟩
  refine (orderInv_keptByTimers.step (fun c u hu => ?_) ⟨⟨hsetup, hqueue⟩, hs⟩ h).2
  obtain ⟨⟨husetup, huqueue⟩, huorder⟩ := hu
  exact ⟨⟨effect_setupInv c husetup, effect_queueInv c huqueue⟩, effect_orderInv c husetup huqueue huorder⟩

/-! ### Line Stop Request (R119) -/

theorem effect_lineStop {c : Instr} (hc : clearsStop c = false) {s : State} (h : s.jr.lineStop = true) :
    (effect c s).jr.lineStop = true :=
  (effect_judge hc s).lineStop h

/-- Settles O40: Line Stop Request stands through every row that is not one of the three, and through the expiries of a
millisecond. -/
theorem lineStopHolds : Obligations.LineStopHolds := by
  unfold Obligations.LineStopHolds
  refine ⟨fun c s t halarms hfull hpower hs h => ?_, fun s t hp hs h => ?_⟩
  · obtain rfl := exec_eq_next h
    refine effect_lineStop ?_ hs
    cases c <;> try rfl
    case powerOn straps => exact absurd rfl (hpower straps)
    case clearAlarms => exact absurd rfl halarms
    case resetFull => exact absurd rfl hfull
  · obtain ⟨_, rfl⟩ | ⟨c, rest, hcons, _⟩ := step_cases h
    · refine millisecond_keeps (P := fun u => u.jr.lineStop = true) hs (fun c t hc ht => effect_lineStop ?_ ht)
        (fun _ _ _ _ h => h) (fun _ _ _ _ h => h) (fun _ _ _ _ h => h) (fun _ _ _ _ h => h) (fun _ _ _ _ h => h)
      cases c <;> try rfl
      all_goals cases hc
    · exact absurd (hp.symm.trans hcons) (List.cons_ne_nil _ _).symm

end Sys2Proof.Machine
end

section
/-!
PROOFS, the queue of commands and the Frame Path: the front command, reception, classification, the egress arbiter and the links
(01_line_frames_and_forwarding.md).
-/

namespace Sys2Proof.Machine

/-! ### The front command -/

/-- Settles O1: a step takes the command at the front of the queue. -/
theorem stepRunsFrontCommand : Obligations.StepRunsFrontCommand :=
  fun _ _ _ => rfl

theorem pending_not_touched (c : Instr) : Block.pending ∉ touches c := by
  cases c <;> simp [touches, kindOf, eventTouches, CommandKind.touches]

/-- Settles O2: the next state of a command is its effect, and no row touches the queue of commands. -/
theorem everyCommandAnswers : Obligations.EveryCommandAnswers :=
  fun c s => ⟨effect c s, exec_eq_effect c s, (effect_only c s) .pending (pending_not_touched c)⟩

/-! ### Reception (R1) -/

theorem FramePath.setPort_port (fp : FramePath) (p : Port) : fp.setPort p (fp.port p) = fp := by
  cases p <;> rfl

theorem State.onPort_of_eq {s : State} {p : Port} {f : PortState → PortState} (h : f (s.fp.port p) = s.fp.port p) :
    s.onPort p f = s := by
  unfold State.onPort
  rw [h, FramePath.setPort_port]
  rfl

theorem FramePath.setPort_setPort (fp : FramePath) (p : Port) (ps qs : PortState) :
    (fp.setPort p ps).setPort p qs = fp.setPort p qs := by
  cases p <;> rfl

/-- Two changes of one port in turn are one change of it. -/
theorem State.onPort_onPort (s : State) (p : Port) (f g : PortState → PortState) :
    (s.onPort p f).onPort p g = s.onPort p fun ps => g (f ps) := by
  unfold State.onPort
  simp only [State.withFp_fp, FramePath.port_setPort, FramePath.setPort_setPort]
  rfl

theorem received_eq (s : State) (p : Port) : s.withFp (s.fp.countPort p .addReceived) = s.received p := rfl

/-- A counter of a port is a change of that port. -/
theorem State.withFp_countPort (s : State) (p : Port) (f : PortCounters → PortCounters) :
    s.withFp (s.fp.countPort p f) = s.onPort p fun ps => { ps with counters := f ps.counters } := rfl

theorem lengthOk_iff (frame : Frame) : lengthOk frame = true ↔ 64 ≤ frame.length ∧ frame.length ≤ 1518 :=
  decide_eq_true_iff

/-- A frame that passes the checks of R1 is counted and classified. -/
theorem exec_frameReceived_of_accepts {s : State} {p : Port} {frame : Frame} (h : s.accepts p frame) :
    exec (.frameReceived p true frame) s = .next (acceptFrame p frame (s.received p)) := by
  obtain ⟨hup, hfcs, hlength⟩ := h
  rw [exec_eq_effect, effect_frameReceived, if_pos hup]
  unfold receiveFrame
  rw [received_eq]
  simp only [hfcs, (lengthOk_iff frame).mpr hlength]
  rfl

/-- Settles O6: the two checks of R1 in turn. -/
theorem discardedFramesOnlyCounted : Obligations.DiscardedFramesOnlyCounted := by
  intro s p whole frame
  refine ⟨fun hdown => ?_, fun hup hbad => ?_, fun hup hwhole hfcs hlength => ?_⟩
  · rw [exec_eq_effect, effect_frameReceived, if_neg (by simp [hdown])]
  · have hfails : (!(whole && fcsOk frame)) = true := by
      rcases hbad with h | h <;> simp [h]
    rw [exec_eq_effect, effect_frameReceived, if_pos hup]
    unfold receiveFrame
    rw [received_eq]
    dsimp only
    rw [if_pos hfails, State.withFp_countPort, State.received, State.onPort_onPort]
    rfl
  · have hpasses : (!(whole && fcsOk frame)) = false := by simp [hwhole, hfcs]
    have hlong : lengthOk frame = false := by
      rw [Bool.eq_false_iff, ne_eq, lengthOk_iff]
      omega
    rw [exec_eq_effect, effect_frameReceived, if_pos hup]
    unfold receiveFrame
    rw [received_eq]
    dsimp only
    rw [hpasses, hlong, if_neg Bool.false_ne_true, if_pos (by rfl), State.withFp_countPort, State.received, State.onPort_onPort]
    rfl

section Received

variable (s : State) (p : Port)

@[simp] theorem State.received_station : (s.received p).fp.station = s.fp.station := FramePath.setPort_station ..
@[simp] theorem State.received_channels : (s.received p).fp.channels = s.fp.channels := FramePath.setPort_channels ..
@[simp] theorem State.received_malformed : (s.received p).fp.malformed = s.fp.malformed := FramePath.setPort_malformed ..
@[simp] theorem State.received_handed : (s.received p).fp.handed = s.fp.handed := FramePath.setPort_handed ..
@[simp] theorem State.received_held : (s.received p).fp.held = s.fp.held := FramePath.setPort_held ..
@[simp] theorem State.received_seqFlow : (s.received p).fp.seqFlow = s.fp.seqFlow := FramePath.setPort_seqFlow ..
@[simp] theorem State.received_holdTimer : (s.received p).fp.holdTimer = s.fp.holdTimer := FramePath.setPort_holdTimer ..
@[simp] theorem State.received_holdStanding : (s.received p).fp.holdStanding = s.fp.holdStanding :=
  FramePath.setPort_holdStanding ..
@[simp] theorem State.received_ma : (s.received p).ma = s.ma := rfl
@[simp] theorem State.received_te : (s.received p).te = s.te := rfl
@[simp] theorem State.received_pu : (s.received p).pu = s.pu := rfl

theorem State.received_port : (s.received p).fp.port p = { s.fp.port p with
    counters := { (s.fp.port p).counters with received := tally (s.fp.port p).counters.received 1 } } :=
  FramePath.port_setPort ..

theorem State.received_port_other : (s.received p).fp.port (otherPort p) = s.fp.port (otherPort p) :=
  FramePath.port_setPort_other ..

end Received

/-! ### Forwarding (R2) -/

theorem forwardFrame_eq (p : Port) (frame : Frame) (s : State) : forwardFrame p frame s = s.forwardedTo p frame := by
  unfold forwardFrame FramePath.forward State.forwardedTo State.onPort
  by_cases h : (s.fp.port (otherPort p)).linkUp = true ∧ (s.fp.port (otherPort p)).forward.length < 16
  · have haccepts : (s.fp.port (otherPort p)).accepts .forward = true := (PortState.accepts_iff ..).mpr h
    simp only [haccepts, h, and_self, if_true]
  · have hrefuses : ¬ (s.fp.port (otherPort p)).accepts .forward = true := mt (PortState.accepts_iff ..).mp h
    simp only [hrefuses, h, if_false]
    rfl

theorem lineFrame_port {p : Port} {frame : Frame} {c : Copy} (h : lineFrame p frame = some c) : c.port = p := by
  unfold lineFrame at h
  dsimp only at h
  split at h
  · exact (Option.some.inj h) ▸ rfl
  · cases h

theorem lineFrame_eq_none {p : Port} {frame : Frame} (h : ¬ (fieldAt frame 12 2 = 0xB6E2 ∧ 26 ≤ frame.length ∧
    byteAt frame 14 = 1 ∧ fieldAt frame 20 2 ≤ 1490 ∧ fieldAt frame 20 2 + 26 ≤ frame.length)) : lineFrame p frame = none :=
  if_neg h

theorem matchEntry_eq_none {table : Vector ChannelEntry 32} {c : Copy} (h : ∀ i : Fin 32, entryMatches table[i] c = false) :
    matchEntry table c = none := by
  refine List.find?_eq_none.mpr fun e he => ?_
  obtain ⟨i, hi, rfl⟩ := Vector.mem_iff_getElem.mp (Vector.mem_toList_iff.mp he)
  exact Bool.eq_false_iff.mp (h ⟨i, hi⟩)

/-- The one entry of the Channel Table that matches (R6, R8). -/
theorem matchEntry_eq_some {table : Vector ChannelEntry 32} {c : Copy} {i : Fin 32} (hi : entryMatches table[i] c = true)
    (hone : ∀ j : Fin 32, entryMatches table[j] c = true → j = i) : matchEntry table c = some table[i] := by
  unfold matchEntry
  cases hfind : table.toList.find? (fun e => entryMatches e c) with
  | none =>
    have hmem : table[i] ∈ table.toList := Vector.mem_toList_iff.mpr (Vector.getElem_mem i.isLt)
    exact absurd hi (List.find?_eq_none.mp hfind _ hmem)
  | some e =>
    obtain ⟨k, hk, hget⟩ := Vector.mem_iff_getElem.mp (Vector.mem_toList_iff.mp (List.mem_of_find?_eq_some hfind))
    have hmatch : entryMatches table[(⟨k, hk⟩ : Fin 32)] c = true := by
      have := List.find?_some hfind
      rwa [← hget] at this
    rw [← hone _ hmatch, ← hget]
    rfl

section Classified

variable {s : State} {p : Port} {frame : Frame} {c : Copy}

theorem acceptFrame_of_lineFrame (h : lineFrame p frame = some c) : acceptFrame p frame s = classifyFrame c frame s := by
  unfold acceptFrame
  rw [h]

theorem classifyFrame_station (hown : c.source ≠ s.fp.station) (h : c.channel.toNat < 240) :
    classifyFrame c frame s = stationFrame c frame s := by
  unfold classifyFrame
  rw [if_neg hown, if_pos (by exact h)]

theorem classifyFrame_mgmt (hown : c.source ≠ s.fp.station) (h : c.channel.toNat = 240) :
    classifyFrame c frame s = mgmtFrame c frame s := by
  unfold classifyFrame
  rw [if_neg hown, if_neg (by rw [h]; decide), if_pos (by exact h)]

theorem classifyFrame_flow (hown : c.source ≠ s.fp.station) (h : c.channel.toNat = 241) :
    classifyFrame c frame s = flowFrame c frame s := by
  unfold classifyFrame
  rw [if_neg hown, if_neg (by rw [h]; decide), if_neg (by rw [h]; decide), if_pos (by exact h)]

end Classified

/-- Settles O7: what is no line frame is forwarded, and so is a line frame that no block of the device takes. -/
theorem framesForwardedUntouched : Obligations.FramesForwardedUntouched := by
  intro s p frame haccepts hcase
  rw [exec_frameReceived_of_accepts haccepts, ← forwardFrame_eq]
  congr 1
  rcases hcase with hnone | ⟨c, hline, hcase⟩
  · unfold acceptFrame
    rw [lineFrame_eq_none hnone]
  · have hport := lineFrame_port hline
    rw [acceptFrame_of_lineFrame hline, ← hport]
    by_cases hown : c.source = (s.received p).fp.station
    · unfold classifyFrame
      rw [hport, if_pos hown]
    · rcases hcase with hsource | ⟨hchannel, hmatch⟩ | ⟨hchannel, hdest, hbroadcast⟩ | ⟨hchannel, hdest⟩
      · exact absurd (hsource.trans (s.received_station p).symm) hown
      · rw [hport, classifyFrame_station hown hchannel]
        unfold stationFrame
        rw [State.received_channels, matchEntry_eq_none hmatch, hport]
      · rw [hport, classifyFrame_mgmt hown hchannel]
        unfold mgmtFrame
        rw [State.received_station, if_neg hdest, if_neg (fun h => hbroadcast.elim (· h.1) (· h.2)), hport]
      · rw [hport, classifyFrame_flow hown hchannel]
        unfold flowFrame
        rw [State.received_station, if_neg hdest, hport]

/-! ### Flow frames (R17) -/

/-- Settles O10: R17 case by case, and the expiry of the Hold timer. -/
theorem flowFramesObeyed : Obligations.FlowFramesObeyed := by
  refine ⟨fun s p frame c haccepts hline hsource hchannel hdest => ?_, fun s n hn => ?_⟩
  · have htaken : exec (.frameReceived p true frame) s = .next (takeFlow c (s.received p)) := by
      rw [exec_frameReceived_of_accepts haccepts, acceptFrame_of_lineFrame hline,
        classifyFrame_flow (by rwa [State.received_station]) hchannel]
      unfold flowFrame
      rw [State.received_station, if_pos hdest]
    rw [htaken]
    unfold takeFlow
    refine ⟨fun hset hfrom hkind => ?_, fun hset hfrom hkind => ?_, fun hother => ?_⟩
    · rw [if_pos ⟨hset, hfrom⟩, hkind]
      rfl
    · rw [if_pos ⟨hset, hfrom⟩, hkind]
      rfl
    · congr 1
      split
      · next hobeyed =>
        rcases hother with hother | ⟨hhold, hrelease⟩
        · exact absurd hobeyed.2 hother
        · split
          · next kind hkind =>
            rw [if_neg (fun h => hhold (by rw [hkind, h])), if_neg (fun h => hrelease (by rw [hkind, h]))]
          · rfl
      · rfl
  · rw [exec_eq_effect, effect_holdExpiry, hn]
    rfl

/-! ### The egress arbiter (R13) -/

theorem firstClass_eq {ps : PortState} {above below : List EgressClass} {cls : EgressClass}
    (horder : above ++ cls :: below = [.reject, .forward, .printTag, .reply, .status, .capture])
    (habove : ∀ k ∈ above, ps.queue k = []) (hcls : ps.queue cls ≠ []) : ps.firstClass = some cls := by
  have hempty : above.find? (fun k => !(ps.queue k).isEmpty) = none :=
    List.find?_eq_none.mpr fun k hk => by simp [habove k hk]
  unfold PortState.firstClass egressOrder
  rw [← horder, List.find?_append, hempty, Option.none_or, List.find?_cons_of_pos (by simpa using hcls)]

theorem PortState.start_of_first {ps : PortState} {cls : EgressClass} {frame : Frame} {rest : List Frame}
    (hup : ps.linkUp = true) (hidle : ps.transmitting = none) (hfirst : ps.firstClass = some cls)
    (hqueue : ps.queue cls = frame :: rest) : ps.start = { ps.setQueue cls rest with transmitting := some (cls, frame) } := by
  unfold PortState.start
  simp only [hup, hidle, hfirst, hqueue, Option.isNone_none, Bool.and_self, if_true]

theorem PortState.start_of_none {ps : PortState}
    (h : ps.linkUp = false ∨ ps.transmitting ≠ none ∨ ∀ k, ps.queue k = []) : ps.start = ps := by
  unfold PortState.start
  split
  · next hready =>
    obtain ⟨hup, hidle⟩ := Bool.and_eq_true_iff.mp hready
    rcases h with h | h | h
    · rw [hup] at h
      cases h
    · exact absurd (Option.isNone_iff_eq_none.mp hidle) h
    · have hfirst : ps.firstClass = none := List.find?_eq_none.mpr fun k _ => by simp [h k]
      rw [hfirst]
  · rfl

theorem exec_egressStart_eq (s : State) (p : Port) : exec (.egressStart p) s = .next (s.onPort p PortState.start) := rfl

theorem exec_transmitComplete_eq (s : State) (p : Port) :
    exec (.transmitComplete p) s = .next (s.onPort p PortState.complete) := rfl

theorem State.onPort_congr {s : State} {p : Port} {f g : PortState → PortState} (h : f (s.fp.port p) = g (s.fp.port p)) :
    s.onPort p f = s.onPort p g := by
  unfold State.onPort
  rw [h]

theorem PortState.complete_of_sending {ps : PortState} {cls : EgressClass} {frame : Frame}
    (h : ps.transmitting = some (cls, frame)) : ps.complete = { ps with
      transmitting := none
      counters := { ps.counters with
        forwarded := if cls = .forward then tally ps.counters.forwarded 1 else ps.counters.forwarded
        inserted := if cls = .forward then ps.counters.inserted else tally ps.counters.inserted 1 } } := by
  unfold PortState.complete
  rw [h]
  by_cases hcls : cls = .forward <;> simp [PortCounters.addSent, hcls]

/-- Settles O11: the arbiter's choice, its idle cases, and the end of a transmission. -/
theorem egressArbitration : Obligations.EgressArbitration := by
  refine ⟨fun s p above below cls frame rest horder hup hidle habove hqueue => ?_, fun s p hnone => ?_,
    fun s p cls frame hsending => ?_, fun s p hidle => ?_⟩
  · rw [exec_egressStart_eq]
    have hfirst := firstClass_eq horder habove (by rw [hqueue]; exact List.cons_ne_nil _ _)
    exact congrArg _ (State.onPort_congr (PortState.start_of_first hup hidle hfirst hqueue))
  · rw [exec_egressStart_eq, State.onPort_of_eq (PortState.start_of_none hnone)]
  · rw [exec_transmitComplete_eq]
    exact congrArg _ (State.onPort_congr (PortState.complete_of_sending hsending))
  · rw [exec_transmitComplete_eq, State.onPort_of_eq]
    unfold PortState.complete
    rw [hidle]

/-! ### Links (R15) -/

theorem optional_length {α : Type} [DecidableEq α] (o : Option α) : o.toList.length = if o = none then 0 else 1 := by
  cases o <;> rfl

/-- Settles O12: the loss of a link, with or without a frame that it cuts short, and its return. -/
theorem linkChanges : Obligations.LinkChanges := by
  refine ⟨fun s p arriving hup => ?_, fun s p arriving hdown => ?_, fun s p => rfl⟩
  · rw [exec_eq_effect, effect_linkDown]
    unfold linkLost cutFrame
    rw [if_pos hup]
    congr 1
    cases arriving
    · refine State.onPort_congr (f := PortState.lose) ?_
      simp [PortState.lose, PortState.countDropped, PortState.held, optional_length]
    · rw [if_pos rfl, State.withFp_countPort]
      refine (State.onPort_onPort s p _ PortState.lose).trans (State.onPort_congr ?_)
      simp [PortState.lose, PortState.countDropped, PortState.held, optional_length, PortCounters.addReceived,
        PortCounters.addBadFcs]
  · rw [exec_eq_effect, effect_linkDown]
    unfold linkLost
    rw [if_neg (by simp [hdown])]

end Sys2Proof.Machine
end

section
/-!
PROOFS, the frames that reach a block of the device: station frames and their malformed counters, and the intake of management
frames with its HOLD (sections 1.5 and 1.8).
-/

namespace Sys2Proof.Machine

/-! ### Station frames (R8, R9) -/

theorem malformedFor_eq_false_iff (role : Role) (payload : List Byte) :
    malformedFor role payload = false ↔ wellFormedFor role payload := by
  cases role <;> simp only [malformedFor, wellFormedFor, Bool.or_eq_false_iff, decide_eq_false_iff_not, not_lt] <;> omega

theorem malformedFor_eq_true_iff (role : Role) (payload : List Byte) :
    malformedFor role payload = true ↔ ¬ wellFormedFor role payload := by
  rw [← malformedFor_eq_false_iff, Bool.not_eq_false]

theorem malformedIndex_roleOfCode {b : Byte} (h : roleOfCode b ≠ .none) : (malformedIndex (roleOfCode b)).val + 1 = b.toNat := by
  unfold roleOfCode at h ⊢
  split <;> simp_all [malformedIndex]

theorem role_of_entryMatches {e : ChannelEntry} {c : Copy} (h : entryMatches e c = true) : roleOfCode e.role ≠ .none := by
  simp only [entryMatches, Bool.and_eq_true, bne_iff_ne] at h
  exact h.1.1.1

theorem countMalformed_eq {s : State} {b : Byte} (hb : roleOfCode b ≠ .none) {malformed : Vector Counter 7}
    (h : ∀ j : Fin 7, malformed[j] = if j.val + 1 = b.toNat then tally s.fp.malformed[j] 1 else s.fp.malformed[j]) :
    countMalformed (roleOfCode b) s = s.withFp { s.fp with malformed := malformed } := by
  have hindex := malformedIndex_roleOfCode hb
  have hset : s.fp.malformed.set (malformedIndex (roleOfCode b)).val (tally s.fp.malformed[malformedIndex (roleOfCode b)] 1)
      (malformedIndex (roleOfCode b)).isLt = malformed := by
    refine Vector.ext fun j hj => ?_
    have hj' := h ⟨j, hj⟩
    simp only [Fin.getElem_fin] at hj'
    rw [hj', Vector.getElem_set]
    by_cases heq : (malformedIndex (roleOfCode b)).val = j
    · rw [if_pos heq, if_pos (by omega)]
      simp [heq]
    · rw [if_neg heq, if_neg (by omega)]
  unfold countMalformed
  dsimp only
  rw [hset]

theorem rewriteDose_of_idle {s : State} (payload : List Byte) (frame : Frame) (h : s.te.mode = .off ∨ s.pu.active = none) :
    rewriteDose payload frame s = (s, frame) := by
  unfold rewriteDose
  rcases h with h | h
  · simp [h]
  · cases s.te.mode <;> simp [State.activeProduct, h]

/-- Settles O8: the three ways of a frame that matches one entry. -/
theorem stationFramesHandedOver : Obligations.StationFramesHandedOver := by
  intro s p frame c i haccepts hline hsource hchannel hmatch hone
  have hport := lineFrame_port hline
  have hrole := role_of_entryMatches hmatch
  have hmatched : exec (.frameReceived p true frame) s =
      .next (matchedFrame s.fp.channels[i] c frame (s.received p)) := by
    rw [exec_frameReceived_of_accepts haccepts, acceptFrame_of_lineFrame hline,
      classifyFrame_station (by rwa [State.received_station]) hchannel]
    unfold stationFrame
    rw [State.received_channels, matchEntry_eq_some hmatch hone]
  rw [hmatched]
  unfold matchedFrame
  dsimp only
  refine ⟨fun t hwell hdose ht => ?_, fun t malformed hill hcounts ht => ?_, fun hwell hdose hidle => ?_⟩
  · rw [if_neg (by rw [(malformedFor_eq_false_iff _ _).mpr hwell]; exact Bool.false_ne_true), if_neg hdose, hport]
    have hhanded : handCopy (roleOfCode s.fp.channels[i].role) c (s.received p) = t := by
      rw [ht]
      unfold handCopy
      rw [State.received_handed]
    rw [hhanded]
    unfold forwardUnless
    simp only [beq_iff_eq, forwardFrame_eq]
  · have hcounted : countMalformed (roleOfCode s.fp.channels[i].role) (s.received p) = t := by
      rw [ht]
      exact countMalformed_eq hrole (by simpa using hcounts)
    rw [if_pos ((malformedFor_eq_true_iff _ _).mpr hill), hcounted, hport]
    unfold forwardUnless
    simp only [Bool.and_eq_true, beq_iff_eq, bne_iff_ne, forwardFrame_eq, and_comm]
  · rw [if_neg (by rw [hdose, (malformedFor_eq_false_iff _ _).mpr hwell]; exact Bool.false_ne_true), if_pos hdose, hport,
      rewriteDose_of_idle (s := s.received p) _ _ hidle, forwardFrame_eq]

/-! ### Flow frames offered (R11, R14, R18) -/

theorem offerFlow_joins {fp : FramePath} {p : Port} (kind station : Byte) (hup : (fp.port p).linkUp = true)
    (hroom : (fp.port p).reply.length < 4) : fp.offerFlow kind station p =
      { fp.setPort p { fp.port p with
          reply := (fp.port p).reply ++ [insertedFrame fp.station station 241 fp.seqFlow [kind]] } with
        seqFlow := fp.seqFlow + 1 } := by
  unfold FramePath.offerFlow FramePath.offer
  rw [if_pos ((PortState.accepts_iff _ .reply).mpr ⟨hup, hroom⟩)]
  cases p <;> rfl

theorem offerFlow_drops {fp : FramePath} {p : Port} (kind station : Byte)
    (h : (fp.port p).linkUp = false ∨ 4 ≤ (fp.port p).reply.length) :
    fp.offerFlow kind station p = fp.setPort p ((fp.port p).countDropped 1) := by
  unfold FramePath.offerFlow FramePath.offer
  have hrefused : ¬ (fp.port p).accepts .reply = true := fun haccepts => by
    obtain ⟨hup, hroom⟩ := (PortState.accepts_iff _ _).mp haccepts
    rcases h with h | h
    · rw [hup] at h
      cases h
    · exact absurd h (not_le.mpr hroom)
  rw [if_neg hrefused, if_neg (by decide)]

/-- What the intake of a management frame leaves of the Frame Path: HOLD frames join the REPLY queue of the arrival port and no
other queue but STATUS changes (R18). -/
structure FramePath.Intakes (fp gp : FramePath) (p : Port) : Prop where
  linkUp : ∀ q, (gp.port q).linkUp = (fp.port q).linkUp
  forward : ∀ q, (gp.port q).forward = (fp.port q).forward
  handed : gp.handed = fp.handed
  channels : gp.channels = fp.channels
  holdTimer : gp.holdTimer = fp.holdTimer
  holdStanding : gp.holdStanding = fp.holdStanding

theorem FramePath.Grows.intakes {fp gp : FramePath} (h : fp.Grows [] gp) (p : Port) : fp.Intakes gp p :=
  ⟨fun q => (h.port q).linkUp, fun q => (h.port q).queue .forward (by simp) (by decide), h.handed, h.channels, h.holdTimer,
    h.holdStanding⟩

theorem offerFlow_intakes (fp : FramePath) (kind station : Byte) (p : Port) : fp.Intakes (fp.offerFlow kind station p) p := by
  have hput (ps : PortState) (n : Byte) (hlink : ps.linkUp = (fp.port p).linkUp) (hforward : ps.forward = (fp.port p).forward) : fp.Intakes { fp.setPort p ps with seqFlow := n } p := by
    have hport (q : Port) : FramePath.port { fp.setPort p ps with seqFlow := n } q = (fp.setPort p ps).port q := by
      cases q <;> rfl
    constructor
    case linkUp | forward =>
      intro q
      rw [hport]
      by_cases hq : q = p
      · subst hq
        rw [FramePath.port_setPort]
        assumption
      · rw [FramePath.port_setPort_ne _ _ hq]
    all_goals simp
  by_cases h : (fp.port p).linkUp = true ∧ (fp.port p).reply.length < 4
  · rw [offerFlow_joins kind station h.1 h.2]
    exact hput { fp.port p with reply := _ } _ rfl rfl
  · have hdrop : (fp.port p).linkUp = false ∨ 4 ≤ (fp.port p).reply.length := by
      by_cases hup : (fp.port p).linkUp = true
      · exact .inr (not_lt.mp fun hroom => h ⟨hup, hroom⟩)
      · exact .inl (Bool.eq_false_iff.mpr hup)
    rw [offerFlow_drops kind station hdrop]
    exact hput ((fp.port p).countDropped 1) (fp.setPort p ((fp.port p).countDropped 1)).seqFlow rfl rfl

/-! ### The intake (R18, R182) -/

theorem joinIntake_grows (c : Copy) (s : State) : s.fp.Grows [] (joinIntake c s).fp := by
  unfold joinIntake
  split
  · exact .refl _ _
  · exact Tells.grows (Tells.report_ma (.refl s) rfl)

theorem joinIntake_ma_of_room {c : Copy} {s : State} (h : s.ma.fifo.length < 8) :
    (joinIntake c s).ma = { s.ma with fifo := s.ma.fifo ++ [c] } := by
  unfold joinIntake
  rw [if_pos (by exact h)]

theorem joinIntake_ma_of_full {c : Copy} {s : State} (h : 8 ≤ s.ma.fifo.length) : (joinIntake c s).ma = { s.ma with
    overrun := true, counters := { s.ma.counters with overruns := tally s.ma.counters.overruns 1 } } := by
  unfold joinIntake
  rw [if_neg (by exact not_lt.mpr h), report_ma]

theorem isHeld_eq_false_iff (fp : FramePath) (station : Byte) :
    fp.isHeld station = false ↔ station ∉ fp.held.map Prod.fst := by
  simp only [FramePath.isHeld, List.any_eq_false, beq_iff_eq, List.mem_map, not_exists, not_and]

theorem holdArrival_ma (c : Copy) (s : State) : (holdArrival c s).ma = s.ma := by
  unfold holdArrival
  split <;> rfl

theorem holdArrival_of_held {c : Copy} {s : State}
    (h : 6 ≤ s.ma.fifo.length ∧ c.source ∉ s.fp.held.map Prod.fst ∧ s.fp.held.length < 8) : holdArrival c s =
      s.withFp (({ s.fp with held := s.fp.held ++ [(c.source, c.port)] } : FramePath).offerFlow 1 c.source c.port) := by
  unfold holdArrival
  rw [if_pos ⟨h.1, (isHeld_eq_false_iff _ _).mpr h.2.1, h.2.2⟩]

theorem holdArrival_of_not_held {c : Copy} {s : State}
    (h : ¬ (6 ≤ s.ma.fifo.length ∧ c.source ∉ s.fp.held.map Prod.fst ∧ s.fp.held.length < 8)) : holdArrival c s = s := by
  unfold holdArrival
  rw [if_neg fun hheld => h ⟨hheld.1, (isHeld_eq_false_iff _ _).mp hheld.2.1, hheld.2.2⟩]

theorem holdArrival_intakes (c : Copy) (s : State) : s.fp.Intakes (holdArrival c s).fp c.port := by
  unfold holdArrival
  split
  · have hlinks := offerFlow_intakes { s.fp with held := s.fp.held ++ [(c.source, c.port)] } 1 c.source c.port
    have hport (q : Port) : FramePath.port { s.fp with held := s.fp.held ++ [(c.source, c.port)] } q = s.fp.port q := by
      cases q <;> rfl
    exact ⟨fun q => (hlinks.linkUp q).trans (by rw [hport]), fun q => (hlinks.forward q).trans (by rw [hport]), hlinks.handed,
      hlinks.channels, hlinks.holdTimer, hlinks.holdStanding⟩
  · exact (FramePath.Grows.refl [] s.fp).intakes c.port

/-- A management frame handled by the device: the intake alone, and after it the broadcast is forwarded. -/
theorem mgmtFrame_taken {c : Copy} {frame : Frame} {s : State}
    (h : c.dest = s.fp.station ∨ (c.dest.toNat = 254 ∧ c.payload.head? = some 1)) : mgmtFrame c frame s =
      if c.dest = s.fp.station then offerIntake c s else (offerIntake c s).forwardedTo c.port frame := by
  unfold mgmtFrame
  by_cases hdest : c.dest = s.fp.station
  · rw [if_pos hdest, if_pos hdest]
  · rw [if_neg hdest, if_neg hdest, if_pos (by exact h.resolve_left hdest), forwardFrame_eq]

/-- What the intake of a management frame makes of Agent, held stations and arrival port (R18, R182). -/
structure State.TakesIn (s t : State) (c : Copy) : Prop where
  only : OnlyChanges [.fp, .ma] s t
  joined : s.ma.fifo.length < 8 → t.ma = { s.ma with fifo := s.ma.fifo ++ [c] }
  overrun : 8 ≤ s.ma.fifo.length → t.ma = { s.ma with
    overrun := true, counters := { s.ma.counters with overruns := tally s.ma.counters.overruns 1 } }
  held : 6 ≤ t.ma.fifo.length ∧ c.source ∉ s.fp.held.map Prod.fst ∧ s.fp.held.length < 8 →
    t.fp.held = s.fp.held ++ [(c.source, c.port)] ∧
    ((s.fp.port c.port).reply.length < 4 →
      (t.fp.port c.port).reply =
        (s.fp.port c.port).reply ++ [insertedFrame s.fp.station c.source 241 s.fp.seqFlow [1]] ∧
      t.fp.seqFlow = s.fp.seqFlow + 1) ∧
    (4 ≤ (s.fp.port c.port).reply.length →
      (t.fp.port c.port).reply = (s.fp.port c.port).reply ∧ t.fp.seqFlow = s.fp.seqFlow)
  notHeld : ¬ (6 ≤ t.ma.fifo.length ∧ c.source ∉ s.fp.held.map Prod.fst ∧ s.fp.held.length < 8) →
    t.fp.held = s.fp.held ∧ (t.fp.port c.port).reply = (s.fp.port c.port).reply ∧ t.fp.seqFlow = s.fp.seqFlow
  rest : s.fp.Intakes t.fp c.port

theorem FramePath.Intakes.trans {fp gp hp : FramePath} {p : Port} (h : fp.Intakes gp p) (k : gp.Intakes hp p) :
    fp.Intakes hp p :=
  ⟨fun q => (k.linkUp q).trans (h.linkUp q), fun q => (k.forward q).trans (h.forward q), k.handed.trans h.handed,
    k.channels.trans h.channels, k.holdTimer.trans h.holdTimer, k.holdStanding.trans h.holdStanding⟩

/-- The HOLD of a station that joins the held stations (R18). -/
theorem holdArrival_held {c : Copy} {s : State} (hup : (s.fp.port c.port).linkUp = true)
    (h : 6 ≤ s.ma.fifo.length ∧ c.source ∉ s.fp.held.map Prod.fst ∧ s.fp.held.length < 8) :
    (holdArrival c s).fp.held = s.fp.held ++ [(c.source, c.port)] ∧
    ((s.fp.port c.port).reply.length < 4 →
      ((holdArrival c s).fp.port c.port).reply =
        (s.fp.port c.port).reply ++ [insertedFrame s.fp.station c.source 241 s.fp.seqFlow [1]] ∧
      (holdArrival c s).fp.seqFlow = s.fp.seqFlow + 1) ∧
    (4 ≤ (s.fp.port c.port).reply.length →
      ((holdArrival c s).fp.port c.port).reply = (s.fp.port c.port).reply ∧ (holdArrival c s).fp.seqFlow = s.fp.seqFlow) := by
  rw [holdArrival_of_held h, State.withFp_fp]
  have hport (l : List (Byte × Port)) (q : Port) : FramePath.port { s.fp with held := l } q = s.fp.port q := by
    cases q <;> rfl
  have hnumber (fp : FramePath) (n : Byte) (q : Port) : FramePath.port { fp with seqFlow := n } q = fp.port q := by
    cases q <;> rfl
  by_cases hroom : (s.fp.port c.port).reply.length < 4
  · rw [offerFlow_joins _ _ (by rwa [hport]) (by rwa [hport])]
    refine ⟨FramePath.setPort_held .., fun _ => ⟨?_, rfl⟩, fun hfull => absurd hroom (not_lt.mpr hfull)⟩
    rw [hnumber, FramePath.port_setPort, hport]
  · rw [offerFlow_drops _ _ (.inr (by rw [hport]; exact not_lt.mp hroom))]
    refine ⟨FramePath.setPort_held .., fun hfree => absurd hfree hroom, fun _ => ⟨?_, FramePath.setPort_seqFlow ..⟩⟩
    rw [FramePath.port_setPort, hport]
    rfl

theorem offerIntake_takesIn {c : Copy} {s : State} (hup : (s.fp.port c.port).linkUp = true) :
    s.TakesIn (offerIntake c s) c := by
  have hgrows := joinIntake_grows c s
  have hreply : ((joinIntake c s).fp.port c.port).reply = (s.fp.port c.port).reply :=
    (hgrows.port c.port).queue .reply (by simp) (by decide)
  have hma : (offerIntake c s).ma = (joinIntake c s).ma := holdArrival_ma ..
  have hintakes := (hgrows.intakes c.port).trans (holdArrival_intakes c (joinIntake c s))
  constructor
  case only => exact (joinIntake_only c s).andThen (holdArrival_only c (joinIntake c s)) (by decide)
  case joined => exact fun h => hma.trans (joinIntake_ma_of_room h)
  case overrun => exact fun h => hma.trans (joinIntake_ma_of_full h)
  case held =>
    rw [hma, ← hgrows.held, ← hgrows.seqFlow, ← hgrows.station, ← hreply]
    exact holdArrival_held (by rwa [(hgrows.port c.port).linkUp])
  case notHeld =>
    rw [hma, ← hgrows.held, ← hgrows.seqFlow, ← hreply]
    intro h
    unfold offerIntake
    rw [holdArrival_of_not_held h]
    exact ⟨rfl, rfl, rfl⟩
  case rest => exact hintakes

/-- Settles O9: the intake of a management frame, and the forwarding of the broadcast. -/
theorem managementFramesTaken : Obligations.ManagementFramesTaken := by
  intro s p frame c haccepts hline hsource hchannel hfor
  obtain rfl := lineFrame_port hline
  have htaken : exec (.frameReceived c.port true frame) s =
      .next (if c.dest = s.fp.station then offerIntake c (s.received c.port)
        else (offerIntake c (s.received c.port)).forwardedTo c.port frame) := by
    rw [exec_frameReceived_of_accepts haccepts, acceptFrame_of_lineFrame hline,
      classifyFrame_mgmt (by rwa [State.received_station]) hchannel, mgmtFrame_taken (by rwa [State.received_station]),
      State.received_station]
  have hup : ((s.received c.port).fp.port c.port).linkUp = true := by
    rw [State.received_port]
    exact haccepts.1
  have hport : ((s.received c.port).fp.port c.port).reply = (s.fp.port c.port).reply := by
    rw [State.received_port]
  obtain ⟨honly, hjoined, hoverrun, hheld, hnotHeld, hrest⟩ := offerIntake_takesIn hup
  simp only [State.received_ma, State.received_held, State.received_seqFlow, State.received_station, hport]
    at hjoined hoverrun hheld hnotHeld
  have hfirst : OnlyChanges [.fp, .ma] s (s.received c.port) := (OnlyChanges.refl _ s).put_fp _ (by decide)
  have hforward := (hrest.forward (otherPort c.port)).trans (congrArg PortState.forward (State.received_port_other s c.port))
  have hlink := (hrest.linkUp (otherPort c.port)).trans (congrArg PortState.linkUp (State.received_port_other s c.port))
  have hhanded := hrest.handed.trans (State.received_handed ..)
  have hchannels := hrest.channels.trans (State.received_channels ..)
  have hholdTimer := hrest.holdTimer.trans (State.received_holdTimer ..)
  have hholdStanding := hrest.holdStanding.trans (State.received_holdStanding ..)
  generalize offerIntake c (s.received c.port) = t at *
  refine ⟨_, htaken, ?_⟩
  by_cases hdest : c.dest = s.fp.station
  · rw [if_pos hdest, if_neg (fun h => h.1 hdest)]
    exact ⟨hfirst.trans honly, hjoined, hoverrun, hheld, hnotHeld, hforward, hhanded, hchannels, hholdTimer, hholdStanding⟩
  · rw [if_neg hdest]
    unfold State.forwardedTo State.onPort
    simp only [State.withFp_fp, State.withFp_ma, FramePath.setPort_held, FramePath.setPort_other_port, FramePath.setPort_seqFlow,
      FramePath.setPort_handed, FramePath.setPort_channels, FramePath.setPort_holdTimer, FramePath.setPort_holdStanding,
      FramePath.port_setPort]
    refine ⟨(hfirst.trans honly).put_fp _ (by decide), hjoined, hoverrun, hheld, hnotHeld, ?_, hhanded, hchannels, hholdTimer,
      hholdStanding⟩
    rw [hforward, hlink]
    by_cases hroom : (s.fp.port (otherPort c.port)).linkUp = true ∧ (s.fp.port (otherPort c.port)).forward.length < 16
    · rw [if_pos hroom, if_pos ⟨hdest, hroom.1, hroom.2⟩]
    · rw [if_neg hroom, if_neg (fun h => hroom h.2)]

end Sys2Proof.Machine
end

section
/-!
PROOFS, power-on and what then holds: the values of POWER_ON, and the station number that no later step changes (R4).
-/

namespace Sys2Proof.Machine

/-! ### The straps through the Frame Path -/

/-- The latched straps: station number and address-parity fault (R4). -/
def FramePath.straps (fp : FramePath) : Byte × Bool :=
  (fp.station, fp.parityFault)

@[simp] theorem FramePath.setPort_straps (fp : FramePath) (p : Port) (ps : PortState) : (fp.setPort p ps).straps = fp.straps := by
  cases p <;> rfl

theorem FramePath.Grows.straps {l : List EgressClass} {fp gp : FramePath} (h : fp.Grows l gp) : gp.straps = fp.straps :=
  Prod.ext h.station h.parityFault

theorem Tells.straps {l : List EgressClass} {s t : State} (h : Tells l s t) : t.fp.straps = s.fp.straps :=
  h.grows.straps

@[simp] theorem FramePath.countPort_straps (fp : FramePath) (p : Port) (f : PortCounters → PortCounters) :
    (fp.countPort p f).straps = fp.straps :=
  fp.setPort_straps p _

@[simp] theorem FramePath.offerFlow_straps (fp : FramePath) (kind station : Byte) (p : Port) :
    (fp.offerFlow kind station p).straps = fp.straps := by
  unfold FramePath.offerFlow FramePath.offer
  split
  · exact FramePath.setPort_straps ..
  · exact FramePath.setPort_straps ..

@[simp] theorem FramePath.releaseHeld_straps (fp : FramePath) : fp.releaseHeld.straps = fp.straps := by
  have hfold (l : List (Byte × Port)) (gp : FramePath) :
      (l.foldl (fun f h => f.offerFlow 2 h.1 h.2) gp).straps = gp.straps := by
    induction l generalizing gp with
    | nil => rfl
    | cons x rest ih => rw [List.foldl_cons, ih, FramePath.offerFlow_straps]
  exact hfold fp.held fp

@[simp] theorem forwardFrame_straps (p : Port) (frame : Frame) (s : State) :
    (forwardFrame p frame s).fp.straps = s.fp.straps := by
  rw [forwardFrame_eq]
  exact FramePath.setPort_straps ..

@[simp] theorem forwardUnless_straps (consume : Bool) (p : Port) (frame : Frame) (s : State) :
    (forwardUnless consume p frame s).fp.straps = s.fp.straps := by
  unfold forwardUnless
  split
  · rfl
  · exact forwardFrame_straps ..

@[simp] theorem offerIntake_straps (c : Copy) (s : State) : (offerIntake c s).fp.straps = s.fp.straps := by
  unfold offerIntake holdArrival
  split
  · exact (FramePath.offerFlow_straps ..).trans (joinIntake_grows c s).straps
  · exact (joinIntake_grows c s).straps

@[simp] theorem takeFlow_straps (c : Copy) (s : State) : (takeFlow c s).fp.straps = s.fp.straps := by
  unfold takeFlow
  repeat' split
  all_goals rfl

@[simp] theorem matchedFrame_straps (e : ChannelEntry) (c : Copy) (frame : Frame) (s : State) :
    (matchedFrame e c frame s).fp.straps = s.fp.straps := by
  unfold matchedFrame
  dsimp only
  repeat' split
  · exact forwardUnless_straps ..
  · exact (forwardFrame_straps ..).trans (rewriteDose_tells (l := []) c.payload frame (.refl s)).straps
  · exact forwardUnless_straps ..

theorem classifyFrame_straps (c : Copy) (frame : Frame) (s : State) : (classifyFrame c frame s).fp.straps = s.fp.straps := by
  unfold classifyFrame stationFrame mgmtFrame flowFrame
  repeat' split
  all_goals simp

theorem receiveFrame_straps (p : Port) (whole : Bool) (frame : Frame) (s : State) :
    (receiveFrame p whole frame s).fp.straps = s.fp.straps := by
  unfold receiveFrame acceptFrame
  dsimp only
  repeat' split
  · simp
  · simp
  · simp
  · simp [classifyFrame_straps]

theorem linkLost_straps (p : Port) (arriving : Bool) (s : State) : (linkLost p arriving s).fp.straps = s.fp.straps := by
  unfold linkLost cutFrame
  dsimp only
  repeat' split
  all_goals simp

theorem departIntake_straps (s : State) : (departIntake s).fp.straps = s.fp.straps := by
  unfold departIntake
  repeat' split
  · rfl
  · rfl
  · next c rest _ =>
    have hreleased : (releaseOnDeparture (s.withMa { s.ma with fifo := rest, executing := some c })).fp.straps = s.fp.straps := by
      unfold releaseOnDeparture
      split
      · exact FramePath.releaseHeld_straps s.fp
      · rfl
    generalize releaseOnDeparture _ = t at hreleased ⊢
    have hfinish (r : Reply) : (finish c r t).fp.straps = s.fp.straps :=
      (finish_tells (l := [.reply]) c r (by decide) (.refl t)).straps.trans hreleased
    unfold beginCommand
    split
    · exact hreleased
    · exact hfinish _
    · exact hfinish _
    · exact hfinish _
    · exact hreleased

/-! ### The straps through the rows -/

theorem commitCollector_straps (old : LineSetup) (s : State) : (commitCollector old s).fp.straps = s.fp.straps := by
  have hcleared : (if old.collector = s.ma.setup.collector then s else clearHold s).fp.straps = s.fp.straps := by
    split <;> rfl
  unfold commitCollector
  dsimp only
  split
  · exact hcleared
  · exact (abandonUpload_tells (l := []) (.refl _)).straps.trans hcleared

theorem deliverSetup_straps (old : LineSetup) (s : State) : (deliverSetup old s).fp.straps = s.fp.straps := by
  have hvalves := (commitTrimHold_tells (l := []) old
    (applyValveCount_tells old.valveCount (commitGrid_tells old (.refl s)))).straps
  unfold deliverSetup
  generalize commitTrimHold old _ = t at hvalves ⊢
  have hcollector := commitCollector_straps old t
  generalize commitCollector old t = u at hcollector ⊢
  exact ((commitInterval_tells (l := []) old (commitThreshold_tells old (.refl u))).straps.trans hcollector).trans hvalves

theorem commitTable_straps (table : TableId) (first : Nat) (entries : List (List Byte)) (s : State) :
    (commitTable table first entries s).1.fp.straps = s.fp.straps := by
  have r := Tells.refl (l := []) s
  unfold commitTable
  cases table with
  | channel =>
    dsimp only
    unfold commitChannel refuseAt
    dsimp only
    split
    · dsimp only
    · dsimp only [State.withFp_fp, FramePath.straps]
  | lineSetup =>
    dsimp only
    unfold commitLineSetup refuseAt
    split
    · rfl
    · next u _ =>
      dsimp only
      exact deliverSetup_straps s.ma.setup _
  | calibration => exact (commitCalibration_tells entries r).straps
  | product => exact (commitProduct_tells first entries r).straps
  | valve => exact (commitValve_tells first entries r).straps
  | policy => exact (commitPolicy_tells first entries r).straps

theorem segmentBody_straps (args : List Byte) (s : State) : (segmentBody args s).1.fp.straps = s.fp.straps := by
  have hfailed := (failLoad_tells (l := []) (.refl s)).straps
  unfold segmentBody takeSegment refuse
  repeat' split
  · rfl
  · dsimp only
    exact hfailed
  · dsimp only
    exact hfailed
  · rfl
  · unfold lastSegment
    dsimp only
    exact (endLoad_tells (l := []) (.refl _)).straps.trans (commitTable_straps ..)

theorem CommandKind.body_straps (k : CommandKind) (args : List Byte) (s : State) :
    (k.body args s).1.fp.straps = s.fp.straps := by
  by_cases hspecial : k.isSpecial = false
  · exact (k.body_tells hspecial args s).straps
  · cases k <;> try exact absurd rfl hspecial
    case loadSegment => exact segmentBody_straps args s
    case clearCounters => rfl
    case captureControl =>
      dsimp only [CommandKind.body]
      unfold captureControlBody refuse
      split <;> rfl
    case resetFull => exact FramePath.releaseHeld_straps s.fp.keep
    case resetLoad =>
      dsimp only [CommandKind.body]
      exact (FramePath.releaseHeld_straps _).trans (abortLoad_tells (l := []) (.refl s)).straps

/-- Only POWER_ON latches the straps (R4). -/
theorem effect_straps {c : Instr} (hc : ∀ straps, c ≠ .powerOn straps) (s : State) : (effect c s).fp.straps = s.fp.straps := by
  cases hkind : kindOf c with
  | some k =>
    obtain rfl := eq_row_of_kindOf hkind
    exact effect_row_keeps (P := fun t => t.fp.straps = s.fp.straps) k rfl (fun args => k.body_straps args s) fun c r t ht =>
      (finish_tells (l := [.reply]) c r (by decide) (.refl t)).straps.trans ht
  | none =>
    by_cases hframe : isFrameEvent c = false
    · obtain ⟨rest, htells⟩ := effect_event_tells hkind hframe s
      exact htells.straps
    · cases c <;> try exact absurd rfl hframe
      case powerOn straps => exact absurd rfl (hc straps)
      case frameReceived p whole frame =>
        rw [effect_frameReceived]
        split
        · exact receiveFrame_straps p whole frame s
        · rfl
      case holdExpiry =>
        rw [effect_holdExpiry]
        split <;> rfl
      case egressStart p => exact FramePath.setPort_straps ..
      case transmitComplete p => exact FramePath.setPort_straps ..
      case linkDown p arriving => exact linkLost_straps p arriving s
      case linkUp p => exact FramePath.setPort_straps ..
      case intakeDeparture => exact departIntake_straps s

theorem millisecond_straps (s : State) : (millisecond s).fp.straps = s.fp.straps :=
  millisecond_keeps (P := fun t => t.fp.straps = s.fp.straps) rfl
    (fun c t hc ht => (effect_straps (fun straps h => by rw [h] at hc; cases hc) t).trans ht)
    (fun _ _ _ _ h => h) (fun _ _ _ _ h => h) (fun _ _ _ _ h => h) (fun _ _ _ _ h => h) (fun _ _ _ _ h => h)

/-! ### The power-on values -/

theorem highStraps_eq (straps : BitVec 7) : ((List.range 7).map fun i => (straps.getLsbD i).toNat).sum = highStraps straps := by
  unfold highStraps
  generalize List.range 7 = l
  induction l with
  | nil => rfl
  | cons i rest ih =>
    rw [List.map_cons, List.sum_cons, ih]
    cases h : straps.getLsbD i
    · rw [List.filter_cons_of_neg (by simp [h])]
      exact Nat.zero_add _
    · rw [List.filter_cons_of_pos h, List.length_cons]
      exact Nat.add_comm _ _

theorem strapsOk_iff (straps : BitVec 7) : strapsOk straps = true ↔ highStraps straps % 2 = 1 :=
  beq_iff_eq

theorem stationOfStraps_of_odd {straps : BitVec 7} (h : highStraps straps % 2 = 1) :
    (stationOfStraps straps).toNat = straps.toNat % 64 := by
  unfold stationOfStraps
  rw [if_pos ((strapsOk_iff straps).mpr h)]
  simp only [BitVec.toNat_setWidth]
  omega

theorem stationOfStraps_of_even {straps : BitVec 7} (h : highStraps straps % 2 = 0) : stationOfStraps straps = 63 := by
  unfold stationOfStraps
  rw [if_neg fun hodd => by rw [strapsOk_iff, h] at hodd; cases hodd]

/-- The record of a valve at power-on (R135). -/
def ValveRecord.fresh : ValveRecord :=
  { state := .settling, trim := 0, n := 0, eAvg := 0, limit := false, unsettledRun := 0, weighed := 0, rejected := 0,
    trimChanges := 0, lastChange := none, countdown := 0, armed := false }

theorem reset_valve (v : Fin Config.valves) :
    State.reset.te.table[v] = { mode := .auto, fixedTrim := 0, captureInterval := 0 } ∧
      State.reset.te.valves[v] = ValveRecord.fresh ∧ State.reset.rw.expected[v] = none ∧ State.reset.rw.epoch[v] = 0 := by
  simp [State.reset, ValveRecord.fresh]

theorem defaultPolicy_get : ∀ i : Fin 12, defaultPolicy[i] = decide (i.val ≤ 8) := by
  decide

/-- Settles O5: the power-on values are those of the state after reset, and no other row latches the straps. -/
theorem powerOnLatchesStraps : Obligations.PowerOnLatchesStraps := by
  refine ⟨fun straps s => ⟨powerOnState straps s, rfl, ?_⟩, fun c s t hc h => ?_, fun s t hp h => ?_⟩
  · rw [highStraps_eq]
    refine ⟨fun h => ⟨stationOfStraps_of_odd h, ?_⟩, fun h => ⟨stationOfStraps_of_even h, ?_⟩, ?_⟩
    · simp [powerOnState, (strapsOk_iff straps).mpr h]
    · have heven : strapsOk straps = false := Bool.eq_false_iff.mpr fun hodd => by rw [strapsOk_iff, h] at hodd; cases hodd
      simp [powerOnState, heven]
    · refine ⟨?_, rfl, rfl, ?_, rfl, rfl, rfl, rfl, rfl, rfl, rfl, rfl, rfl, rfl, rfl, rfl, rfl, rfl, rfl, rfl, rfl, rfl, rfl, rfl,
        rfl, rfl, rfl, rfl, rfl, rfl, rfl, rfl, rfl, rfl, rfl, ?_, rfl, ?_, rfl, rfl, rfl, rfl, rfl, rfl, rfl, rfl, rfl,
        fun v => reset_valve v, rfl, ?_, rfl, rfl, rfl, rfl, rfl, ?_, rfl, rfl, rfl, rfl, rfl, rfl, rfl, rfl, rfl, rfl, rfl, rfl,
        rfl, rfl, rfl⟩
      · exact fun i => by simp [powerOnState, State.reset, roleOfCode]
      · exact fun i => by simp [powerOnState, State.reset]
      · exact fun k => by simp [powerOnState, State.reset]
      · exact fun i => ⟨defaultPolicy_get i, by simp [powerOnState, State.reset]⟩
      · exact fun k => by simp [powerOnState, State.reset]
      · exact fun i => by simp [powerOnState, State.reset]
  · have hstraps := exec_eq_next h ▸ effect_straps hc s
    exact Prod.ext_iff.mp hstraps
  · obtain ⟨_, rfl⟩ | ⟨c, rest, hcons, _⟩ := step_cases h
    · exact Prod.ext_iff.mp (millisecond_straps s)
    · exact absurd (hp.symm.trans hcons) (List.cons_ne_nil _ _).symm

end Sys2Proof.Machine
end

section
/-!
PROOFS, the time base: the millisecond as the expiries of the timers at their last one, after the others have counted it, and the
encoder silence timer to its end (R25, R30, R31).
-/

namespace Sys2Proof.Machine

/-! ### The running timers as dials of a state -/

/-- The five timers and the queue of commands, which no part of an expiry reads but the timer that expires. -/
structure Dials where
  pos : Option Nat
  fe : Option Nat
  hold : Option Nat
  load : Option Nat
  status : Option Nat
  pending : List Instr

/-- The state with its dials set. -/
def State.withDials (s : State) (d : Dials) : State :=
  { s with
    pos := { s.pos with timer := d.pos }
    fe := { s.fe with timer := d.fe }
    fp := { s.fp with holdTimer := d.hold }
    ma := { s.ma with loadTimer := d.load, statusTimer := d.status }
    pending := d.pending }

theorem FramePath.offerStatus_holdTimer (fp : FramePath) (x : Option Nat) (p : Port) (dest : Byte) (payload : List Byte) :
    ({ fp with holdTimer := x } : FramePath).offerStatus p dest payload =
      { fp.offerStatus p dest payload with holdTimer := x } := by
  have hport : FramePath.port { fp with holdTimer := x } p = fp.port p := by
    cases p <;> rfl
  unfold FramePath.offerStatus
  rw [hport]
  dsimp only
  repeat' split
  all_goals cases p <;> rfl

theorem buildStatus_withDials (s : State) (d : Dials) : buildStatus (s.withDials d) = (buildStatus s).withDials d := by
  unfold buildStatus
  by_cases h : s.ma.setup.controller = 255
  · rw [if_pos h, if_pos (by exact h)]
  · rw [if_neg h, if_neg (by exact h)]
    have hoffer := FramePath.offerStatus_holdTimer s.fp d.hold s.ma.setup.controllerPort s.ma.setup.controller s.statusPayload
    exact congrArg (s.withDials d).withFp hoffer

theorem report_withDials (s t : State) (d e : Dials) : report (s.withDials d) (t.withDials e) = (report s t).withDials e := by
  have hword : (t.withDials e).statusWord = (s.withDials d).statusWord ↔ t.statusWord = s.statusWord := Iff.rfl
  unfold report
  by_cases h : t.statusWord = s.statusWord
  · rw [if_pos h, if_pos (hword.mpr h)]
  · rw [if_neg h, if_neg (mt hword.mp h), buildStatus_withDials]

theorem raiseForFault_withDials (s : State) (d : Dials) : raiseForFault (s.withDials d) = (raiseForFault s).withDials d := by
  unfold raiseForFault raiseLineStop
  by_cases h : (s.pos.fault && !s.jr.schedule.isEmpty) = true
  · rw [if_pos h, if_pos (by exact h)]
    exact report_withDials s { s with jr := { s.jr with lineStop := true } } d d
  · rw [if_neg h, if_neg (by exact h)]

/-! ### Each expiry on its dial -/

theorem encoderSilence_withDials (s : State) (d : Dials) :
    encoderSilence (s.withDials d) = (encoderSilence s).withDials { d with pos := none } := by
  have hreport := report_withDials s (s.withPos { s.pos with
    fault := true
    timer := none
    counters := { s.pos.counters with faults := tally s.pos.counters.faults 1 } }) d { d with pos := none }
  unfold encoderSilence
  rw [← raiseForFault_withDials, ← hreport]
  rfl

theorem closeSilent_withDials (s : State) (d : Dials) : closeSilent (s.withDials d) = (closeSilent s).withDials d := by
  unfold closeSilent
  rw [show (s.withDials d).fe.mode = s.fe.mode from rfl, show (s.withDials d).fe.window = s.fe.window from rfl]
  split <;> rfl

/-- What the expiry of the digitiser silence timer leaves once the window is closed (R47). -/
def digitiserSilenced (t : State) : State :=
  setWeigherSilent true (t.withFe { t.fe with
    mode := .silent
    expected := none
    timer := none
    counters := { t.fe.counters with silences := tally t.fe.counters.silences 1 } })

theorem digitiserSilence_eq (s : State) : digitiserSilence s = digitiserSilenced (closeSilent s) := rfl

theorem digitiserSilence_withDials (s : State) (d : Dials) :
    digitiserSilence (s.withDials d) = (digitiserSilence s).withDials { d with fe := none } := by
  have hsilent (t : State) : digitiserSilenced (t.withDials d) = (digitiserSilenced t).withDials { d with fe := none } := by
    have hreport := report_withDials (t.withFe { t.fe with
      mode := .silent
      expected := none
      timer := none
      counters := { t.fe.counters with silences := tally t.fe.counters.silences 1 } }) (t.withFe { t.fe with
      mode := .silent
      expected := none
      timer := none
      counters := { t.fe.counters with silences := tally t.fe.counters.silences 1 }
      weigherSilent := true }) { d with fe := none } { d with fe := none }
    exact hreport
  rw [digitiserSilence_eq, digitiserSilence_eq, closeSilent_withDials, hsilent]

theorem clearHold_withDials (s : State) (d : Dials) : clearHold (s.withDials d) = (clearHold s).withDials { d with hold := none } :=
  rfl

theorem loadExpiry_withDials (s : State) (d : Dials) :
    loadExpiry (s.withDials d) = (loadExpiry s).withDials { d with load := none } := by
  have hreport := report_withDials
    (s.withMa { s.ma with counters := { s.ma.counters with timeouts := tally s.ma.counters.timeouts 1 } })
    (s.withMa { s.ma with
      counters := { s.ma.counters with timeouts := tally s.ma.counters.timeouts 1 }
      load := none
      staging := []
      loadTimer := none }) d { d with load := none }
  exact hreport

/-- The status interval of a state as its timer starts with it (R192). -/
def State.interval (s : State) : Option Nat :=
  if s.ma.setup.statusInterval = 0 then none else some s.ma.setup.statusInterval

theorem statusExpiry_withDials (s : State) (d : Dials) :
    statusExpiry (s.withDials d) = (statusExpiry s).withDials { d with status := (buildStatus s).interval } := by
  unfold statusExpiry
  rw [buildStatus_withDials]
  rfl

/-! ### A millisecond timer by timer -/

theorem isSome_of_atLast {o : Option Nat} (h : atLast o = true) : o.isSome = true := by
  cases o with
  | none => cases h
  | some n => rfl

theorem atLast_some (n : Nat) : atLast (some n) = decide (n ≤ 1) := rfl

theorem countDown_of_not_atLast {o : Option Nat} (h : atLast o = false) : countDown o = o.map (· - 1) :=
  if_neg (by rw [h]; exact Bool.false_ne_true)

theorem countDown_of_atLast {o : Option Nat} (h : atLast o = true) : countDown o = o :=
  if_pos h

section Milliseconds

variable (u : State) {d : Dials}

theorem msEncoder_expires (h : atLast d.pos = true) :
    msEncoder (u.withDials d) = (encoderSilence u).withDials { d with pos := none } := by
  obtain ⟨pos, fe, hold, load, status, pending⟩ := d
  cases pos with
  | none => cases h
  | some n =>
    rw [← encoderSilence_withDials]
    exact if_pos (of_decide_eq_true h)

theorem msEncoder_counts (h : atLast d.pos = false) : msEncoder (u.withDials d) = u.withDials { d with pos := countDown d.pos } := by
  obtain ⟨pos, fe, hold, load, status, pending⟩ := d
  rw [countDown_of_not_atLast h]
  cases pos with
  | none => rfl
  | some n => exact if_neg (of_decide_eq_false h)

theorem msDigitiser_expires (h : atLast d.fe = true) :
    msDigitiser (u.withDials d) = (digitiserSilence u).withDials { d with fe := none } := by
  obtain ⟨pos, fe, hold, load, status, pending⟩ := d
  cases fe with
  | none => cases h
  | some n =>
    rw [← digitiserSilence_withDials]
    exact if_pos (of_decide_eq_true h)

theorem msDigitiser_counts (h : atLast d.fe = false) :
    msDigitiser (u.withDials d) = u.withDials { d with fe := countDown d.fe } := by
  obtain ⟨pos, fe, hold, load, status, pending⟩ := d
  rw [countDown_of_not_atLast h]
  cases fe with
  | none => rfl
  | some n => exact if_neg (of_decide_eq_false h)

theorem msHold_expires (h : atLast d.hold = true) :
    msHold (u.withDials d) = (clearHold u).withDials { d with hold := none } := by
  obtain ⟨pos, fe, hold, load, status, pending⟩ := d
  cases hold with
  | none => cases h
  | some n =>
    rw [← clearHold_withDials]
    exact if_pos (of_decide_eq_true h)

theorem msHold_counts (h : atLast d.hold = false) : msHold (u.withDials d) = u.withDials { d with hold := countDown d.hold } := by
  obtain ⟨pos, fe, hold, load, status, pending⟩ := d
  rw [countDown_of_not_atLast h]
  cases hold with
  | none => rfl
  | some n => exact if_neg (of_decide_eq_false h)

theorem msLoad_expires (h : atLast d.load = true) :
    msLoad (u.withDials d) = (loadExpiry u).withDials { d with load := none } := by
  obtain ⟨pos, fe, hold, load, status, pending⟩ := d
  cases load with
  | none => cases h
  | some n =>
    rw [← loadExpiry_withDials]
    exact if_pos (of_decide_eq_true h)

theorem msLoad_counts (h : atLast d.load = false) : msLoad (u.withDials d) = u.withDials { d with load := countDown d.load } := by
  obtain ⟨pos, fe, hold, load, status, pending⟩ := d
  rw [countDown_of_not_atLast h]
  cases load with
  | none => rfl
  | some n => exact if_neg (of_decide_eq_false h)

theorem msStatus_expires (h : atLast d.status = true) :
    msStatus (u.withDials d) = (statusExpiry u).withDials { d with status := (buildStatus u).interval } := by
  obtain ⟨pos, fe, hold, load, status, pending⟩ := d
  cases status with
  | none => cases h
  | some n =>
    rw [← statusExpiry_withDials]
    exact if_pos (of_decide_eq_true h)

theorem msStatus_counts (h : atLast d.status = false) :
    msStatus (u.withDials d) = u.withDials { d with status := countDown d.status } := by
  obtain ⟨pos, fe, hold, load, status, pending⟩ := d
  rw [countDown_of_not_atLast h]
  cases status with
  | none => rfl
  | some n => exact if_neg (of_decide_eq_false h)

end Milliseconds

/-! ### The expiries as commands -/

theorem run_zero (s : State) : Host.Core.run Sys2Proof.core 0 s = .next s := rfl

theorem run_succ (n : Nat) (s : State) {t : State} (h : step s = .next t) :
    Host.Core.run Sys2Proof.core (n + 1) s = Host.Core.run Sys2Proof.core n t := by
  have hcore : Sys2Proof.core.step s = .next t := h
  simp only [Host.Core.run, hcore]

/-- The commands of which one stands in front when its timer is at its last millisecond. -/
def due (last : Bool) (c : Instr) : List Instr :=
  if last then [c] else []

/-- An expiry at the front of the queue, or none: the run goes on from the state that the timer's millisecond leaves. -/
theorem run_due {u v : State} {d e : Dials} {last : Bool} {c : Instr} (rest : List Instr)
    (hexpires : last = true → effect c (u.withDials { d with pending := rest }) = v.withDials { e with pending := rest })
    (hcounts : last = false → u = v ∧ d = e) :
    Host.Core.run Sys2Proof.core (due last c ++ rest).length (u.withDials { d with pending := due last c ++ rest }) =
      Host.Core.run Sys2Proof.core rest.length (v.withDials { e with pending := rest }) := by
  cases last with
  | false =>
    obtain ⟨rfl, rfl⟩ := hcounts rfl
    rfl
  | true =>
    have hstep : step (u.withDials { d with pending := c :: rest }) = .next (v.withDials { e with pending := rest }) := by
      rw [← hexpires rfl, ← exec_eq_effect]
      rfl
    exact run_succ rest.length _ hstep

theorem filter_atLast_cons (o : Option Nat) (c : Instr) (l : List (Option Nat × Instr)) :
    (((o, c) :: l).filter fun x => atLast x.1).map Prod.snd = due (atLast o) c ++ (l.filter fun x => atLast x.1).map Prod.snd := by
  cases h : atLast o
  · rw [List.filter_cons_of_neg (by simp [h])]
    rfl
  · rw [List.filter_cons_of_pos (by exact h)]
    rfl

theorem expiries_eq (s : State) : s.expiries =
    due (atLast s.pos.timer) .encoderSilenceExpiry ++ (due (atLast s.fe.timer) .digitiserSilenceExpiry ++
      (due (atLast s.fp.holdTimer) .holdExpiry ++ (due (atLast s.ma.loadTimer) .loadInactivityExpiry ++
        (due (atLast s.ma.statusTimer) .statusIntervalExpiry ++ [])))) := by
  unfold State.expiries
  simp only [filter_atLast_cons, List.filter_nil, List.map_nil]

/-- A timer in its millisecond: what the operation of the timer makes of a state, its row makes of it with the expiry in front of
the queue and the timers counted down. `set` sets the dial of the timer. -/
structure Ticks (ms : State → State) (c : Instr) (set : Dials → Option Nat → Dials) (u v : State) (o o' : Option Nat) : Prop where
  ms : ∀ d, ms (u.withDials (set d o)) = v.withDials (set d o')
  run : ∀ d rest, Host.Core.run Sys2Proof.core (due (atLast o) c ++ rest).length
      (u.withDials { set d (countDown o) with pending := due (atLast o) c ++ rest }) =
    Host.Core.run Sys2Proof.core rest.length (v.withDials { set d o' with pending := rest })

theorem Ticks.expires {ms : State → State} {c : Instr} {set : Dials → Option Nat → Dials} {u v : State} {o o' : Option Nat}
    (hlast : atLast o = true) (hms : ∀ d, ms (u.withDials (set d o)) = v.withDials (set d o'))
    (hrow : ∀ d rest, effect c (u.withDials { set d o with pending := rest }) = v.withDials { set d o' with pending := rest }) :
    Ticks ms c set u v o o' where
  ms := hms
  run d rest := by
    rw [countDown_of_atLast hlast]
    exact run_due rest (fun _ => hrow d rest) fun hnot => absurd (hlast.symm.trans hnot) (by decide)

theorem Ticks.counts {ms : State → State} {c : Instr} {set : Dials → Option Nat → Dials} {u : State} {o : Option Nat}
    (hnot : atLast o = false) (hms : ∀ d, ms (u.withDials (set d o)) = u.withDials (set d (countDown o))) :
    Ticks ms c set u u o (countDown o) where
  ms := hms
  run d rest := run_due rest (fun hlast => absurd (hnot.symm.trans hlast) (by decide)) fun _ => ⟨rfl, rfl⟩

theorem encoder_ticks (u : State) (o : Option Nat) :
    ∃ v o', Ticks msEncoder .encoderSilenceExpiry (fun d x => { d with pos := x }) u v o o' := by
  cases h : atLast o with
  | true =>
    refine ⟨_, _, .expires h (fun d => msEncoder_expires u (by exact h)) fun d rest => ?_⟩
    rw [effect_encoderSilenceExpiry]
    exact (if_pos (isSome_of_atLast h)).trans (encoderSilence_withDials ..)
  | false => exact ⟨_, _, .counts h fun d => msEncoder_counts u (by exact h)⟩

theorem digitiser_ticks (u : State) (o : Option Nat) :
    ∃ v o', Ticks msDigitiser .digitiserSilenceExpiry (fun d x => { d with fe := x }) u v o o' := by
  cases h : atLast o with
  | true =>
    refine ⟨_, _, .expires h (fun d => msDigitiser_expires u (by exact h)) fun d rest => ?_⟩
    rw [effect_digitiserSilenceExpiry]
    exact (if_pos (isSome_of_atLast h)).trans (digitiserSilence_withDials ..)
  | false => exact ⟨_, _, .counts h fun d => msDigitiser_counts u (by exact h)⟩

theorem hold_ticks (u : State) (o : Option Nat) : ∃ v o', Ticks msHold .holdExpiry (fun d x => { d with hold := x }) u v o o' := by
  cases h : atLast o with
  | true =>
    refine ⟨_, _, .expires h (fun d => msHold_expires u (by exact h)) fun d rest => ?_⟩
    rw [effect_holdExpiry]
    exact (if_pos (isSome_of_atLast h)).trans (clearHold_withDials ..)
  | false => exact ⟨_, _, .counts h fun d => msHold_counts u (by exact h)⟩

theorem load_ticks (u : State) (o : Option Nat) :
    ∃ v o', Ticks msLoad .loadInactivityExpiry (fun d x => { d with load := x }) u v o o' := by
  cases h : atLast o with
  | true =>
    refine ⟨_, _, .expires h (fun d => msLoad_expires u (by exact h)) fun d rest => ?_⟩
    rw [effect_loadInactivityExpiry]
    exact (if_pos (isSome_of_atLast h)).trans (loadExpiry_withDials ..)
  | false => exact ⟨_, _, .counts h fun d => msLoad_counts u (by exact h)⟩

theorem status_ticks (u : State) (o : Option Nat) :
    ∃ v o', Ticks msStatus .statusIntervalExpiry (fun d x => { d with status := x }) u v o o' := by
  cases h : atLast o with
  | true =>
    refine ⟨_, _, .expires h (fun d => msStatus_expires u (by exact h)) fun d rest => ?_⟩
    rw [effect_statusIntervalExpiry]
    exact (if_pos (isSome_of_atLast h)).trans (statusExpiry_withDials ..)
  | false => exact ⟨_, _, .counts h fun d => msStatus_counts u (by exact h)⟩

/-- The millisecond is the run of the expiries after the other timers have counted it. -/
theorem run_expiries {s : State} (hpending : s.pending = []) :
    Host.Core.run Sys2Proof.core s.expiries.length { s.countedDown with pending := s.expiries } = .next (millisecond s) := by
  obtain ⟨s1, pos, hencoder⟩ := encoder_ticks s s.pos.timer
  obtain ⟨s2, fe, hdigitiser⟩ := digitiser_ticks s1 s.fe.timer
  obtain ⟨s3, hold, hhold⟩ := hold_ticks s2 s.fp.holdTimer
  obtain ⟨s4, load, hload⟩ := load_ticks s3 s.ma.loadTimer
  obtain ⟨s5, status, hstatus⟩ := status_ticks s4 s.ma.statusTimer
  have hms : millisecond s = s5.withDials ⟨pos, fe, hold, load, status, []⟩ := by
    have h1 : msEncoder s = s1.withDials ⟨pos, s.fe.timer, s.fp.holdTimer, s.ma.loadTimer, s.ma.statusTimer, s.pending⟩ :=
      hencoder.ms ⟨none, s.fe.timer, s.fp.holdTimer, s.ma.loadTimer, s.ma.statusTimer, s.pending⟩
    have h2 := hdigitiser.ms ⟨pos, none, s.fp.holdTimer, s.ma.loadTimer, s.ma.statusTimer, s.pending⟩
    have h3 := hhold.ms ⟨pos, fe, none, s.ma.loadTimer, s.ma.statusTimer, s.pending⟩
    have h4 := hload.ms ⟨pos, fe, hold, none, s.ma.statusTimer, s.pending⟩
    have h5 := hstatus.ms ⟨pos, fe, hold, load, none, s.pending⟩
    unfold millisecond
    rw [h1, h2, h3, h4, h5, hpending]
  have hrun : Host.Core.run Sys2Proof.core s.expiries.length { s.countedDown with pending := s.expiries } =
      Host.Core.run Sys2Proof.core 0 (s5.withDials ⟨pos, fe, hold, load, status, []⟩) := by
    rw [expiries_eq]
    refine (hencoder.run ⟨none, countDown s.fe.timer, countDown s.fp.holdTimer, countDown s.ma.loadTimer,
      countDown s.ma.statusTimer, []⟩ _).trans ?_
    refine (hdigitiser.run ⟨pos, none, countDown s.fp.holdTimer, countDown s.ma.loadTimer, countDown s.ma.statusTimer, []⟩
      _).trans ?_
    refine (hhold.run ⟨pos, fe, none, countDown s.ma.loadTimer, countDown s.ma.statusTimer, []⟩ _).trans ?_
    refine (hload.run ⟨pos, fe, hold, none, countDown s.ma.statusTimer, []⟩ _).trans ?_
    exact hstatus.run ⟨pos, fe, hold, load, none, []⟩ []
  rw [hrun, hms, run_zero]

theorem step_of_idle {s : State} (h : s.pending = []) : step s = .next (millisecond s) := by
  unfold step
  rw [h]

theorem not_atLast {o : Option Nat} (h : ∀ n, o = some n → 2 ≤ n) : atLast o = false := by
  cases o with
  | none => rfl
  | some n => exact decide_eq_false (by have := h n rfl; omega)

/-- Settles O3: a millisecond timer by timer, and where none expires. -/
theorem idleStepCountsTimers : Obligations.IdleStepCountsTimers := by
  refine ⟨fun s h => ⟨millisecond s, step_of_idle h, run_expiries h⟩, fun s h hpos hfe hhold hload hstatus => ?_⟩
  have hencoder : msEncoder s = _ := msEncoder_counts s
    (d := ⟨s.pos.timer, s.fe.timer, s.fp.holdTimer, s.ma.loadTimer, s.ma.statusTimer, s.pending⟩) (not_atLast hpos)
  rw [step_of_idle h]
  unfold millisecond
  rw [hencoder, msDigitiser_counts s (not_atLast hfe), msHold_counts s (not_atLast hhold), msLoad_counts s (not_atLast hload),
    msStatus_counts s (not_atLast hstatus)]
  simp only [countDown_of_not_atLast (not_atLast hpos), countDown_of_not_atLast (not_atLast hfe),
    countDown_of_not_atLast (not_atLast hhold), countDown_of_not_atLast (not_atLast hload),
    countDown_of_not_atLast (not_atLast hstatus)]
  rfl

/-! ### The encoder silence timer to its end (R25) -/

/-- What a millisecond of the four other timers leaves of a state: Position Unit, Reject Schedule and queue of commands. -/
structure State.KeepsLine (s t : State) : Prop where
  pos : t.pos = s.pos
  jr : t.jr = s.jr
  pending : t.pending = s.pending

theorem State.KeepsLine.trans {s t u : State} (h : s.KeepsLine t) (k : t.KeepsLine u) : s.KeepsLine u :=
  ⟨k.pos.trans h.pos, k.jr.trans h.jr, k.pending.trans h.pending⟩

theorem OnlyChanges.keepsLine {l : List Block} {s t : State} (h : OnlyChanges l s t) (hpos : Block.pos ∉ l) (hjr : Block.jr ∉ l)
    (hpending : Block.pending ∉ l) : s.KeepsLine t :=
  ⟨h .pos hpos, h .jr hjr, h .pending hpending⟩

theorem msDigitiser_keepsLine (s : State) : s.KeepsLine (msDigitiser s) := by
  unfold msDigitiser
  split
  · exact ⟨rfl, rfl, rfl⟩
  · split
    · exact (digitiserSilence_only s).keepsLine (by decide) (by decide) (by decide)
    · exact ⟨rfl, rfl, rfl⟩

theorem msHold_keepsLine (s : State) : s.KeepsLine (msHold s) := by
  unfold msHold
  split
  · exact ⟨rfl, rfl, rfl⟩
  · split <;> exact ⟨rfl, rfl, rfl⟩

theorem msLoad_keepsLine (s : State) : s.KeepsLine (msLoad s) := by
  unfold msLoad
  split
  · exact ⟨rfl, rfl, rfl⟩
  · split
    · exact (loadExpiry_only s).keepsLine (by decide) (by decide) (by decide)
    · exact ⟨rfl, rfl, rfl⟩

theorem msStatus_keepsLine (s : State) : s.KeepsLine (msStatus s) := by
  unfold msStatus
  split
  · exact ⟨rfl, rfl, rfl⟩
  · split
    · exact (statusExpiry_only s).keepsLine (by decide) (by decide) (by decide)
    · exact ⟨rfl, rfl, rfl⟩

/-- A millisecond is that of the encoder silence timer, for Position Unit, Reject Schedule and queue of commands. -/
theorem millisecond_keepsLine (s : State) : (msEncoder s).KeepsLine (millisecond s) :=
  (((msDigitiser_keepsLine _).trans (msHold_keepsLine _)).trans (msLoad_keepsLine _)).trans (msStatus_keepsLine _)

theorem millisecond_counts_encoder {s : State} {n : Nat} (h : s.pos.timer = some (n + 2)) :
    (millisecond s).pos = { s.pos with timer := some (n + 1) } ∧ (millisecond s).jr = s.jr ∧
      (millisecond s).pending = s.pending := by
  have hms : msEncoder s = s.withPos { s.pos with timer := some (n + 1) } := by
    unfold msEncoder
    rw [h]
    exact if_neg (by omega)
  obtain ⟨hpos, hjr, hpending⟩ := millisecond_keepsLine s
  rw [hms] at hpos hjr hpending
  exact ⟨hpos, hjr, hpending⟩

/-- Milliseconds before the last one of the encoder silence timer. -/
theorem run_before_silence {s : State} (hpending : s.pending = []) {n : Nat} (h : s.pos.timer = some (n + 1)) :
    ∃ u : State, Host.Core.run Sys2Proof.core n s = .next u ∧ u.pos = { s.pos with timer := some 1 } ∧ u.jr = s.jr ∧ u.pending = [] := by
  induction n generalizing s with
  | zero => exact ⟨s, rfl, by rw [← h], rfl, hpending⟩
  | succ n ih =>
    obtain ⟨hpos, hjr, hqueue⟩ := millisecond_counts_encoder h
    obtain ⟨u, hrun, hupos, hujr, hupending⟩ := ih (hqueue.trans hpending) (congrArg Position.timer hpos)
    refine ⟨u, (run_succ n s (step_of_idle hpending)).trans hrun, ?_, hujr.trans hjr, hupending⟩
    rw [hupos, hpos]

theorem report_pos (s t : State) : (report s t).pos = t.pos :=
  (report_only s t) .pos (by decide)

theorem raiseForFault_schedule (s : State) : (raiseForFault s).jr.schedule = s.jr.schedule := by
  unfold raiseForFault
  split
  · rw [raiseLineStop_jr]
  · rfl

/-- Line Stop Request stands over a non-empty schedule once ENCODER_FAULT does (R120). -/
theorem raiseForFault_lineStop {s : State} (hfault : s.pos.fault = true) (h : s.jr.schedule ≠ []) :
    (raiseForFault s).jr.lineStop = true := by
  unfold raiseForFault
  rw [if_pos (by simp [hfault, h]), raiseLineStop_jr]

theorem encoderSilence_schedule (s : State) : (encoderSilence s).jr.schedule = s.jr.schedule := by
  unfold encoderSilence
  rw [raiseForFault_schedule, report_jr, State.withPos_jr]

theorem encoderSilence_lineStop {s : State} (h : s.jr.schedule ≠ []) : (encoderSilence s).jr.lineStop = true := by
  unfold encoderSilence
  refine raiseForFault_lineStop ?_ ?_
  · rw [report_pos, State.withPos_pos]
  · rwa [report_jr, State.withPos_jr]

/-- Settles O4: N milliseconds short of one count the timer down, and the N-th is its expiry. -/
theorem encoderSilenceExpiresOnTime : Obligations.EncoderSilenceExpiresOnTime := by
  intro s n hpending htimer
  obtain ⟨u, hrun, hpos, hjr, hidle⟩ := run_before_silence hpending htimer
  have hms : msEncoder u = encoderSilence u := by
    have hone : u.pos.timer = some 1 := congrArg Position.timer hpos
    unfold msEncoder
    rw [hone]
    exact if_pos le_rfl
  obtain ⟨hmpos, hmjr, _⟩ := millisecond_keepsLine u
  rw [hms] at hmpos hmjr
  rw [encoderSilence_pos] at hmpos
  refine ⟨u, millisecond u, hrun, by rw [hpos], by rw [hpos], step_of_idle hidle, ?_⟩
  refine ⟨congrArg Position.fault hmpos, congrArg Position.timer hmpos, ?_, ?_, ?_, fun hschedule => ?_⟩
  · rw [hmpos, hpos]
  · rw [hmpos, hpos]
  · rw [hmjr, encoderSilence_schedule, hjr]
  · rw [hmjr]
    exact encoderSilence_lineStop (by rwa [hjr])

end Sys2Proof.Machine
end

section
/-!
PROOFS, Line Position and the Front End: ticks, rounding, the window's steps and the silence expiries (02_line_position_and_pitch.md,
03_the_weighing_front_end.md).
-/

namespace Sys2Proof.Machine

/-! ### Ticks (R23) -/

/-- Settles O16: on a grid in order the ticks of a step are the boundaries passed, and the grid stays in order. -/
theorem ticksAreTheBoundaries : Obligations.TicksAreTheBoundaries := by
  intro pos d hphase hresidue _ hd
  have hgrid : pos.onGrid := ⟨hphase, hresidue⟩
  exact ⟨ticksOf_eq_boundariesPassed hgrid hd, (hgrid.step hd).2⟩

/-! ### Rounding (00_scope.md 1.7) -/

/-- The quotient of a magnitude rounded to nearest: twice the error is at most the divisor, and a tie is rounded up. -/
theorem roundedMagnitude_near (a : Int) {b : Nat} (hb : 0 < b) :
    (-(b : Int) ≤ 2 * (a - (2 * a + b) / (2 * b) * b)) ∧ 2 * (a - (2 * a + b) / (2 * b) * b) < b := by
  have hpos : (0 : Int) < 2 * b := by omega
  have hdiv := Int.mul_ediv_add_emod (2 * a + b) (2 * b)
  have hlow := Int.emod_nonneg (2 * a + b) hpos.ne'
  have hhigh := Int.emod_lt_of_pos (2 * a + b) hpos
  generalize (2 * a + b) / (2 * b) = q at hdiv ⊢
  have hq : 2 * (b : Int) * q = 2 * (q * b) := by ring
  rw [hq] at hdiv
  omega

/-- Settles O22: the sign is rounded apart from the magnitude. -/
theorem roundingIsToNearest : Obligations.RoundingIsToNearest := by
  intro a b hb
  unfold roundDiv
  by_cases ha : 0 ≤ a
  · rw [if_pos ha]
    have hnear := roundedMagnitude_near a hb
    generalize (2 * a + b) / (2 * b) * (b : Int) = p at hnear ⊢
    omega
  · rw [if_neg ha]
    have hnear := roundedMagnitude_near (-a) hb
    rw [neg_mul]
    generalize (2 * -a + b) / (2 * b) * (b : Int) = p at hnear ⊢
    omega

/-! ### The window's steps (R43, R44, R49 to R51) -/

theorem completeSettle_of_reached {s : State} {w : OpenWindow} (hmode : s.fe.mode = .settle) (hwindow : s.fe.window = some w)
    (h : w.settle ≤ w.settleCount) : completeSettle s = s.withFe { s.fe with mode := .window } := by
  unfold completeSettle
  rw [hmode, hwindow]
  exact if_pos h

theorem completeSettle_of_short {s : State} {w : OpenWindow} (hmode : s.fe.mode = .settle) (hwindow : s.fe.window = some w)
    (h : w.settleCount < w.settle) : completeSettle s = s := by
  unfold completeSettle
  rw [hmode, hwindow]
  exact if_neg (not_le.mpr h)

theorem completeWindow_of_reached {s : State} {w : OpenWindow} (hmode : s.fe.mode = .window) (hwindow : s.fe.window = some w)
    (h : w.length ≤ w.count) : completeWindow s = (closeWindow w false false s).withFe
      { (closeWindow w false false s).fe with mode := .occupied, beltClear := 0 } := by
  unfold completeWindow
  rw [hmode, hwindow]
  exact if_pos h

theorem completeWindow_of_short {s : State} {w : OpenWindow} (hmode : s.fe.mode = .window) (hwindow : s.fe.window = some w)
    (h : w.count < w.length) : completeWindow s = s := by
  unfold completeWindow
  rw [hmode, hwindow]
  exact if_neg (not_le.mpr h)

theorem hasGross_iff (w : OpenWindow) : w.hasGross false = true ↔ w.span ≠ 0 ∧ w.minSamples ≤ w.count := by
  simp [OpenWindow.hasGross]

theorem windowResultOf_heard (w : OpenWindow) (cut zeroFault : Bool) (buffer : List Int) :
    windowResultOf w cut false zeroFault buffer =
      { entryIndex := w.entryIndex, entryPos := w.entryPos, count := w.count
        gross := if w.span ≠ 0 ∧ w.minSamples ≤ w.count then some w.grossValue else none
        short := cut && decide (w.minSamples ≤ w.count), gap := w.gap, unstable := decide (w.band < w.rawRange)
        silent := false, uncalibrated := decide (w.span = 0), zeroFault := zeroFault
        rawRange := w.rawRange, samples := buffer } := by
  unfold windowResultOf
  simp only [hasGross_iff]
  rfl

theorem windowResultOf_silent (w : OpenWindow) (zeroFault : Bool) (buffer : List Int) :
    windowResultOf w false true zeroFault buffer =
      { entryIndex := w.entryIndex, entryPos := w.entryPos, count := w.count, gross := none
        short := false, gap := w.gap, unstable := decide (w.band < w.rawRange), silent := true
        uncalibrated := decide (w.span = 0), zeroFault := zeroFault
        rawRange := w.rawRange, samples := buffer } := by
  have hnone : w.hasGross true = false := by simp [OpenWindow.hasGross]
  unfold windowResultOf
  rw [hnone]
  rfl

/-- Settles O21: the two counts of a window at and below their ends. -/
theorem windowSteps : Obligations.WindowSteps := by
  refine ⟨fun s w hmode hwindow => ⟨fun h => ?_, fun h => ?_⟩, fun s w hmode hwindow => ⟨fun h => ?_, fun h => ?_⟩⟩
  · rw [exec_eq_effect, effect_settleComplete, completeSettle_of_reached hmode hwindow h]
  · rw [exec_eq_effect, effect_settleComplete, completeSettle_of_short hmode hwindow h]
  · rw [exec_eq_effect, effect_windowClose, completeWindow_of_short hmode hwindow h]
  · rw [exec_eq_effect, effect_windowClose, completeWindow_of_reached hmode hwindow h]
    unfold closeWindow
    rw [windowResultOf_heard]
    rfl

/-! ### The silence expiries (R25, R47, R120) -/

theorem closeSilent_of_clear {s : State} (h : s.fe.mode = .clear ∨ s.fe.mode = .occupied) : closeSilent s = s := by
  unfold closeSilent
  rcases h with h | h
  · rw [h]
  · rw [h]

theorem closeSilent_of_reading {s : State} (h : s.fe.mode = .zeroReading) :
    closeSilent s = s.withFe { s.fe with accSum := 0, accCount := 0 } := by
  unfold closeSilent
  rw [h]

theorem closeSilent_of_open {s : State} {w : OpenWindow} (h : s.fe.mode = .settle ∨ s.fe.mode = .window)
    (hw : s.fe.window = some w) : closeSilent s = closeWindow w false true s := by
  unfold closeSilent
  rcases h with h | h
  · rw [h, hw]
  · rw [h, hw]

theorem closeSilent_word (s : State) : (closeSilent s).statusWord = s.statusWord := by
  unfold closeSilent
  split <;> rfl

/-- The report of an expiry is against the state before the window closed, which has the same status word (R47, R191). -/
theorem digitiserSilenced_eq {s t : State} (hword : t.statusWord = s.statusWord) : digitiserSilenced t = report s (t.withFe { t.fe with
      mode := .silent
      expected := none
      timer := none
      weigherSilent := true
      counters := { t.fe.counters with silences := tally t.fe.counters.silences 1 } }) := by
  have hkept : (t.withFe { t.fe with
      mode := .silent
      expected := none
      timer := none
      counters := { t.fe.counters with silences := tally t.fe.counters.silences 1 } }).statusWord = s.statusWord := hword
  unfold digitiserSilenced setWeigherSilent
  rw [report_congr _ hkept]
  rfl

theorem encoderSilence_eq (s : State) : encoderSilence s = raiseForFault (report s { s with pos := { s.pos with
    fault := true, timer := none, counters := { s.pos.counters with faults := tally s.pos.counters.faults 1 } } }) :=
  rfl

/-- Settles O23: the two expiries, by the schedule and by the state of the window. -/
theorem silenceExpiries : Obligations.SilenceExpiries := by
  refine ⟨fun s u n htimer hu => ?_, fun s n fe htimer hfe => ?_⟩
  · have hfault : u.pos.fault = true := by rw [hu, report_pos]
    have hschedule : u.jr.schedule = s.jr.schedule := by rw [hu, report_jr]
    have hexec : exec .encoderSilenceExpiry s = .next (raiseForFault u) := by
      rw [exec_eq_effect, effect_encoderSilenceExpiry, htimer, if_pos (by rfl), encoderSilence_eq, hu]
    rw [hexec]
    unfold raiseForFault
    rw [hfault, hschedule]
    refine ⟨fun hempty => ?_, fun hfull => ?_⟩
    · rw [hempty, if_neg (by decide)]
    · rw [if_pos (by simp [hfull])]
      rfl
  · have hexec : exec .digitiserSilenceExpiry s = .next (digitiserSilenced (closeSilent s)) := by
      rw [exec_eq_effect, effect_digitiserSilenceExpiry, htimer, if_pos (by rfl), digitiserSilence_eq]
    have hclosed := digitiserSilenced_eq (closeSilent_word s)
    rw [hexec]
    refine ⟨fun hmode => ?_, fun hmode => ?_, fun w hmode hwindow => ?_⟩
    · rw [hclosed, closeSilent_of_clear hmode, hfe]
    · rw [hclosed, closeSilent_of_reading hmode, hfe]
      rfl
    · rw [hclosed, closeSilent_of_open hmode hwindow, hfe]
      unfold closeWindow
      rw [windowResultOf_silent]
      rfl

end Sys2Proof.Machine
end

section
/-!
PROOFS, the samples of the Front End: the index test of a frame, what one sample does in each state, the samples of a frame in turn,
and zero readings (sections 3.2 to 3.8).
-/

namespace Sys2Proof.Machine

/-! ### A sample frame taken (R34, R35) -/

theorem hands_withFe {s : State} {fe : FrontEnd} {role : Role} {c : Copy} {rest : List (Role × Copy)} (h : s.hands role c rest) :
    (s.withFe fe).hands role c rest := h

theorem exec_sampleFrame_of_hands {s : State} {c : Copy} {rest : List (Role × Copy)} (h : s.hands .samples c rest) :
    exec .sampleFrame s = .next (takeSamples c.payload (s.taken rest)) := by
  rw [exec_eq_effect, effect_sampleFrame, onHanded_of_hands _ h]

/-- The Front End after a frame was taken and before its samples are: the expected index follows them, the timer restarts. -/
def State.expecting (payload : List Byte) (s : State) : State :=
  s.withFe { s.fe with
    expected := some (sampleFirst payload + BitVec.ofNat 16 (sampleCount payload))
    timer := some s.ma.setup.digitiserSilence }

theorem takeSamples_stale {payload : List Byte} {s : State} (h : sampleGap s.fe.expected (sampleFirst payload) = none) :
    takeSamples payload s = s.withFe { s.fe with counters := { s.fe.counters with stale := tally s.fe.counters.stale 1 } } := by
  unfold takeSamples
  rw [h]

theorem takeSamples_taken {payload : List Byte} {s : State} {g : Nat}
    (h : sampleGap s.fe.expected (sampleFirst payload) = some g) :
    takeSamples payload s = (samplesOf payload).foldl handleSample ((leaveSilent (countGap g s)).expecting payload) := by
  unfold takeSamples
  rw [h]
  rfl

theorem sampleGap_stale {e first : Word16} (h : 32768 ≤ (first - e).toNat) : sampleGap (some e) first = none :=
  if_neg (by omega)

theorem sampleGap_within {e first : Word16} (h : (first - e).toNat ≤ 32767) : sampleGap (some e) first = some (first - e).toNat :=
  if_pos h

theorem countGap_zero (s : State) : countGap 0 s = s := rfl

/-- The missing samples counted (R34). -/
def countMissing (g : Nat) (s : State) : State :=
  s.withFe { s.fe with counters := { s.fe.counters with missing := tally s.fe.counters.missing g } }

theorem countGap_pos {g : Nat} (hg : 1 ≤ g) (s : State) : countGap g s = handleGap (countMissing g s) :=
  if_neg (by omega)

theorem leaveSilent_heard_eq {s : State} (h : s.fe.mode ≠ .silent) : leaveSilent s = s :=
  if_neg h

/-! ### What the handling of samples leaves -/

/-- What gaps and samples leave of a Front End: expected index, timer, WEIGHER_SILENT, the counters of the frames, the calibration;
the mode does not become SILENT, and no counted sample is left where there was none. -/
structure FrontEnd.Follows (fe fe' : FrontEnd) : Prop where
  expected : fe'.expected = fe.expected
  timer : fe'.timer = fe.timer
  silent : fe'.weigherSilent = fe.weigherSilent
  missing : fe'.counters.missing = fe.counters.missing
  stale : fe'.counters.stale = fe.counters.stale
  silences : fe'.counters.silences = fe.counters.silences
  calZero : fe'.calZero = fe.calZero
  calSpan : fe'.calSpan = fe.calSpan
  mode : fe.mode ≠ .silent → fe'.mode ≠ .silent
  counted : fe.counted = false → fe'.counted = false

theorem FrontEnd.Follows.refl (fe : FrontEnd) : fe.Follows fe :=
  ⟨rfl, rfl, rfl, rfl, rfl, rfl, rfl, rfl, id, id⟩

theorem FrontEnd.Follows.trans {a b c : FrontEnd} (h : a.Follows b) (k : b.Follows c) : a.Follows c :=
  ⟨k.expected.trans h.expected, k.timer.trans h.timer, k.silent.trans h.silent, k.missing.trans h.missing,
    k.stale.trans h.stale, k.silences.trans h.silences, k.calZero.trans h.calZero, k.calSpan.trans h.calSpan,
    fun hm => k.mode (h.mode hm), fun hc => k.counted (h.counted hc)⟩

theorem startZeroReading_counted (s : State) : (startZeroReading s).fe.counted = false := by
  unfold startZeroReading
  dsimp only
  split
  · split <;> rfl
  · next h => exact Bool.eq_false_iff.mpr h

theorem startZeroReading_follows (s : State) : s.fe.Follows (startZeroReading s).fe := by
  unfold startZeroReading
  dsimp only
  repeat' split
  · exact ⟨rfl, rfl, rfl, rfl, rfl, rfl, rfl, rfl, fun _ => nofun, fun _ => rfl⟩
  · exact ⟨rfl, rfl, rfl, rfl, rfl, rfl, rfl, rfl, id, fun _ => rfl⟩
  · exact .refl _

theorem closeWindow_follows (w : OpenWindow) (cut silent : Bool) (s : State) : s.fe.Follows (closeWindow w cut silent s).fe :=
  ⟨rfl, rfl, rfl, rfl, rfl, rfl, rfl, rfl, id, id⟩

theorem completeSettle_follows (s : State) : s.fe.Follows (completeSettle s).fe := by
  unfold completeSettle
  repeat' split
  · exact ⟨rfl, rfl, rfl, rfl, rfl, rfl, rfl, rfl, fun _ => nofun, id⟩
  · exact .refl _
  · exact .refl _

theorem completeWindow_follows (s : State) : s.fe.Follows (completeWindow s).fe := by
  unfold completeWindow
  repeat' split
  · exact ⟨rfl, rfl, rfl, rfl, rfl, rfl, rfl, rfl, fun _ => nofun, id⟩
  · exact .refl _
  · exact .refl _

theorem evaluateZero_follows (s : State) : s.fe.Follows (evaluateZero s).fe := by
  have hsame {fe : FrontEnd} (zero : Int) (fault done manual : Bool) (rejections : Counter) (h : fe = { s.fe with
      workingZero := zero, zeroFault := fault, zeroDone := done, manualZero := manual
      counters := { s.fe.counters with zeroRejections := rejections } }) : s.fe.Follows fe := by
    rw [h]
    exact ⟨rfl, rfl, rfl, rfl, rfl, rfl, rfl, rfl, id, id⟩
  unfold evaluateZero manualZero trackZero
  dsimp only
  repeat' split
  · rw [setZeroDone_fe, setZeroFault_fe]
    exact hsame _ _ _ _ _ rfl
  · rw [rejectZero_fe]
    exact hsame _ _ _ _ _ rfl
  · rw [setZeroFault_fe]
    exact hsame _ _ _ _ _ rfl
  · rw [rejectZero_fe]
    exact hsame _ _ _ _ _ rfl

theorem completeZeroReading_follows (s : State) : s.fe.Follows (completeZeroReading s).fe := by
  rw [completeZeroReading_eq]
  split
  · refine (evaluateZero_follows s).trans ?_
    generalize evaluateZero s = t
    exact ⟨rfl, rfl, rfl, rfl, rfl, rfl, rfl, rfl, fun _ => nofun, id⟩
  · exact .refl _

theorem plainSample_follows (sample : Int) (s : State) : s.fe.Follows (plainSample sample s).fe := by
  have hclear : s.fe.Follows (startZeroReading (countClear s)).fe := by
    obtain ⟨a, b, c, d, e, f, g, h, hmode, _⟩ := startZeroReading_follows (countClear s)
    exact ⟨a, b, c, d, e, f, g, h, hmode, fun _ => startZeroReading_counted _⟩
  have hstored (w : OpenWindow) : s.fe.Follows (s.fe.store sample w) := ⟨rfl, rfl, rfl, rfl, rfl, rfl, rfl, rfl, id, id⟩
  unfold plainSample
  split
  · exact hclear
  · exact hclear
  · refine FrontEnd.Follows.trans ?_ (completeZeroReading_follows _)
    exact ⟨rfl, rfl, rfl, rfl, rfl, rfl, rfl, rfl, id, id⟩
  · split
    · exact .refl _
    · exact (hstored _).trans (completeSettle_follows (s.withFe _))
  · split
    · exact .refl _
    · exact (hstored _).trans (completeWindow_follows (s.withFe _))
  · exact .refl _

theorem openWindow_follows (index : Word16) (sample : Int) (s : State) : s.fe.Follows (openWindow index sample s).fe := by
  refine ⟨rfl, rfl, rfl, rfl, rfl, rfl, rfl, rfl, fun _ => ?_, id⟩
  unfold openWindow
  dsimp only [State.withFe_fe]
  split <;> nofun

theorem cutWindow_follows (s : State) : s.fe.Follows (cutWindow s).fe := by
  unfold cutWindow
  split
  · exact closeWindow_follows ..
  · exact closeWindow_follows ..
  · exact .refl _

theorem handleSample_follows (x : Word16 × Int × Bool) (s : State) : s.fe.Follows (handleSample s x).fe := by
  unfold handleSample
  split
  · exact (cutWindow_follows s).trans (openWindow_follows _ _ _)
  · exact plainSample_follows _ s

theorem samples_follow (l : List (Word16 × Int × Bool)) (s : State) : s.fe.Follows (l.foldl handleSample s).fe := by
  induction l generalizing s with
  | nil => exact .refl _
  | cons x rest ih => exact (handleSample_follows x s).trans (ih _)

/-- A gap leaves the Front End as samples do, but for the missing samples it counts. -/
theorem countGap_follows (g : Nat) (s : State) : FrontEnd.Follows { s.fe with
    counters := { s.fe.counters with missing := tally s.fe.counters.missing g } } (countGap g s).fe := by
  unfold countGap
  split
  · next h =>
    rw [h, tally_zero]
    exact .refl _
  · unfold handleGap
    split
    · exact ⟨rfl, rfl, rfl, rfl, rfl, rfl, rfl, rfl, id, id⟩
    · exact ⟨rfl, rfl, rfl, rfl, rfl, rfl, rfl, rfl, id, id⟩
    · exact ⟨rfl, rfl, rfl, rfl, rfl, rfl, rfl, rfl, fun _ => nofun, id⟩
    · exact ⟨rfl, rfl, rfl, rfl, rfl, rfl, rfl, rfl, id, id⟩
    · exact ⟨rfl, rfl, rfl, rfl, rfl, rfl, rfl, rfl, id, id⟩
    · exact .refl _

theorem leaveSilent_counters (s : State) : (leaveSilent s).fe.counters = s.fe.counters ∧ (leaveSilent s).fe.calZero = s.fe.calZero ∧
    (leaveSilent s).fe.calSpan = s.fe.calSpan ∧ (leaveSilent s).fe.counted = s.fe.counted ∧ (leaveSilent s).fe.mode ≠ .silent ∧
    (s.fe.mode = .silent → (leaveSilent s).fe.weigherSilent = false) := by
  unfold leaveSilent
  split
  · dsimp only [State.withFe_fe]
    rw [setWeigherSilent_fe]
    exact ⟨rfl, rfl, rfl, rfl, nofun, fun _ => rfl⟩
  · next h => exact ⟨rfl, rfl, rfl, rfl, h, fun hs => absurd hs h⟩

/-- The gap of a frame that is taken: 0 without an expectation (R34). -/
def FrontEnd.gapTo (fe : FrontEnd) (first : Word16) : Nat :=
  match fe.expected with
  | none => 0
  | some e => (first - e).toNat

theorem sampleGap_of_taken {s : State} {first : Word16} (h : ∀ e, s.fe.expected = some e → (first - e).toNat ≤ 32767) :
    sampleGap s.fe.expected first = some (s.fe.gapTo first) := by
  unfold FrontEnd.gapTo
  cases he : s.fe.expected with
  | none => rfl
  | some e => exact sampleGap_within (h e he)

theorem takeSamples_handed (payload : List Byte) (s : State) : (takeSamples payload s).fp.handed = s.fp.handed :=
  (takeSamples_tells (l := []) payload (.refl s)).grows.handed

/-- A frame that is taken, as the Front End sees it afterwards (R34, R35). -/
theorem takeSamples_front {payload : List Byte} {s : State}
    (h : ∀ e, s.fe.expected = some e → (sampleFirst payload - e).toNat ≤ 32767) :
    (takeSamples payload s).fe.expected = some (sampleFirst payload + BitVec.ofNat 16 (byteAt payload 2).toNat) ∧
      (takeSamples payload s).fe.timer = some s.ma.setup.digitiserSilence ∧ (takeSamples payload s).fe.mode ≠ .silent ∧
      (s.fe.mode = .silent → (takeSamples payload s).fe.weigherSilent = false) ∧
      (takeSamples payload s).fe.counters.missing = tally s.fe.counters.missing (s.fe.gapTo (sampleFirst payload)) ∧
      (takeSamples payload s).fe.counters.stale = s.fe.counters.stale ∧
      (takeSamples payload s).fe.counters.silences = s.fe.counters.silences ∧
      (takeSamples payload s).fe.calZero = s.fe.calZero ∧ (takeSamples payload s).fe.calSpan = s.fe.calSpan := by
  rw [takeSamples_taken (sampleGap_of_taken h)]
  have hgap := countGap_follows (s.fe.gapTo (sampleFirst payload)) s
  have hgapSilent : s.fe.mode = .silent → (countGap (s.fe.gapTo (sampleFirst payload)) s).fe.mode = .silent := by
    intro hmode
    unfold countGap handleGap
    split
    · exact hmode
    · rw [State.withFe_fe, hmode]
      exact hmode
  have hsetup : (leaveSilent (countGap (s.fe.gapTo (sampleFirst payload)) s)).ma = s.ma :=
    (((countGap_only _ s).mono (by decide)).trans (leaveSilent_only _)) .ma (by decide)
  generalize countGap _ s = t at hgap hgapSilent hsetup ⊢
  obtain ⟨hcounters, hcalZero, hcalSpan, _, hmode, hsilent⟩ := leaveSilent_counters t
  generalize leaveSilent t = u at *
  have hsamples := samples_follow (samplesOf payload) (u.expecting payload)
  refine ⟨hsamples.expected, ?_, hsamples.mode hmode, fun hs => hsamples.silent.trans (hsilent (hgapSilent hs)), ?_, ?_, ?_, ?_, ?_⟩
  · rw [hsamples.timer, ← hsetup]
    rfl
  · exact hsamples.missing.trans ((congrArg _ hcounters).trans hgap.missing)
  · exact hsamples.stale.trans ((congrArg _ hcounters).trans hgap.stale)
  · exact hsamples.silences.trans ((congrArg _ hcounters).trans hgap.silences)
  · exact hsamples.calZero.trans (hcalZero.trans hgap.calZero)
  · exact hsamples.calSpan.trans (hcalSpan.trans hgap.calSpan)

/-- A frame with a gap does what the same frame does without one, once the gap has acted (R34). -/
theorem takeSamples_gap {payload : List Byte} {s : State} {e : Word16} {fe : FrontEnd} (he : s.fe.expected = some e)
    (hlow : 1 ≤ (sampleFirst payload - e).toNat) (hhigh : (sampleFirst payload - e).toNat ≤ 32767) (hmode : fe.mode ≠ .silent)
    (hgap : handleGap (countMissing (sampleFirst payload - e).toNat s) = s.withFe { fe with expected := some e }) :
    takeSamples payload s = takeSamples payload (s.withFe { fe with expected := some (sampleFirst payload) }) := by
  have hfirst : sampleGap s.fe.expected (sampleFirst payload) = some (sampleFirst payload - e).toNat := by
    rw [he]
    exact sampleGap_within hhigh
  have hsecond : sampleGap (some (sampleFirst payload)) (sampleFirst payload) = some 0 := by
    have hzero : (sampleFirst payload - sampleFirst payload).toNat = 0 := by simp
    rw [sampleGap_within (by rw [hzero]; decide), hzero]
  rw [takeSamples_taken hfirst, takeSamples_taken (s := s.withFe { fe with expected := some (sampleFirst payload) }) hsecond,
    countGap_pos hlow, hgap, countGap_zero,
    leaveSilent_heard_eq (by exact hmode), leaveSilent_heard_eq (by exact hmode)]
  rfl

theorem handleGap_of_clear {s : State} (h : s.fe.mode = .clear ∨ s.fe.mode = .occupied) :
    handleGap s = s.withFe { s.fe with beltClear := 0 } := by
  unfold handleGap
  rcases h with h | h
  · rw [h]
  · rw [h]

theorem handleGap_of_reading {s : State} (h : s.fe.mode = .zeroReading) :
    handleGap s = s.withFe { s.fe with mode := .clear, beltClear := 0, accSum := 0, accCount := 0 } := by
  unfold handleGap
  rw [h]

theorem handleGap_of_open {s : State} {w : OpenWindow} (h : s.fe.mode = .settle ∨ s.fe.mode = .window)
    (hw : s.fe.window = some w) : handleGap s = s.withFe { s.fe with window := some { w with gap := true } } := by
  unfold handleGap
  rcases h with h | h
  · rw [h, hw]
    rfl
  · rw [h, hw]
    rfl

/-- Settles O18: the index test, what a frame that is taken leaves, and a gap by the state that it finds. -/
theorem sampleFrameIndexTest : Obligations.SampleFrameIndexTest := by
  intro s c rest hhands
  refine ⟨fun e he hbehind => ?_, fun htaken => ?_, fun e g fe he hg hlow hhigh hfe => ?_⟩
  · have hstale : sampleGap (s.taken rest).fe.expected (sampleFirst c.payload) = none := by
      rw [show (s.taken rest).fe.expected = some e from he]
      exact sampleGap_stale hbehind
    rw [exec_sampleFrame_of_hands hhands, takeSamples_stale hstale]
    rfl
  · obtain ⟨hexpected, htimer, hmode, hsilent, hcounters⟩ := takeSamples_front (s := s.taken rest) htaken
    have honly : OnlyChanges frontBlocks s (takeSamples c.payload (s.taken rest)) :=
      ((OnlyChanges.refl _ s).put_fp _ (by decide)).trans (takeSamples_only c.payload (s.taken rest))
    exact ⟨_, exec_sampleFrame_of_hands hhands, honly, takeSamples_handed _ _, hexpected, htimer, hmode, hsilent, hcounters⟩
  · have hgapped (fe' : FrontEnd) (hmode : fe'.mode ≠ .silent) (hexpected : fe'.expected = some (sampleFirst c.payload))
        (hgap : handleGap (countMissing g (s.taken rest)) = (s.taken rest).withFe { fe' with expected := some e }) :
        exec .sampleFrame s = exec .sampleFrame (s.withFe fe') := by
      rw [exec_sampleFrame_of_hands hhands, exec_sampleFrame_of_hands (hands_withFe hhands)]
      have htaken := takeSamples_gap (payload := c.payload) (s := s.taken rest) (fe := fe') he (hg ▸ hlow) (hg ▸ hhigh) hmode
        (hg ▸ hgap)
      rw [htaken, ← hexpected]
      rfl
    subst hfe
    refine ⟨fun hmode => hgapped _ ?_ rfl ?_, fun hmode => hgapped _ nofun rfl ?_, fun w hmode hw => hgapped _ ?_ rfl ?_⟩
    · rcases hmode with h | h <;> simp [h]
    · rw [handleGap_of_clear (s := countMissing g (s.taken rest)) hmode, ← he]
      rfl
    · rw [handleGap_of_reading (s := countMissing g (s.taken rest)) hmode, ← he]
      rfl
    · rcases hmode with h | h <;> simp [h]
    · rw [handleGap_of_open (s := countMissing g (s.taken rest)) hmode hw, ← he]
      rfl

end Sys2Proof.Machine
end

section
/-!
PROOFS, zero readings (R36, R37, R39, R40): what one leaves, and that no step leaves a counted sample to compare.
-/

namespace Sys2Proof.Machine

/-! ### No counted sample is left (log 38) -/

theorem closeSilent_counted (s : State) : (closeSilent s).fe.counted = s.fe.counted := by
  unfold closeSilent
  split <;> rfl

theorem digitiserSilence_counted (s : State) : (digitiserSilence s).fe.counted = s.fe.counted := by
  rw [digitiserSilence_eq, ← closeSilent_counted s]
  unfold digitiserSilenced
  rw [setWeigherSilent_fe]
  rfl

theorem abandonWindow_counted (s : State) : (abandonWindow s).fe.counted = s.fe.counted := by
  unfold abandonWindow
  split <;> rfl

theorem takeSamples_counted (payload : List Byte) {s : State} (h : s.fe.counted = false) :
    (takeSamples payload s).fe.counted = false := by
  cases hgap : sampleGap s.fe.expected (sampleFirst payload) with
  | none =>
    rw [takeSamples_stale hgap]
    exact h
  | some g =>
    have hcounted := (countGap_follows g s).counted h
    rw [takeSamples_taken hgap]
    generalize countGap g s = t at hcounted ⊢
    obtain ⟨_, _, _, hleft, _⟩ := leaveSilent_counters t
    exact (samples_follow _ _).counted (hleft.trans hcounted)

theorem zeroNowBody_counted (s : State) : (zeroNowBody s).1.fe.counted = s.fe.counted := by
  unfold zeroNowBody refuse
  split
  · rfl
  · dsimp only
    rw [setZeroDone_fe]
    rfl

theorem commitTable_counted (table : TableId) (first : Nat) (entries : List (List Byte)) (s : State) :
    (commitTable table first entries s).1.fe.counted = s.fe.counted := by
  have hother {l : List Block} {t : State} (k : OnlyChanges l s t) (hl : Block.fe ∉ l) : t.fe.counted = s.fe.counted :=
    congrArg FrontEnd.counted (k .fe hl)
  unfold commitTable
  cases table <;> dsimp only
  case channel => exact hother (commitChannel_only first entries s) (by decide)
  case lineSetup => exact hother (commitLineSetup_only entries s) (by decide)
  case calibration =>
    unfold commitCalibration
    dsimp only
    rw [setZeroFault_fe]
    rfl
  case product => exact hother (commitProduct_only first entries s) (by decide)
  case valve => exact hother (commitValve_only first entries s) (by decide)
  case policy => exact hother (commitPolicy_only first entries s) (by decide)

theorem CommandKind.body_counted (k : CommandKind) (args : List Byte) {s : State} (h : s.fe.counted = false) :
    (k.body args s).1.fe.counted = false := by
  by_cases hk : Block.fe ∈ k.touches
  · cases k <;> dsimp only [CommandKind.body] <;> try exact absurd hk (by decide)
    case loadSegment =>
      refine segmentBody_of (P := fun t => t.fe.counted = false) (fun {t u} hchange _ ht => ?_) args
        (fun table first entries => (commitTable_counted table first entries s).trans h) h
      have hfe : u.fe = t.fe := hchange .fe (by decide)
      exact hfe ▸ ht
    case clearCounters => exact h
    case clearAlarms =>
      rw [clearAlarms_fe]
      exact h
    case zeroNow => exact (zeroNowBody_counted s).trans h
    case resetFull => rfl
    case resetTracking =>
      obtain ⟨t, hfe, heq⟩ := trackingReset_fe s
      rw [heq, abandonWindow_counted, hfe]
      exact h
  · have hfe : (k.body args s).1.fe = s.fe := (k.body_only args s) .fe hk
    rw [hfe]
    exact h

theorem effect_counted (c : Instr) {s : State} (h : s.fe.counted = false) : (effect c s).fe.counted = false := by
  cases hc : kindOf c with
  | some k =>
    obtain rfl := eq_row_of_kindOf hc
    exact effect_row_keeps (P := fun t => t.fe.counted = false) k h (fun args => k.body_counted args h) fun c r t ht => ht
  | none =>
    by_cases htouches : Block.fe ∈ eventTouches c
    · cases c
      case powerOn => rfl
      case sampleFrame =>
        exact onHanded_of (P := fun t => t.fe.counted = false) (f := fun c => takeSamples c.payload) h (fun _ => h)
          fun c t ht => takeSamples_counted _ ht
      case zeroReadingStart => exact (startZeroReading_follows s).counted h
      case zeroReadingComplete => exact (completeZeroReading_follows s).counted h
      case settleComplete => exact (completeSettle_follows s).counted h
      case windowClose => exact (completeWindow_follows s).counted h
      case digitiserSilenceExpiry =>
        rw [effect_digitiserSilenceExpiry]
        split
        · exact (digitiserSilence_counted s).trans h
        · exact h
      case windowResult =>
        rw [effect_windowResult]
        unfold nextResult
        split
        · exact h
        · rw [(takeResult_only _ _).keep .fe (by decide)]
          exact h
      all_goals exact absurd htouches (by simp [eventTouches])
    · have hfe : (effect c s).fe = s.fe := (effect_event_only hc s) .fe htouches
      rw [hfe]
      exact h

theorem counted_keptByTimers : KeptByTimers fun s => s.fe.counted = false where
  pending _ _ h := h
  pos _ _ _ _ h := h
  fe _ _ _ _ h := h
  hold _ _ _ _ h := h
  load _ _ _ _ h := h
  status _ _ _ _ h := h

/-! ### The start of a reading (R36) -/

theorem startZeroReading_starts {s : State} (hcounted : s.fe.counted = true) (hmode : s.fe.mode = .clear ∨ s.fe.mode = .occupied)
    (h : s.ma.setup.beltClearSamples ≤ s.fe.beltClear) : startZeroReading s =
      s.withFe { s.fe with mode := .zeroReading, counted := false, accSum := 0, accCount := 0 } := by
  unfold startZeroReading
  rw [if_pos hcounted]
  exact if_pos ⟨hmode, h⟩

theorem startZeroReading_in_vain {s : State} (hcounted : s.fe.counted = true)
    (h : (s.fe.mode ≠ .clear ∧ s.fe.mode ≠ .occupied) ∨ s.fe.beltClear < s.ma.setup.beltClearSamples) :
    startZeroReading s = s.withFe { s.fe with counted := false } := by
  unfold startZeroReading
  rw [if_pos hcounted]
  refine if_neg fun hstarts => ?_
  obtain ⟨hmode, hcount⟩ := hstarts
  rcases h with ⟨hclear, hoccupied⟩ | h
  · exact hmode.elim hclear hoccupied
  · exact absurd hcount (not_le.mpr h)

theorem startZeroReading_uncounted {s : State} (h : s.fe.counted = false) : startZeroReading s = s := by
  unfold startZeroReading
  rw [if_neg (by simp [h])]

/-! ### The completion of a reading (R37, R39, R40) -/

/-- The Front End once a reading was evaluated: working zero, flags and the rejections counted (R39, R40). -/
def FrontEnd.evaluated (fe : FrontEnd) (zero : Int) (fault done : Bool) (rejections : Counter) : FrontEnd :=
  { fe with
    workingZero := zero, zeroFault := fault, zeroDone := done, manualZero := false
    counters := { fe.counters with zeroRejections := rejections } }

section Evaluated

variable {s : State} (reading : Int)

theorem trackZero_within (hmanual : s.fe.manualZero = false) (h : (reading - s.fe.workingZero).natAbs ≤ s.ma.setup.zeroTrackLimit) :
    (trackZero reading s).fe = s.fe.evaluated (s.fe.workingZero + roundDiv (reading - s.fe.workingZero) 16) false s.fe.zeroDone
      s.fe.counters.zeroRejections := by
  unfold trackZero
  dsimp only
  rw [if_pos h, setZeroFault_fe]
  unfold FrontEnd.evaluated
  rw [← hmanual]
  rfl

theorem trackZero_beyond (hmanual : s.fe.manualZero = false) (h : s.ma.setup.zeroTrackLimit < (reading - s.fe.workingZero).natAbs) :
    (trackZero reading s).fe = s.fe.evaluated s.fe.workingZero true s.fe.zeroDone (tally s.fe.counters.zeroRejections 1) := by
  unfold trackZero
  dsimp only
  rw [if_neg (not_le.mpr h), rejectZero_fe]
  unfold FrontEnd.evaluated
  rw [← hmanual]

theorem manualZero_within (h : (reading - s.fe.workingZero).natAbs ≤ s.ma.setup.zeroCaptureLimit) :
    (manualZero reading s).fe = s.fe.evaluated reading false true s.fe.counters.zeroRejections := by
  unfold manualZero
  dsimp only
  rw [if_pos h, setZeroDone_fe, setZeroFault_fe]
  rfl

theorem manualZero_beyond (h : s.ma.setup.zeroCaptureLimit < (reading - s.fe.workingZero).natAbs) :
    (manualZero reading s).fe = s.fe.evaluated s.fe.workingZero true s.fe.zeroDone (tally s.fe.counters.zeroRejections 1) := by
  unfold manualZero
  dsimp only
  rw [if_neg (not_le.mpr h), rejectZero_fe]
  rfl

end Evaluated

/-- The Front End once a reading is completed: CLEAR, with an empty accumulator, and the reading counted (R37). -/
theorem completeZeroReading_fe {s : State} (hmode : s.fe.mode = .zeroReading) (hcount : 32 ≤ s.fe.accCount) :
    (completeZeroReading s).fe = { (evaluateZero s).fe with
      mode := .clear, beltClear := 0, accSum := 0, accCount := 0
      counters := { (evaluateZero s).fe.counters with
        zeroReadings := tally (evaluateZero s).fe.counters.zeroReadings 1 } } := by
  rw [completeZeroReading_eq, if_pos ⟨hmode, hcount⟩, State.withFe_fe]

/-- The evaluation of a reading, by whether a manual zero is pending and by the limit (R39, R40). -/
theorem evaluateZero_fe {s : State} {reading diff : Int} (hreading : reading = roundDiv s.fe.accSum 32)
    (hdiff : diff = reading - s.fe.workingZero) :
    ∃ zero fault done rejections, (evaluateZero s).fe = s.fe.evaluated zero fault done rejections ∧
    (s.fe.manualZero = false → done = s.fe.zeroDone ∧
      (diff.natAbs ≤ s.ma.setup.zeroTrackLimit →
        zero = s.fe.workingZero + roundDiv diff 16 ∧ fault = false ∧ rejections = s.fe.counters.zeroRejections) ∧
      (s.ma.setup.zeroTrackLimit < diff.natAbs →
        zero = s.fe.workingZero ∧ fault = true ∧ rejections = tally s.fe.counters.zeroRejections 1)) ∧
    (s.fe.manualZero = true →
      (diff.natAbs ≤ s.ma.setup.zeroCaptureLimit →
        zero = reading ∧ fault = false ∧ done = true ∧ rejections = s.fe.counters.zeroRejections) ∧
      (s.ma.setup.zeroCaptureLimit < diff.natAbs → zero = s.fe.workingZero ∧ fault = true ∧ done = s.fe.zeroDone ∧
        rejections = tally s.fe.counters.zeroRejections 1)) := by
  subst hreading hdiff
  unfold evaluateZero
  cases hmanual : s.fe.manualZero with
  | false =>
    rw [if_neg (by decide)]
    by_cases h : (roundDiv s.fe.accSum 32 - s.fe.workingZero).natAbs ≤ s.ma.setup.zeroTrackLimit
    · exact ⟨_, _, _, _, trackZero_within _ hmanual h,
        fun _ => ⟨rfl, fun _ => ⟨rfl, rfl, rfl⟩, fun hbeyond => absurd h (not_le.mpr hbeyond)⟩, nofun⟩
    · exact ⟨_, _, _, _, trackZero_beyond _ hmanual (not_le.mp h),
        fun _ => ⟨rfl, fun hwithin => absurd hwithin h, fun _ => ⟨rfl, rfl, rfl⟩⟩, nofun⟩
  | true =>
    rw [if_pos rfl]
    by_cases h : (roundDiv s.fe.accSum 32 - s.fe.workingZero).natAbs ≤ s.ma.setup.zeroCaptureLimit
    · exact ⟨_, _, _, _, manualZero_within _ h, nofun,
        fun _ => ⟨fun _ => ⟨rfl, rfl, rfl, rfl⟩, fun hbeyond => absurd h (not_le.mpr hbeyond)⟩⟩
    · exact ⟨_, _, _, _, manualZero_beyond _ (not_le.mp h), nofun,
        fun _ => ⟨fun hwithin => absurd hwithin h, fun _ => ⟨rfl, rfl, rfl, rfl⟩⟩⟩

/-- Settles O20: the comparison of the count, and a completed reading by its limit. -/
theorem zeroReadings : Obligations.ZeroReadings := by
  refine ⟨fun s hcounted hmode h => ?_, fun s hcounted h => ?_, fun s h => ?_, fun s t hs h => ?_,
    fun s reading diff hmode hcount hreading hdiff => ?_⟩
  · rw [exec_eq_effect, effect_zeroReadingStart, startZeroReading_starts hcounted hmode h]
  · rw [exec_eq_effect, effect_zeroReadingStart, startZeroReading_in_vain hcounted h]
  · rw [exec_eq_effect, effect_zeroReadingStart, startZeroReading_uncounted h]
  · exact counted_keptByTimers.step (fun c u hu => effect_counted c hu) hs h
  · obtain ⟨zero, fault, done, rejections, hfe, htracked, hmanual⟩ := evaluateZero_fe hreading hdiff
    refine ⟨completeZeroReading s, by rw [exec_eq_effect, effect_zeroReadingComplete], completeZeroReading_only s, ?_⟩
    rw [completeZeroReading_fe hmode hcount, hfe]
    exact ⟨rfl, rfl, rfl, rfl, rfl, rfl, rfl, rfl, rfl, rfl, htracked, hmanual⟩

end Sys2Proof.Machine
end

section
/-!
PROOFS, what one sample does in each state of the Front End, and that the samples of a frame act in turn (R34 to R37, R41 to R45).
-/

namespace Sys2Proof.Machine

/-! ### Reports do not read what the Front End expects -/

theorem buildStatus_withFe {t : State} {fe : FrontEnd} (h : (t.withFe fe).statusWord = t.statusWord) :
    buildStatus (t.withFe fe) = (buildStatus t).withFe fe := by
  have hpayload : (t.withFe fe).statusPayload = t.statusPayload := by
    unfold State.statusPayload State.statusContents
    rw [h]
    rfl
  unfold buildStatus
  by_cases hnone : t.ma.setup.controller = 255
  · rw [if_pos hnone, if_pos (by exact hnone)]
  · rw [if_neg hnone, if_neg (by exact hnone), hpayload]
    rfl

/-- A report of a change, the Front End replaced by one with the same flags. -/
theorem report_withFe {s s' t : State} {fe : FrontEnd} (hold : s'.statusWord = s.statusWord)
    (hnew : (t.withFe fe).statusWord = t.statusWord) : report s' (t.withFe fe) = (report s t).withFe fe := by
  unfold report
  rw [hold, hnew]
  by_cases h : t.statusWord = s.statusWord
  · rw [if_pos h, if_pos h]
  · rw [if_neg h, if_neg h, buildStatus_withFe hnew]

/-- The state with another expected index. -/
def State.expect (s : State) (e : Word16) : State :=
  s.withFe { s.fe with expected := some e }

theorem report_expect (s t : State) (e : Word16) : report (s.expect e) (t.expect e) = (report s t).expect e := by
  unfold State.expect
  rw [report_fe]
  exact report_withFe (s := s) (t := t) rfl rfl

section Expect

variable (s : State) (e : Word16)

theorem setZeroFault_expect (b : Bool) : setZeroFault b (s.expect e) = (setZeroFault b s).expect e :=
  report_expect s (s.withFe { s.fe with zeroFault := b }) e

theorem setZeroDone_expect (b : Bool) : setZeroDone b (s.expect e) = (setZeroDone b s).expect e :=
  report_expect s (s.withFe { s.fe with zeroDone := b }) e

theorem rejectZero_expect : rejectZero (s.expect e) = (rejectZero s).expect e :=
  setZeroFault_expect (s.withFe { s.fe with
    counters := { s.fe.counters with zeroRejections := tally s.fe.counters.zeroRejections 1 } }) e true

theorem trackZero_expect (reading : Int) : trackZero reading (s.expect e) = (trackZero reading s).expect e := by
  unfold trackZero
  by_cases h : (reading - s.fe.workingZero).natAbs ≤ s.ma.setup.zeroTrackLimit
  · rw [if_pos h, if_pos (by exact h)]
    exact setZeroFault_expect (s.withFe { s.fe with
      workingZero := s.fe.workingZero + roundDiv (reading - s.fe.workingZero) 16 }) e false
  · rw [if_neg h, if_neg (by exact h)]
    exact rejectZero_expect s e

theorem manualZero_expect (reading : Int) : manualZero reading (s.expect e) = (manualZero reading s).expect e := by
  unfold manualZero
  by_cases h : (reading - s.fe.workingZero).natAbs ≤ s.ma.setup.zeroCaptureLimit
  · rw [if_pos h, if_pos (by exact h), ← setZeroDone_expect]
    exact congrArg _ (setZeroFault_expect (s.withFe { s.fe with manualZero := false, workingZero := reading }) e false)
  · rw [if_neg h, if_neg (by exact h)]
    exact rejectZero_expect (s.withFe { s.fe with manualZero := false }) e

theorem evaluateZero_expect : evaluateZero (s.expect e) = (evaluateZero s).expect e := by
  unfold evaluateZero
  by_cases h : s.fe.manualZero = true
  · rw [if_pos h, if_pos (by exact h)]
    exact manualZero_expect s e _
  · rw [if_neg h, if_neg (by exact h)]
    exact trackZero_expect s e _

theorem completeZeroReading_expect : completeZeroReading (s.expect e) = (completeZeroReading s).expect e := by
  rw [completeZeroReading_eq, completeZeroReading_eq, evaluateZero_expect]
  by_cases h : s.fe.mode = .zeroReading ∧ 32 ≤ s.fe.accCount
  · rw [if_pos h, if_pos (by exact h)]
    rfl
  · rw [if_neg h, if_neg (by exact h)]

theorem startZeroReading_expect : startZeroReading (s.expect e) = (startZeroReading s).expect e := by
  cases hcounted : s.fe.counted with
  | false => rw [startZeroReading_uncounted hcounted, startZeroReading_uncounted (s := s.expect e) hcounted]
  | true =>
    by_cases h : (s.fe.mode = .clear ∨ s.fe.mode = .occupied) ∧ s.ma.setup.beltClearSamples ≤ s.fe.beltClear
    · rw [startZeroReading_starts hcounted h.1 h.2, startZeroReading_starts (s := s.expect e) hcounted h.1 h.2]
      rfl
    · have hvain : (s.fe.mode ≠ .clear ∧ s.fe.mode ≠ .occupied) ∨ s.fe.beltClear < s.ma.setup.beltClearSamples := by
        rwa [← not_or, ← not_le, ← not_and_or]
      rw [startZeroReading_in_vain hcounted hvain, startZeroReading_in_vain (s := s.expect e) hcounted hvain]
      rfl

theorem completeSettle_expect : completeSettle (s.expect e) = (completeSettle s).expect e := by
  have hmode : (s.expect e).fe.mode = s.fe.mode := rfl
  have hwindow : (s.expect e).fe.window = s.fe.window := rfl
  unfold completeSettle
  rw [hmode, hwindow]
  split
  · split <;> rfl
  · rfl

theorem completeWindow_expect : completeWindow (s.expect e) = (completeWindow s).expect e := by
  have hmode : (s.expect e).fe.mode = s.fe.mode := rfl
  have hwindow : (s.expect e).fe.window = s.fe.window := rfl
  unfold completeWindow
  rw [hmode, hwindow]
  split
  · split <;> rfl
  · rfl

theorem cutWindow_expect : cutWindow (s.expect e) = (cutWindow s).expect e := by
  have hmode : (s.expect e).fe.mode = s.fe.mode := rfl
  have hwindow : (s.expect e).fe.window = s.fe.window := rfl
  unfold cutWindow
  rw [hmode, hwindow]
  split <;> rfl

theorem plainSample_expect (sample : Int) : plainSample sample (s.expect e) = (plainSample sample s).expect e := by
  have hmode : (s.expect e).fe.mode = s.fe.mode := rfl
  have hwindow : (s.expect e).fe.window = s.fe.window := rfl
  unfold plainSample
  rw [hmode, hwindow]
  split
  · exact startZeroReading_expect (countClear s) e
  · exact startZeroReading_expect (countClear s) e
  · exact completeZeroReading_expect (s.withFe { s.fe with accSum := s.fe.accSum + sample, accCount := s.fe.accCount + 1 }) e
  · split
    · rfl
    · exact completeSettle_expect (s.withFe (s.fe.store sample _)) e
  · split
    · rfl
    · exact completeWindow_expect (s.withFe (s.fe.store sample _)) e
  · rfl

/-- The expected index takes no part in the handling of a sample. -/
theorem handleSample_expect (x : Word16 × Int × Bool) : handleSample (s.expect e) x = (handleSample s x).expect e := by
  unfold handleSample
  split
  · rw [cutWindow_expect]
    rfl
  · exact plainSample_expect s e x.2.1

end Expect

/-! ### The samples of a frame in turn (R34) -/

theorem samplesOf_length (payload : List Byte) : (samplesOf payload).length = sampleCount payload := by
  simp [samplesOf]

theorem samplesOf_index {payload : List Byte} {i : Nat} {x : Word16 × Int × Bool} (h : (samplesOf payload)[i]? = some x) :
    x.1 = sampleFirst payload + BitVec.ofNat 16 i := by
  have hi : i < sampleCount payload := by
    rw [← samplesOf_length]
    exact (List.getElem?_eq_some_iff.mp h).1
  unfold samplesOf at h
  rw [List.getElem?_map, List.getElem?_range hi] at h
  exact (Option.some.inj h) ▸ rfl

theorem samplesOf_first {payload : List Byte} {x : Word16 × Int × Bool} {more : List (Word16 × Int × Bool)}
    (h : samplesOf payload = x :: more) : sampleFirst payload = x.1 ∧ sampleCount payload = more.length + 1 := by
  refine ⟨?_, by rw [← samplesOf_length, h, List.length_cons]⟩
  rw [samplesOf_index (payload := payload) (i := 0) (by rw [h]; rfl)]
  exact (BitVec.add_zero _).symm

theorem sampleGap_of_expected {s : State} {first : Word16} (h : s.fe.expected = none ∨ s.fe.expected = some first) :
    sampleGap s.fe.expected first = some 0 := by
  rcases h with h | h
  · rw [h]
    rfl
  · have hzero : (first - first).toNat = 0 := by simp
    rw [h, sampleGap_within (by rw [hzero]; decide), hzero]

/-- A frame without a gap: its samples in turn, SILENT left first. -/
theorem takeSamples_in_turn {payload : List Byte} {s : State}
    (h : s.fe.expected = none ∨ s.fe.expected = some (sampleFirst payload)) :
    takeSamples payload s = (samplesOf payload).foldl handleSample ((leaveSilent s).expecting payload) := by
  rw [takeSamples_taken (sampleGap_of_expected h), countGap_zero]

theorem expecting_eq_expect {s : State} {payload : List Byte} (h : s.fe.timer = some s.ma.setup.digitiserSilence) :
    s.expecting payload = s.expect (sampleFirst payload + BitVec.ofNat 16 (sampleCount payload)) := by
  unfold State.expecting State.expect
  rw [← h]

theorem taken_of_handed {s : State} {rest : List (Role × Copy)} (h : s.fp.handed = rest) (other : List (Role × Copy)) :
    (s.taken other).taken rest = s := by
  subst h
  rfl

theorem hands_cons (s : State) (role : Role) (c : Copy) (rest : List (Role × Copy)) :
    (s.taken ((role, c) :: rest)).hands role c rest :=
  ⟨[], rest, rfl, by simp, rfl⟩

/-- A frame of several samples does what its first sample does as a frame by itself, then the others as the next one (R34). -/
theorem takeSamples_split {s : State} {payload first others : List Byte} {x : Word16 × Int × Bool}
    {more : List (Word16 × Int × Bool)} (hpayload : samplesOf payload = x :: more) (hmore : more ≠ [])
    (hfirst : samplesOf first = [x]) (hothers : samplesOf others = more)
    (h : s.fe.expected = none ∨ s.fe.expected = some x.1) :
    takeSamples others (takeSamples first s) = takeSamples payload s := by
  obtain ⟨hindex, hcount⟩ := samplesOf_first hpayload
  obtain ⟨hfirstIndex, hfirstCount⟩ := samplesOf_first hfirst
  obtain ⟨y, rest, rfl⟩ := List.exists_cons_of_ne_nil hmore
  obtain ⟨hothersIndex, hothersCount⟩ := samplesOf_first hothers
  have hy : y.1 = x.1 + BitVec.ofNat 16 1 := by
    rw [samplesOf_index (payload := payload) (i := 1) (by rw [hpayload]; rfl), hindex]
  rw [takeSamples_in_turn (payload := first) (by rwa [hfirstIndex]), takeSamples_in_turn (payload := payload) (by rwa [hindex]),
    hpayload, hfirst, List.foldl_cons, List.foldl_nil, List.foldl_cons]
  have hmode : ((leaveSilent s).expecting first).fe.mode ≠ .silent := (leaveSilent_counters s).2.2.2.2.1
  have hexpecting : (leaveSilent s).expecting payload =
      ((leaveSilent s).expecting first).expect (x.1 + BitVec.ofNat 16 (sampleCount payload)) := by
    rw [← hindex]
    rfl
  have hexpected : ((leaveSilent s).expecting first).fe.expected = some y.1 := by
    rw [hy, ← hfirstIndex]
    exact congrArg (fun n => some (sampleFirst first + BitVec.ofNat 16 n)) hfirstCount
  have htimer : ((leaveSilent s).expecting first).fe.timer =
      some ((leaveSilent s).expecting first).ma.setup.digitiserSilence := rfl
  rw [hexpecting, handleSample_expect]
  generalize (leaveSilent s).expecting first = v at hmode hexpected htimer ⊢
  have hfollows := handleSample_follows x v
  have hsetup : (handleSample v x).ma = v.ma := (handleSample_only v x) .ma (by decide)
  rw [takeSamples_in_turn (payload := others) (.inr (by rw [hfollows.expected, hexpected, hothersIndex])), hothers,
    leaveSilent_heard_eq (hfollows.mode hmode), expecting_eq_expect (by rw [hfollows.timer, htimer, hsetup])]
  congr 2
  rw [hothersIndex, hothersCount, hy, hcount, BitVec.add_assoc, ← BitVec.ofNat_add]
  congr 2
  rw [List.length_cons]
  omega

/-! ### One sample (R35 to R37, R41 to R45) -/

/-- The Front End that a frame of one sample finds once it was taken. -/
theorem exec_sampleFrame_one {s : State} {c : Copy} {rest : List (Role × Copy)} {x : Word16 × Int × Bool}
    (hhands : s.hands .samples c rest) (hsamples : samplesOf c.payload = [x])
    (h : s.fe.expected = none ∨ s.fe.expected = some x.1) (hmode : s.fe.mode ≠ .silent) {fe : FrontEnd}
    (hfe : fe = { s.fe with expected := some (x.1 + 1), timer := some s.ma.setup.digitiserSilence }) :
    exec .sampleFrame s = .next (handleSample ((s.taken rest).withFe fe) x) := by
  obtain ⟨hindex, hcount⟩ := samplesOf_first hsamples
  have hexpecting : (s.taken rest).expecting c.payload = (s.taken rest).withFe fe := by
    unfold State.expecting
    rw [hindex, hcount, hfe]
    rfl
  rw [exec_sampleFrame_of_hands hhands, takeSamples_in_turn (s := s.taken rest) (by rw [hindex]; exact h),
    leaveSilent_heard_eq (s := s.taken rest) hmode, hexpecting, hsamples]
  rfl

section Plain

variable {s : State} (sample : Int)

theorem plainSample_clear (hmode : s.fe.mode = .clear ∨ s.fe.mode = .occupied) : plainSample sample s = s.withFe
    (if s.ma.setup.beltClearSamples ≤ min (s.fe.beltClear + 1) 65535 then
      { s.fe with
        mode := .zeroReading, beltClear := min (s.fe.beltClear + 1) 65535, counted := false, accSum := 0, accCount := 0 }
    else { s.fe with beltClear := min (s.fe.beltClear + 1) 65535, counted := false }) := by
  have hplain : plainSample sample s = startZeroReading (countClear s) := by
    unfold plainSample
    rcases hmode with h | h
    · rw [h]
    · rw [h]
  rw [hplain]
  split
  · next h =>
    rw [startZeroReading_starts (s := countClear s) rfl hmode h]
    rfl
  · next h =>
    rw [startZeroReading_in_vain (s := countClear s) rfl (.inr (not_le.mp h))]
    rfl

theorem plainSample_reading (hmode : s.fe.mode = .zeroReading) : plainSample sample s =
    completeZeroReading (s.withFe { s.fe with accSum := s.fe.accSum + sample, accCount := s.fe.accCount + 1 }) := by
  unfold plainSample
  rw [hmode]

theorem completeZeroReading_of_few (h : s.fe.accCount < 32) : completeZeroReading s = s := by
  rw [completeZeroReading_eq, if_neg fun hcomplete => absurd hcomplete.2 (not_le.mpr h)]

/-- A window with one more settle sample (R43). -/
def OpenWindow.settled (w : OpenWindow) : OpenWindow :=
  { w with settleCount := w.settleCount + 1 }

theorem plainSample_settle {w : OpenWindow} (hmode : s.fe.mode = .settle) (hw : s.fe.window = some w) :
    plainSample sample s = s.withFe { s.fe with
      buffer := s.fe.buffer ++ [sample]
      window := some w.settled
      mode := if w.settle ≤ w.settleCount + 1 then .window else .settle } := by
  have hplain : plainSample sample s = completeSettle (s.withFe (s.fe.store sample w.settled)) := by
    unfold plainSample
    rw [hmode, hw]
    rfl
  rw [hplain]
  split
  · next h =>
    rw [completeSettle_of_reached (s := s.withFe (s.fe.store sample w.settled)) hmode rfl h]
    rfl
  · next h =>
    rw [completeSettle_of_short (s := s.withFe (s.fe.store sample w.settled)) hmode rfl (not_le.mp h), ← hmode]
    rfl

/-- A window with one more summed sample (R44). -/
def OpenWindow.summed (w : OpenWindow) (x : Int) : OpenWindow :=
  { w with
    sum := w.sum + x
    count := w.count + 1
    range := some (match w.range with | none => (x, x) | some r => (min r.1 x, max r.2 x)) }

theorem plainSample_window {w : OpenWindow} (hmode : s.fe.mode = .window) (hw : s.fe.window = some w) :
    plainSample sample s = completeWindow (s.withFe (s.fe.store sample (w.summed sample))) := by
  have hwiden : widen sample w.range = (match w.range with | none => (sample, sample) | some r => (min r.1 sample, max r.2 sample)) := by
    cases w.range <;> rfl
  unfold plainSample OpenWindow.summed
  rw [hmode, hw, ← hwiden]

end Plain

/-! ### Entry samples (R41, R42, R45) -/

section Entry

variable {s : State} (index : Word16) (sample : Int)

theorem cutWindow_of_closed (h : s.fe.mode = .clear ∨ s.fe.mode = .occupied ∨ s.fe.mode = .zeroReading) : cutWindow s = s := by
  unfold cutWindow
  rcases h with h | h | h
  · rw [h]
  · rw [h]
  · rw [h]

theorem cutWindow_of_open {w : OpenWindow} (h : s.fe.mode = .settle ∨ s.fe.mode = .window) (hw : s.fe.window = some w) :
    cutWindow s = closeWindow w true false s := by
  unfold cutWindow
  rcases h with h | h
  · rw [h, hw]
  · rw [h, hw]

/-- The Front End in which an entry sample has opened a window with latched parameters (R41). -/
def FrontEnd.opened (fe : FrontEnd) (linePos : Word32) (settle length minSamples band : Nat) : FrontEnd :=
  { fe with
    accSum := 0, accCount := 0, buffer := [sample]
    window := some {
      entryIndex := index, entryPos := linePos, zero := fe.workingZero, span := fe.calSpan
      settle := settle, length := length, minSamples := minSamples, band := band
      settleCount := 0, count := 0, sum := 0, range := none, gap := false }
    mode := if settle = 0 then .window else .settle }

theorem openWindow_of_product {k : Fin 16} {p : Product} (hactive : s.pu.active = some k) (hp : s.pu.table[k] = some p) :
    openWindow index sample s =
      s.withFe (s.fe.opened index sample s.pos.linePos p.settle p.length p.minSamples p.band) := by
  have hparameters : s.windowParameters = (p.settle, p.length, p.minSamples, p.band) := by
    unfold State.windowParameters State.activeProduct
    rw [hactive]
    dsimp only
    rw [hp]
  unfold openWindow
  rw [hparameters]
  rfl

theorem openWindow_of_none (hactive : s.pu.active = none) :
    openWindow index sample s = s.withFe (s.fe.opened index sample s.pos.linePos 0 4 4 0) := by
  have hparameters : s.windowParameters = (0, 4, 4, 0) := by
    unfold State.windowParameters State.activeProduct
    rw [hactive]
  unfold openWindow
  rw [hparameters]
  rfl

end Entry

/-! ### A sample that ends the silence (R35) -/

theorem FramePath.offerStatus_withHanded (fp : FramePath) (x : List (Role × Copy)) (p : Port) (dest : Byte) (payload : List Byte) :
    ({ fp with handed := x } : FramePath).offerStatus p dest payload =
      { fp.offerStatus p dest payload with handed := x } := by
  have hport : FramePath.port { fp with handed := x } p = fp.port p := by
    cases p <;> rfl
  unfold FramePath.offerStatus
  rw [hport]
  dsimp only
  repeat' split
  all_goals cases p <;> rfl

theorem report_taken (s t : State) (rest : List (Role × Copy)) :
    report (s.taken rest) (t.taken rest) = (report s t).taken rest := by
  have hbuild : buildStatus (t.taken rest) = (buildStatus t).taken rest := by
    unfold buildStatus
    by_cases h : t.ma.setup.controller = 255
    · rw [if_pos h, if_pos (by exact h)]
    · rw [if_neg h, if_neg (by exact h)]
      exact congrArg (t.taken rest).withFp (FramePath.offerStatus_withHanded t.fp rest _ _ _)
  have hword : (t.taken rest).statusWord = (s.taken rest).statusWord ↔ t.statusWord = s.statusWord := Iff.rfl
  unfold report
  by_cases h : t.statusWord = s.statusWord
  · rw [if_pos h, if_pos (hword.mpr h)]
  · rw [if_neg h, if_neg (mt hword.mp h), hbuild]

/-- The Front End in CLEAR once a frame has ended the silence (R35). -/
def FrontEnd.awake (fe : FrontEnd) : FrontEnd :=
  { fe with weigherSilent := false, mode := .clear, beltClear := 0 }

theorem leaveSilent_of_silent {s : State} (h : s.fe.mode = .silent) : leaveSilent s = report s (s.withFe s.fe.awake) := by
  have hleft : leaveSilent s = (setWeigherSilent false s).withFe { (setWeigherSilent false s).fe with mode := .clear, beltClear := 0 } :=
    if_pos h
  rw [hleft, setWeigherSilent_fe]
  have hawake := report_withFe (s := s) (s' := s) (t := s.withFe { s.fe with weigherSilent := false }) (fe := s.fe.awake) rfl rfl
  change (setWeigherSilent false s).withFe s.fe.awake = _
  unfold setWeigherSilent
  rw [← hawake]
  rfl

theorem exec_sampleFrame_of_silent {s : State} {c : Copy} {rest : List (Role × Copy)} (hhands : s.hands .samples c rest)
    (hmode : s.fe.mode = .silent) (h : s.fe.expected = none ∨ s.fe.expected = some (sampleFirst c.payload)) :
    exec .sampleFrame s = exec .sampleFrame (report s (s.withFe s.fe.awake)) := by
  have hfe : (report s (s.withFe s.fe.awake)).fe = s.fe.awake := report_fe ..
  have hhanded : (report s (s.withFe s.fe.awake)).fp.handed = s.fp.handed := report_handed ..
  have hawake : leaveSilent (s.taken rest) = (report s (s.withFe s.fe.awake)).taken rest := by
    rw [leaveSilent_of_silent (s := s.taken rest) hmode]
    exact report_taken s (s.withFe s.fe.awake) rest
  have hhands' : (report s (s.withFe s.fe.awake)).hands .samples c rest := by
    unfold State.hands
    rw [hhanded]
    exact hhands
  rw [exec_sampleFrame_of_hands hhands, exec_sampleFrame_of_hands hhands', takeSamples_in_turn (s := s.taken rest) h, hawake]
  generalize report s (s.withFe s.fe.awake) = r at hfe ⊢
  have hr : (r.taken rest).fe = s.fe.awake := hfe
  rw [takeSamples_in_turn (s := r.taken rest) (by rw [hr]; exact h), leaveSilent_heard_eq (by rw [hr]; nofun)]

/-- Settles O19: a frame of one sample by state and mark, and the samples of a frame in turn. -/
theorem samplesActByState : Obligations.SamplesActByState := by
  refine ⟨fun s c first others rest x more hhands hpayload hmore hfirst hothers hexpected => ?_,
    fun s c rest index x mark fe hhands hsamples hexpected hfe => ?_⟩
  · have hhanded : (takeSamples first.payload (s.taken rest)).fp.handed = rest := takeSamples_handed ..
    have hpos : (takeSamples first.payload (s.taken rest)).pos = s.pos := (takeSamples_only _ _) .pos (by decide)
    refine ⟨takeSamples first.payload (s.taken rest), takeSamples others.payload (takeSamples first.payload (s.taken rest)),
      ?_, hhanded, hpos, ?_, ?_⟩
    · exact exec_sampleFrame_of_hands (hands_cons s .samples first rest)
    · rw [exec_sampleFrame_of_hands (hands_cons _ .samples others rest), taken_of_handed hhanded]
    · rw [exec_sampleFrame_of_hands hhands]
      exact congrArg _ (takeSamples_split (s := s.taken rest) hpayload hmore hfirst hothers hexpected).symm
  · have hone (hmode : s.fe.mode ≠ .silent) :=
      exec_sampleFrame_one (x := (index, x, mark)) hhands hsamples hexpected hmode hfe
    have hopen (h : s.fe.mode = .settle ∨ s.fe.mode = .window) : s.fe.mode ≠ .silent := by
      rcases h with h | h <;> simp [h]
    have hclosed (h : s.fe.mode = .clear ∨ s.fe.mode = .occupied ∨ s.fe.mode = .zeroReading) : s.fe.mode ≠ .silent := by
      rcases h with h | h | h <;> simp [h]
    have hplain (hmark : mark = false) (hmode : s.fe.mode ≠ .silent) :
        exec .sampleFrame s = .next (plainSample x ((s.taken rest).withFe fe)) := by
      rw [hone hmode]
      subst hmark
      rfl
    have hentry (hmark : mark = true) (hmode : s.fe.mode ≠ .silent) :
        exec .sampleFrame s = .next (openWindow index x (cutWindow ((s.taken rest).withFe fe))) := by
      rw [hone hmode]
      subst hmark
      rfl
    have hfeMode : fe.mode = s.fe.mode := by rw [hfe]
    have hfeWindow : fe.window = s.fe.window := by rw [hfe]
    have hfeCount : fe.accCount = s.fe.accCount := by rw [hfe]
    refine ⟨fun hmark hmode => ?_, fun hmark hmode hfew => ?_, fun hmark hmode hfull => ?_, fun hmode => ?_,
      fun w hmark hmode hw => ?_, fun w hmark hmode hw hfew => ?_, fun w hmark hmode hw hfull => ?_, fun hmark hmode hactive => ?_,
      fun k p hmark hmode hactive hp => ?_, fun w k p hmark hmode hw hactive hp => ?_, fun w hmark hmode hw hactive => ?_⟩
    · rw [hplain hmark (hclosed (hmode.imp_right .inl)),
        plainSample_clear (s := (s.taken rest).withFe fe) x (by rwa [State.withFe_fe, hfeMode])]
      subst hfe
      rfl
    · rw [hplain hmark (hclosed (.inr (.inr hmode))),
        plainSample_reading (s := (s.taken rest).withFe fe) x (hfeMode.trans hmode),
        completeZeroReading_of_few (by rw [State.withFe_fe, State.withFe_fe, hfeCount]; exact hfew)]
      subst hfe
      rfl
    · rw [hplain hmark (hclosed (.inr (.inr hmode))),
        plainSample_reading (s := (s.taken rest).withFe fe) x (hfeMode.trans hmode), exec_eq_effect, effect_zeroReadingComplete]
      subst hfe
      rfl
    · refine exec_sampleFrame_of_silent hhands hmode ?_
      rwa [(samplesOf_first hsamples).1]
    · rw [hplain hmark (hopen (.inl hmode)),
        plainSample_settle (s := (s.taken rest).withFe fe) x (hfeMode.trans hmode) (hfeWindow.trans hw)]
      subst hfe
      rfl
    · rw [hplain hmark (hopen (.inr hmode)),
        plainSample_window (s := (s.taken rest).withFe fe) x (hfeMode.trans hmode) (hfeWindow.trans hw),
        completeWindow_of_short (w := w.summed x) (hfeMode.trans hmode) rfl hfew]
      subst hfe
      rfl
    · rw [hplain hmark (hopen (.inr hmode)),
        plainSample_window (s := (s.taken rest).withFe fe) x (hfeMode.trans hmode) (hfeWindow.trans hw), exec_eq_effect,
        effect_windowClose]
      subst hfe
      rfl
    · rw [hentry hmark (hclosed hmode), cutWindow_of_closed (by rwa [State.withFe_fe, hfeMode]),
        openWindow_of_none (s := (s.taken rest).withFe fe) _ _ hactive]
      subst hfe
      rfl
    · rw [hentry hmark (hclosed hmode), cutWindow_of_closed (by rwa [State.withFe_fe, hfeMode]),
        openWindow_of_product (s := (s.taken rest).withFe fe) _ _ hactive hp]
      subst hfe
      rfl
    · rw [hentry hmark (hopen hmode), cutWindow_of_open (by rwa [State.withFe_fe, hfeMode]) (hfeWindow.trans hw),
        openWindow_of_product (s := closeWindow w true false ((s.taken rest).withFe fe)) _ _ hactive hp]
      unfold closeWindow
      rw [windowResultOf_heard]
      subst hfe
      rfl
    · rw [hentry hmark (hopen hmode), cutWindow_of_open (by rwa [State.withFe_fe, hfeMode]) (hfeWindow.trans hw),
        openWindow_of_none (s := closeWindow w true false ((s.taken rest).withFe fe)) _ _ hactive]
      unfold closeWindow
      rw [windowResultOf_heard]
      subst hfe
      rfl

end Sys2Proof.Machine
end

section
/-!
PROOFS, the Tracking State (section 5.6): what a change of it leaves of the Reader and the ring (R98, R99, R133, R172), that
no step leaves a risen run (log 35), and from these its thresholds.
-/

namespace Sys2Proof.Machine

/-! ### Freezing the ring (R172) -/

@[simp] theorem freezeRing_rm (cause : FreezeCause) (s : State) : (freezeRing cause s).rm = s.rm :=
  (freezeRing_only cause s) .rm (by decide)

@[simp] theorem freezeRing_ma (cause : FreezeCause) (s : State) : (freezeRing cause s).ma = s.ma :=
  (freezeRing_only cause s) .ma (by decide)

/-- A freeze condition of the alarm kind freezes whatever is not frozen by one already (R172). -/
theorem freezeRing_rc {cause : FreezeCause} (h : cause.isAlarm = true) (s : State) : (freezeRing cause s).rc =
    if s.rc.freeze = .alarm then s.rc else { s.rc with freeze := .alarm, cause := some cause } := by
  unfold freezeRing
  cases hfreeze : s.rc.freeze <;> dsimp only
  case notFrozen =>
    rw [if_neg (nofun : ¬ FreezeState.notFrozen = .alarm), if_pos h, evalTrimHold_rc, report_rc]
  case command =>
    rw [if_neg (nofun : ¬ FreezeState.command = .alarm), if_pos h, evalTrimHold_rc]
  case alarm => rw [if_pos rfl]

theorem State.trimShown.reported {s : State} (h : s.trimShown) (old : State) : (report old s).trimShown :=
  h.congr (by rw [report_te]) (by rw [report_te]) (by rw [report_rm]) (by rw [report_rc]) (by rw [report_ma])
    (by rw [report_pu])

theorem freezeRing_trim (cause : FreezeCause) {s : State} (h : s.trimShown) : (freezeRing cause s).trimShown := by
  unfold freezeRing
  split
  · exact evalTrimHold_trim _
  · split
    · exact evalTrimHold_trim _
    · exact h
  · exact h

/-! ### A change of the Tracking State (R99) -/

theorem setTracking_rm (st : TrackingState) (s : State) : (setTracking st s).rm = { s.rm with tracking := st } := by
  unfold setTracking
  dsimp only
  split
  · next h => rw [← h]
  · split
    · rw [freezeRing_rm, evalTrimHold_rm, report_rm]
    · rw [evalTrimHold_rm, report_rm]

theorem setTracking_rc (st : TrackingState) (s : State) : (setTracking st s).rc =
    if s.rm.tracking ≠ st ∧ st = .lost ∧ s.ma.setup.freezeOnLost = true ∧ s.rc.freeze ≠ .alarm then
      { s.rc with freeze := .alarm, cause := some .lost }
    else s.rc := by
  unfold setTracking
  dsimp only
  split
  · next h => rw [if_neg fun hall => hall.1 h]
  · next h =>
    rw [evalTrimHold_ma, report_ma]
    split
    · next hfreezes =>
      rw [freezeRing_rc (by rfl), evalTrimHold_rc, report_rc]
      by_cases halarm : s.rc.freeze = .alarm
      · rw [if_pos halarm, if_neg fun hall => hall.2.2.2 halarm]
      · rw [if_neg halarm, if_pos ⟨h, hfreezes.1, hfreezes.2, halarm⟩]
    · next hstays =>
      rw [if_neg fun hall => hstays ⟨hall.2.1, hall.2.2.1⟩, evalTrimHold_rc, report_rc]

theorem setTracking_only_of_not_lost {st : TrackingState} (h : st ≠ .lost) (s : State) :
    OnlyChanges [.fp, .rm, .te] s (setTracking st s) := by
  unfold setTracking
  dsimp only
  split
  · exact .refl _ s
  · rw [if_neg fun hlost => h hlost.1]
    refine .andThen (t := report s { s with rm := { s.rm with tracking := st } }) ?_ (evalTrimHold_only _) (by decide)
    exact ((OnlyChanges.refl _ s).put_rm _ (by decide)).andThen (report_only _ _) (by decide)

theorem setTracking_trim {st : TrackingState} {s : State} (h : s.rm.tracking ≠ st) : (setTracking st s).trimShown := by
  unfold setTracking
  rw [if_neg h]
  dsimp only
  split
  · exact freezeRing_trim _ (evalTrimHold_trim _)
  · exact evalTrimHold_trim _

theorem setTracking_of_eq {st : TrackingState} {s : State} (h : s.rm.tracking = st) : setTracking st s = s :=
  if_pos h

theorem breakTracking_rm (s : State) : (breakTracking s).rm = { s.rm with
    cleanRun := 0, tracking := if s.rm.tracking = .synced then .lost else s.rm.tracking } := by
  unfold breakTracking
  dsimp only
  split
  · rw [setTracking_rm]
  · rfl

theorem loseQueue_rm (s : State) : (loseQueue s).rm = { s.rm with cleanRun := 0, unreadRun := 0, tracking := .notSynced } :=
  setTracking_rm ..

/-! ### A risen run is compared (R98) -/

theorem becomeSynced_of_reached {s : State} (hrisen : s.rm.risen = some .clean) (hstate : s.rm.tracking ≠ .synced)
    (h : s.ma.setup.syncReads ≤ s.rm.cleanRun) : becomeSynced s = setTracking .synced (s.withRisen none) := by
  unfold becomeSynced
  rw [if_pos hrisen]
  exact if_pos ⟨hstate, h⟩

theorem becomeSynced_in_vain {s : State} (hrisen : s.rm.risen = some .clean)
    (h : s.rm.tracking = .synced ∨ s.rm.cleanRun < s.ma.setup.syncReads) : becomeSynced s = s.withRisen none := by
  unfold becomeSynced
  rw [if_pos hrisen]
  exact if_neg fun hall => h.elim hall.1 fun hlow => absurd hall.2 (not_le.mpr hlow)

theorem becomeLost_of_reached {s : State} (hrisen : s.rm.risen = some .unread) (hstate : s.rm.tracking = .synced)
    (h : s.ma.setup.unreadLimit ≤ s.rm.unreadRun) : becomeLost s = setTracking .lost (s.withRisen none) := by
  unfold becomeLost
  rw [if_pos hrisen]
  exact if_pos ⟨hstate, h⟩

theorem becomeLost_in_vain {s : State} (hrisen : s.rm.risen = some .unread)
    (h : s.rm.tracking ≠ .synced ∨ s.rm.unreadRun < s.ma.setup.unreadLimit) : becomeLost s = s.withRisen none := by
  unfold becomeLost
  rw [if_pos hrisen]
  exact if_neg fun hall => h.elim (fun hne => hne hall.1) fun hlow => absurd hall.2 (not_le.mpr hlow)

theorem becomeSynced_rm {s : State} (hrisen : s.rm.risen = some .clean) : (becomeSynced s).rm = { s.rm with
    risen := none, tracking := if s.ma.setup.syncReads ≤ s.rm.cleanRun then .synced else s.rm.tracking } := by
  by_cases hreached : s.ma.setup.syncReads ≤ s.rm.cleanRun
  · rw [if_pos hreached]
    by_cases hstate : s.rm.tracking = .synced
    · rw [becomeSynced_in_vain hrisen (.inl hstate), ← hstate]
      rfl
    · rw [becomeSynced_of_reached hrisen hstate hreached, setTracking_rm]
      rfl
  · rw [if_neg hreached, becomeSynced_in_vain hrisen (.inr (not_le.mp hreached))]
    rfl

theorem becomeLost_rm {s : State} (hrisen : s.rm.risen = some .unread) : (becomeLost s).rm = { s.rm with
    risen := none
    tracking := if s.rm.tracking = .synced ∧ s.ma.setup.unreadLimit ≤ s.rm.unreadRun then .lost else s.rm.tracking } := by
  by_cases hreached : s.rm.tracking = .synced ∧ s.ma.setup.unreadLimit ≤ s.rm.unreadRun
  · rw [if_pos hreached, becomeLost_of_reached hrisen hreached.1 hreached.2, setTracking_rm]
    rfl
  · rw [if_neg hreached, becomeLost_in_vain hrisen]
    · rfl
    · by_cases hstate : s.rm.tracking = .synced
      · exact .inr (not_le.mp fun hlow => hreached ⟨hstate, hlow⟩)
      · exact .inl hstate

theorem becomeSynced_risen {s : State} (h : s.rm.risen = some .clean ∨ s.rm.risen = none) :
    (becomeSynced s).rm.risen = none := by
  rcases h with h | h
  · rw [becomeSynced_rm h]
  · unfold becomeSynced
    rw [if_neg (by rw [h]; exact nofun), h]

theorem becomeLost_risen {s : State} (h : s.rm.risen = some .unread ∨ s.rm.risen = none) :
    (becomeLost s).rm.risen = none := by
  rcases h with h | h
  · rw [becomeLost_rm h]
  · unfold becomeLost
    rw [if_neg (by rw [h]; exact nofun), h]

/-! ### No risen run is left (log 35) -/

theorem breakTracking_risen (s : State) : (breakTracking s).rm.risen = s.rm.risen := by
  rw [breakTracking_rm]

theorem markFirst_risen (lot : List Byte) (s : State) : (markFirst lot s).rm.risen = s.rm.risen := by
  unfold markFirst
  dsimp only
  split <;> rfl

theorem orphanRead_risen (rd : CodeRead) (s : State) : (orphanRead rd s).rm.risen = s.rm.risen := by
  unfold orphanRead
  cases rd <;> rfl

theorem handMissing_rm (x : Word32) (records : List CanRecord) (s : State) : (handMissing x records s).rm = s.rm :=
  (handMissing_only x records s) .rm (by decide)

theorem lookaheadMatch_risen (k : Nat) (lot : List Byte) (s : State) : (lookaheadMatch k lot s).rm.risen = s.rm.risen := by
  refine (markFirst_risen lot _).trans ?_
  rw [handMissing_rm]
  rfl

theorem matchRead_risen (rd : CodeRead) {s : State} (h : s.rm.risen = none) : (matchRead rd s).rm.risen = none := by
  unfold matchRead
  split
  · exact (orphanRead_risen rd s).trans h
  · cases rd <;> dsimp only
    case noRead => exact becomeLost_risen (.inl rfl)
    case null => exact becomeLost_risen (.inl rfl)
    case tag tag lot =>
      split
      · exact becomeSynced_risen (.inl rfl)
      · split
        · exact (lookaheadMatch_risen _ lot s).trans h
        · split
          · exact h
          · exact becomeLost_risen (.inl rfl)

theorem matchLost_risen (m : Nat) : ∀ {s : State}, s.rm.risen = none → (matchLost m s).rm.risen = none := by
  induction m with
  | zero => exact fun h => h
  | succ m ih => exact fun h => ih (matchRead_risen _ h)

theorem readGap_risen (seq : Byte) {s : State} (h : s.rm.risen = none) : (readGap seq s).rm.risen = none := by
  unfold readGap
  split
  · exact h
  · dsimp only
    split
    · exact h
    · split
      · exact matchLost_risen _ h
      · exact (breakTracking_risen _).trans h

theorem takeRead_risen (c : Copy) {s : State} (h : s.rm.risen = none) : (takeRead c s).rm.risen = none :=
  matchRead_risen _ (readGap_risen c.sequence h)

theorem flushRecords_rm (s : State) : (flushRecords s).rm = s.rm :=
  (flushRecords_only s) .rm (by decide)

theorem makeRoom_risen (s : State) : (makeRoom s).rm.risen = s.rm.risen := by
  unfold makeRoom overflowFlush
  split
  · rfl
  · dsimp only
    rw [loseQueue_rm, State.withTrackingCounters_rm, flushRecords_rm]

theorem createRecord_risen (k : Fin 16) (seed : RecordSeed) (s : State) : (createRecord k seed s).rm.risen = s.rm.risen :=
  makeRoom_risen s

theorem createPlaceholders_risen (k : Fin 16) (m : Nat) : ∀ s : State,
    (createPlaceholders k m s).rm.risen = s.rm.risen := by
  induction m with
  | zero => exact fun _ => rfl
  | succ m ih => exact fun s => (ih _).trans (createRecord_risen k placeholderSeed s)

theorem dischargeGap_risen (seq : Byte) (s : State) : (dischargeGap seq s).rm.risen = s.rm.risen := by
  unfold dischargeGap
  split
  · rfl
  · dsimp only
    split
    · rfl
    · split
      · split
        · rfl
        · exact createPlaceholders_risen ..
      · exact breakTracking_risen s

theorem takeDischarge_risen (c : Copy) (s : State) : (takeDischarge c s).rm.risen = s.rm.risen := by
  rw [← dischargeGap_risen c.sequence s]
  unfold takeDischarge admitDischarge
  dsimp only
  split
  · rfl
  · split
    · exact createRecord_risen ..
    · have hfollow (v : Fin Config.valves) (a b : Bool) (t : State) : (followDischarge v a b t).rm = t.rm :=
        (followDischarge_only v a b t) .rm (by decide)
      rw [hfollow]
      exact createRecord_risen ..

theorem seamGap_risen (seq : Byte) (s : State) : (seamGap seq s).rm.risen = s.rm.risen := by
  unfold seamGap orphanSeams
  split
  · rfl
  · dsimp only
    split
    · rfl
    · split
      · split
        · rfl
        · exact breakTracking_risen _
      · exact breakTracking_risen s

theorem takeSeam_risen (c : Copy) (s : State) : (takeSeam c s).rm.risen = s.rm.risen := by
  rw [← seamGap_risen c.sequence s]
  unfold takeSeam seamOwn orphanSeams
  dsimp only
  split
  · exact breakTracking_risen _
  · have hissue (number : Word32) (t : State) : (issueTag number t).1.rm = t.rm :=
      (issueTag_only number t) .rm (by decide)
    exact congrArg Reader.risen (hissue _ _)

theorem commitTable_risen (table : TableId) (first : Nat) (entries : List (List Byte)) (s : State) :
    (commitTable table first entries s).1.rm.risen = s.rm.risen := by
  have hother {l : List Block} {t : State} (k : OnlyChanges l s t) (hl : Block.rm ∉ l) : t.rm.risen = s.rm.risen :=
    congrArg Reader.risen (k .rm hl)
  unfold commitTable
  cases table <;> dsimp only
  case channel => exact hother (commitChannel_only first entries s) (by decide)
  case lineSetup => exact hother (commitLineSetup_only entries s) (by decide)
  case calibration => exact hother (commitCalibration_only entries s) (by decide)
  case product =>
    unfold commitProduct refuseAt
    split
    · rfl
    · split <;> rfl
  case valve => exact hother (commitValve_only first entries s) (by decide)
  case policy => exact hother (commitPolicy_only first entries s) (by decide)

theorem trackingReset_rm (s : State) : (trackingReset s).rm = { s.rm with
    expectation := none, cleanRun := 0, unreadRun := 0, tracking := .notSynced } := by
  unfold trackingReset
  rw [(abandonWindow_only _).keep .rm (by decide), loseQueue_rm]
  simp only [forgetSequences, flushRecords_rm]

theorem CommandKind.body_risen (k : CommandKind) (args : List Byte) {s : State} (h : s.rm.risen = none) :
    (k.body args s).1.rm.risen = none := by
  by_cases hk : Block.rm ∈ k.touches
  · cases k <;> dsimp only [CommandKind.body] <;> try exact absurd hk (by decide)
    case loadSegment =>
      refine segmentBody_of (P := fun t => t.rm.risen = none) (fun {t u} hchange _ ht => ?_) args
        (fun table first entries => (commitTable_risen table first entries s).trans h) h
      have hrm : u.rm = t.rm := hchange .rm (by decide)
      exact hrm ▸ ht
    case setLot =>
      unfold setLotBody
      repeat' split
      all_goals exact h
    case clearCounters => exact h
    case resetFull => rfl
    case resetTracking =>
      rw [trackingReset_rm]
      exact h
    case resetStatistics => exact h
  · have hrm : (k.body args s).1.rm = s.rm := (k.body_only args s) .rm hk
    rw [hrm]
    exact h

theorem effect_risen (c : Instr) {s : State} (h : s.rm.risen = none) : (effect c s).rm.risen = none := by
  cases hc : kindOf c with
  | some k =>
    obtain rfl := eq_row_of_kindOf hc
    exact effect_row_keeps (P := fun t => t.rm.risen = none) k h (fun args => k.body_risen args h) fun c r t ht => ht
  | none =>
    by_cases htouches : Block.rm ∈ eventTouches c
    · cases c
      case powerOn => rfl
      case dischargeFrame =>
        exact onHanded_of (P := fun t => t.rm.risen = none) (f := takeDischarge) h (fun _ => h)
          fun c t ht => (takeDischarge_risen c t).trans ht
      case seamFrame =>
        exact onHanded_of (P := fun t => t.rm.risen = none) (f := takeSeam) h (fun _ => h)
          fun c t ht => (takeSeam_risen c t).trans ht
      case readFrame =>
        exact onHanded_of (P := fun t => t.rm.risen = none) (f := takeRead) h (fun _ => h) fun c t ht => takeRead_risen c ht
      case trackingSynced => exact becomeSynced_risen (.inr h)
      case trackingLost => exact becomeLost_risen (.inr h)
      all_goals exact absurd htouches (by simp [eventTouches])
    · have hrm : (effect c s).rm = s.rm := (effect_event_only hc s) .rm htouches
      rw [hrm]
      exact h

theorem risen_keptByTimers : KeptByTimers fun s => s.rm.risen = none where
  pending _ _ h := h
  pos _ _ _ _ h := h
  fe _ _ _ _ h := h
  hold _ _ _ _ h := h
  load _ _ _ _ h := h
  status _ _ _ _ h := h

/-! ### The thresholds of Table 5-3 -/

/-- Settles O34: a risen run at its limit changes the Tracking State, whose change the ring and Trim Hold follow; and no step
leaves a risen run. -/
theorem trackingThresholds : Obligations.TrackingThresholds := by
  unfold Obligations.TrackingThresholds
  refine ⟨fun s hrisen hstate h => ?_, fun s hrisen h => ?_, fun s hrisen => ?_, fun s hrisen hstate h => ?_,
    fun s hrisen h => ?_, fun s hrisen => ?_, fun s t h hstep => risen_keptByTimers.step (fun c _ => effect_risen c) h hstep⟩
  · have honly := ((OnlyChanges.refl _ s).put_rm { s.rm with risen := none } (by decide)).trans
      (setTracking_only_of_not_lost (st := .synced) (by decide) (s.withRisen none))
    refine ⟨_, congrArg Host.Outcome.next (becomeSynced_of_reached hrisen hstate h), honly, setTracking_rm .synced _,
      setTracking_trim (s := s.withRisen none) hstate⟩
  · exact congrArg Host.Outcome.next (becomeSynced_in_vain hrisen h)
  · exact congrArg Host.Outcome.next (if_neg hrisen)
  · have hne : s.rm.tracking ≠ .lost := by
      rw [hstate]
      exact nofun
    have hrc := setTracking_rc .lost (s.withRisen none)
    refine ⟨_, congrArg Host.Outcome.next (becomeLost_of_reached hrisen hstate h),
      ((OnlyChanges.refl _ s).put_rm { s.rm with risen := none } (by decide)).trans (setTracking_only .lost (s.withRisen none)),
      setTracking_rm .lost _, setTracking_trim (s := s.withRisen none) hne, fun hasks hfree => ?_, fun hstays => ?_⟩
    · exact hrc.trans (if_pos ⟨hne, rfl, hasks, hfree⟩)
    · refine hrc.trans (if_neg fun hall => ?_)
      obtain ⟨_, _, hasks, hfree⟩ := hall
      exact hstays.elim (fun hoff => absurd (hoff.symm.trans hasks) (by decide)) hfree
  · exact congrArg Host.Outcome.next (becomeLost_in_vain hrisen h)
  · exact congrArg Host.Outcome.next (if_neg hrisen)

/-! ### Valve events (R139, R174) -/

theorem armValve_of_stays {v : Fin Config.valves} {s : State} (h : s.te.table[v].captureInterval = 0 ∨ s.te.valves[v].countdown ≠ 0) :
    armValve v s = s := by
  unfold armValve
  exact if_neg fun hall => h.elim hall.1 fun hne => hne hall.2

theorem armValve_of_reached {v : Fin Config.valves} {s : State} (hon : s.te.table[v].captureInterval ≠ 0)
    (h : s.te.valves[v].countdown = 0) : armValve v s =
      s.setValve v { s.te.valves[v] with armed := true, countdown := s.te.table[v].captureInterval } := by
  unfold armValve
  exact if_pos ⟨hon, h⟩

end Sys2Proof.Machine
end

section
/-!
PROOFS: valve events (R139, R174), the parsing of a read (R86) and the fire position (R111).
-/

namespace Sys2Proof.Machine

/-! ### Valve events (R139, R174) -/

theorem enterFault_of_stays {v : Fin Config.valves} {s : State}
    (h : s.ma.setup.valveCount ≤ v.val ∨ s.te.table[v].mode ≠ .auto ∨
      (s.te.valves[v].state ≠ .settling ∧ s.te.valves[v].state ≠ .collecting) ∨ s.te.valves[v].unsettledRun < 32) :
    enterFault v s = s := by
  rcases h with hcount | hmode | ⟨hsettling, hcollecting⟩ | hrun
  · have hauto : s.isAuto v = false := by
      rw [← Bool.not_eq_true, State.isAuto_iff]
      exact fun hall => absurd hall.1 (not_lt.mpr hcount)
    exact if_neg (by simp [hauto])
  · have hauto : s.isAuto v = false := by
      rw [← Bool.not_eq_true, State.isAuto_iff]
      exact fun hall => hmode hall.2
    exact if_neg (by simp [hauto])
  · have hfollows : s.te.valves[v].follows = false := by
      rw [← Bool.not_eq_true, ValveRecord.follows_iff]
      exact fun hall => hall.elim hsettling hcollecting
    exact if_neg (by simp only [hfollows, Bool.and_false, Bool.false_and]; exact Bool.false_ne_true)
  · exact enterFault_of_below hrun

/-- Settles O44: each row is its operation on the valve of its code, whose condition stands or does not. -/
theorem valveEvents : Obligations.ValveEvents := by
  unfold Obligations.ValveEvents
  intro s v code hcode
  have hlt : code.toNat < Config.valves := hcode ▸ v.isLt
  have hv : (⟨code.toNat, hlt⟩ : Fin Config.valves) = v := Fin.ext hcode
  have hfault : exec (.valveFault code) s = .next (enterFault v s) := by
    rw [exec_eq_effect, effect_valveFault, dif_pos hlt, hv]
  have harm : exec (.captureArm code) s = .next (armValve v s) := by
    rw [exec_eq_effect, effect_captureArm, dif_pos hlt, hv]
  refine ⟨fun hcount hmode hstate hrun => ?_, fun hstays => ?_, fun hon hzero => ?_, fun hstays => ?_⟩
  · have henters := enterFault_of_reached ((s.isAuto_iff v).mpr ⟨hcount, hmode⟩)
      ((ValveRecord.follows_iff _).mpr hstate) hrun
    refine ⟨_, hfault, enterFault_only v s, ?_, ?_, fun x hx => ?_⟩
    · rw [henters]
      exact evalAttention_attention_of_fault (v := v) (by rw [State.setValve_same])
    · rw [henters, evalAttention_te]
      exact State.setValve_same _ _ _
    · rw [henters, evalAttention_te]
      exact State.setValve_other _ _ (Ne.symm hx)
  · rw [hfault, enterFault_of_stays hstays]
  · have hreached : armValve v s =
        s.setValve v { s.te.valves[v] with armed := true, countdown := s.te.table[v].captureInterval } :=
      if_pos ⟨hon, hzero⟩
    rw [harm, hreached]
  · have hleft : armValve v s = s := if_neg fun hall => hstays.elim hall.1 fun hne => hne hall.2
    rw [harm, hleft]

/-! ### The printed code (R86) -/

theorem hexValue_eq_none {b : Byte} (h : ¬ (0x30 ≤ b.toNat ∧ b.toNat ≤ 0x39) ∧ ¬ (0x41 ≤ b.toNat ∧ b.toNat ≤ 0x46)) :
    hexValue b = none := by
  obtain ⟨hdigit, hletter⟩ := h
  unfold hexValue
  dsimp only
  rw [if_neg hdigit, if_neg hletter]

theorem tagValue_eq_none {chars : List Byte} {b : Byte} (hb : b ∈ chars) (h : hexValue b = none) : tagValue chars = none := by
  unfold tagValue
  split
  · next x y z =>
    simp only [List.mem_cons, List.not_mem_nil, or_false] at hb
    rcases hb with rfl | rfl | rfl
    · rw [h]
    · rw [h]
      split <;> simp_all
    · rw [h]
      split <;> simp_all
  · rfl

/-- The character of a value below 16 (R86). -/
def hexDigit (d : Nat) : Byte :=
  if d < 10 then BitVec.ofNat 8 (0x30 + d) else BitVec.ofNat 8 (0x41 + (d - 10))

theorem hexValue_hexDigit {d : Nat} (h : d < 16) : hexValue (hexDigit d) = some d := by
  have hall : ∀ d : Fin 16, hexValue (hexDigit d.val) = some d.val := by decide
  exact hall ⟨d, h⟩

theorem tagValue_hexDigits (t : Tag) :
    tagValue [hexDigit (t.toNat / 256), hexDigit (t.toNat / 16 % 16), hexDigit (t.toNat % 16)] = some t := by
  have ht : t.toNat < 4096 := t.isLt
  unfold tagValue
  dsimp only
  rw [hexValue_hexDigit (by omega), hexValue_hexDigit (by omega), hexValue_hexDigit (by omega)]
  dsimp only
  refine congrArg some (BitVec.eq_of_toNat_eq ?_)
  rw [BitVec.toNat_ofNat]
  omega

theorem parseRead_of_bad_tag {setup : LineSetup} {payload : List Byte} (hstatus : (byteAt payload 0).toNat = 1)
    (hlen : (readText payload).length = setup.codeLength)
    (htag : tagValue (bytesAt (readText payload) setup.tagStart 3) = none) : parseRead setup payload = (.noRead, true) := by
  unfold parseRead
  dsimp only
  rw [if_neg (by omega), if_neg (by omega), if_neg (by omega), htag]

theorem parseRead_of_tag {setup : LineSetup} {payload : List Byte} {t : Tag} (hstatus : (byteAt payload 0).toNat = 1)
    (hlen : (readText payload).length = setup.codeLength)
    (htag : tagValue (bytesAt (readText payload) setup.tagStart 3) = some t) : parseRead setup payload =
      if t = nullTag then (.null, false)
      else (.tag t (bytesAt (readText payload) setup.lotStart setup.lotLength), false) := by
  unfold parseRead
  dsimp only
  rw [if_neg (by omega), if_neg (by omega), if_neg (by omega), htag]

/-- Settles O31: the status, the length and the three characters decide in turn. -/
theorem readsParsed : Obligations.ReadsParsed := by
  unfold Obligations.ReadsParsed
  rintro setup payload text rfl
  refine ⟨fun h => ?_, fun h => ?_, fun h hlen => ?_, fun h hlen hbad => ?_, fun t digit h hlen hdigit hchars => ?_⟩
  · unfold parseRead
    exact if_pos h
  · unfold parseRead
    dsimp only
    rw [if_neg (by omega), if_pos (by omega)]
  · unfold parseRead
    dsimp only
    rw [if_neg (by omega), if_neg (by omega), if_pos (by exact hlen)]
  · obtain ⟨b, hb, hnone⟩ := hbad
    exact parseRead_of_bad_tag h hlen (tagValue_eq_none hb (hexValue_eq_none hnone))
  · subst hdigit
    exact parseRead_of_tag h hlen ((congrArg tagValue hchars).trans (tagValue_hexDigits t))

/-! ### The fire position (R111) -/

theorem isBoundary_iff {pitch phase : Nat} {x : Word32} : isBoundary pitch phase x = true ↔ (pitch : Int) ∣ x.toNat - phase := by
  unfold isBoundary
  rw [beq_iff_eq, Int.dvd_iff_emod_eq_zero]

/-- The counts by which a position has passed the last boundary of a grid. -/
def pastBoundary (pos : Position) (sum : Word32) : Nat :=
  (((sum.toNat : Int) - pos.phase) % pos.pitch).toNat

theorem firePosition_eq (pos : Position) (offset : Nat) (entry : Word32) : firePosition pos offset entry =
    if pastBoundary pos (entry + BitVec.ofNat 32 offset) = 0 then entry + BitVec.ofNat 32 offset
    else if (entry + BitVec.ofNat 32 offset).toNat + (pos.pitch - pastBoundary pos (entry + BitVec.ofNat 32 offset)) < 2 ^ 32 then
      BitVec.ofNat 32 ((entry + BitVec.ofNat 32 offset).toNat +
        (pos.pitch - pastBoundary pos (entry + BitVec.ofNat 32 offset)))
    else BitVec.ofNat 32 pos.phase :=
  rfl

theorem pastBoundary_spec {pos : Position} (h : pos.phase < pos.pitch) (sum : Word32) :
    pastBoundary pos sum < pos.pitch ∧ (pos.pitch : Int) ∣ sum.toNat - pos.phase - pastBoundary pos sum := by
  have hpitch : (0 : Int) < pos.pitch := by omega
  have hcast : (pastBoundary pos sum : Int) = ((sum.toNat : Int) - pos.phase) % pos.pitch :=
    Int.toNat_of_nonneg (Int.emod_nonneg _ hpitch.ne')
  have hlt := Int.emod_lt_of_pos ((sum.toNat : Int) - pos.phase) hpitch
  refine ⟨by omega, ?_⟩
  rw [hcast]
  exact Int.dvd_self_sub_emod

/-- No boundary stands before the one that follows a position past a boundary. -/
theorem isBoundary_eq_false_between {pos : Position} (h : pos.phase < pos.pitch) {sum x : Word32} (hpast : pastBoundary pos sum ≠ 0)
    (hlow : sum.toNat ≤ x.toNat) (hhigh : x.toNat < sum.toNat + (pos.pitch - pastBoundary pos sum)) :
    isBoundary pos.pitch pos.phase x = false := by
  obtain ⟨hlt, hlast⟩ := pastBoundary_spec h sum
  rw [← Bool.not_eq_true, isBoundary_iff]
  intro hx
  have hbetween := Int.dvd_sub hx hlast
  exact absurd (Int.le_of_dvd (by omega) hbetween) (by omega)

/-- Settles O36: the sum is a boundary, or the next one is its pitch less what it has passed away, or none follows before the
wrap. -/
theorem firePositionIsNextBoundary : Obligations.FirePositionIsNextBoundary := by
  unfold Obligations.FirePositionIsNextBoundary
  rintro pos offset entry sum hphase hpitch rfl
  rw [firePosition_eq]
  generalize entry + BitVec.ofNat 32 offset = sum
  obtain ⟨hlt, hlast⟩ := pastBoundary_spec hphase sum
  split
  · next hzero =>
    refine ⟨isBoundary_iff.mpr ?_, fun _ x hlow hhigh => absurd hlow (not_le.mpr hhigh), fun hless => absurd hless (lt_irrefl _)⟩
    rw [hzero] at hlast
    simpa using hlast
  · next hpast =>
    split
    · next hfits =>
      have hnext : (BitVec.ofNat 32 (sum.toNat + (pos.pitch - pastBoundary pos sum))).toNat =
          sum.toNat + (pos.pitch - pastBoundary pos sum) := by
        rw [BitVec.toNat_ofNat, Nat.mod_eq_of_lt hfits]
      refine ⟨isBoundary_iff.mpr ?_, fun _ x hlow hhigh => ?_, fun hless => by omega⟩
      · have hstep := Int.dvd_add hlast (Int.dvd_refl (pos.pitch : Int))
        have heq : (sum.toNat : Int) - pos.phase - pastBoundary pos sum + pos.pitch =
            ((BitVec.ofNat 32 (sum.toNat + (pos.pitch - pastBoundary pos sum))).toNat : Int) - pos.phase := by omega
        exact heq ▸ hstep
      · exact isBoundary_eq_false_between hphase hpast hlow (by omega)
    · next hwraps =>
      have hphaseNat : (BitVec.ofNat 32 pos.phase).toNat = pos.phase := by
        rw [BitVec.toNat_ofNat, Nat.mod_eq_of_lt (by omega)]
      have hnone (x : Word32) (hlow : sum.toNat ≤ x.toNat) : isBoundary pos.pitch pos.phase x = false :=
        isBoundary_eq_false_between hphase hpast hlow (by have := x.isLt; omega)
      refine ⟨isBoundary_iff.mpr ?_, fun _ x hlow _ => hnone x hlow, fun _ => ⟨hphaseNat, hnone⟩⟩
      rw [hphaseNat, sub_self]
      exact Int.dvd_zero _

end Sys2Proof.Machine
end

section
/-!
PROOFS, commands (sections 11.1 and 11.2): how a row runs the command that has begun, its reply, the tests before its own
rule (R183, R189), and the commands that clear counters and alarms.
-/

namespace Sys2Proof.Machine

/-! ### A row and its command (R182, R183) -/

theorem isLoading_iff (t : TableId) (s : State) : isLoading t s = true ↔ ∃ d, s.ma.load = some d ∧ d.table = t := by
  unfold isLoading
  cases s.ma.load <;> simp

theorem CommandKind.conflicts_iff (k : CommandKind) (s : State) : k.conflicts s = true ↔ s.loadBars k := by
  cases k
  case loadBegin => exact Option.isSome_iff_ne_none
  case selectProduct => exact isLoading_iff _ s
  case setLot => exact isLoading_iff _ s
  case releaseValve => exact isLoading_iff _ s
  case captureControl => exact isLoading_iff _ s
  all_goals exact iff_of_false nofun id

theorem CommandKind.conflicts_eq_false {k : CommandKind} {s : State} (h : ¬ s.loadBars k) : k.conflicts s = false := by
  rw [← Bool.not_eq_true, k.conflicts_iff s]
  exact h

/-- A RESET that a row executes has its scope byte (R193). -/
theorem resetKind_known {args : List Byte} {k : CommandKind} (h : resetKind args = .known k) : 1 ≤ args.length := by
  cases args with
  | nil => cases h
  | cons scope more => exact Nat.le_add_left ..

theorem commandClass_of_known {payload : List Byte} {k : CommandKind} (h : commandClass payload = .known k) :
    2 ≤ payload.length ∧ (k.required = k.need ∨ 1 ≤ (payload.drop 2).length) := by
  unfold commandClass at h
  split at h
  · next code tag args =>
    refine ⟨Nat.le_add_left .., ?_⟩
    split at h
    case h_22 => exact .inr (resetKind_known h)
    case h_9 =>
      unfold trimKind at h
      split at h <;> exact .inl (by cases h; rfl)
    all_goals cases h <;> exact .inl rfl
  · cases h

theorem CommandKind.required_le {k : CommandKind} {s : State} {c : Copy} (h : s.executes k c) (hneed : k.need ≤ c.args.length) :
    k.required ≤ c.args.length := by
  obtain ⟨_, hclass⟩ := h
  obtain ⟨_, hsame | hscope⟩ := commandClass_of_known hclass
  · exact hsame ▸ hneed
  · have hone : 1 ≤ c.args.length := hscope
    cases k <;> first | exact hneed | exact hone

/-- A command that has all its arguments, and with which no load conflicts, ends with the reply of its own rule. -/
theorem exec_row_of_body {k : CommandKind} {s t : State} {c : Copy} {r : Reply} (h : s.executes k c)
    (hneed : k.need ≤ c.args.length) (hbars : ¬ s.loadBars k) (hbody : k.body c.args s = (t, r)) :
    exec k.row s = .next (t.replied c r) := by
  rw [exec_eq_effect, effect_row]
  exact congrArg Host.Outcome.next
    (runCommand_of_executes h (k.required_le h hneed) (CommandKind.conflicts_eq_false hbars) hbody)

theorem runCommand_of_tested {k : CommandKind} {need : Nat} {busy : State → Bool} {body : List Byte → State → State × Reply}
    {s t : State} {c : Copy} {r : Reply} (h : s.executes k c) (htested : testedCommand need busy body c.args s = (t, r)) :
    runCommand k need busy body s = t.replied c r := by
  obtain ⟨hexecuting, hclass⟩ := h
  rw [runCommand, hexecuting]
  dsimp only
  rw [if_pos hclass, ← Copy.args, htested, State.replied]

theorem CommandKind.need_le_required (k : CommandKind) : k.need ≤ k.required := by
  cases k <;> decide

/-- A RESET is barred by no load. -/
theorem CommandKind.required_of_bars {k : CommandKind} {s : State} (h : s.loadBars k) : k.required = k.need := by
  cases k <;> first | rfl | exact h.elim

/-! ### Replies (R12, R14) -/

theorem FramePath.offer_joins {fp : FramePath} {cls : EgressClass} {p : Port} (dest : Byte) (payload : List Byte)
    (hup : (fp.port p).linkUp = true) (hroom : ((fp.port p).queue cls).length < classCapacity cls) :
    fp.offer cls p false dest payload =
      ({ fp.setPort p ((fp.port p).setQueue cls ((fp.port p).queue cls ++
          [insertedFrame fp.station dest 240 fp.seqMgmt payload])) with seqMgmt := fp.seqMgmt + 1 }, true) := by
  unfold FramePath.offer
  rw [if_pos ((PortState.accepts_iff _ cls).mpr ⟨hup, hroom⟩)]
  cases p <;> rfl

theorem PortState.not_accepts {ps : PortState} {cls : EgressClass}
    (h : ps.linkUp = false ∨ classCapacity cls ≤ (ps.queue cls).length) : ¬ ps.accepts cls = true := fun haccepts => by
  obtain ⟨hup, hroom⟩ := (PortState.accepts_iff _ _).mp haccepts
  rcases h with h | h
  · exact absurd (hup.symm.trans h) (by decide)
  · exact absurd hroom (not_lt.mpr h)

theorem FramePath.offer_drops {fp : FramePath} {cls : EgressClass} {p : Port} (dest : Byte) (payload : List Byte)
    (hcls : cls ≠ .capture) (h : (fp.port p).linkUp = false ∨ classCapacity cls ≤ ((fp.port p).queue cls).length) :
    fp.offer cls p false dest payload = (fp.setPort p ((fp.port p).countDropped 1), false) := by
  unfold FramePath.offer
  rw [if_neg (PortState.not_accepts h), if_neg hcls]

theorem FramePath.offer_capture_waits {fp : FramePath} {p : Port} (dest : Byte) (payload : List Byte)
    (h : (fp.port p).linkUp = false ∨ 2 ≤ (fp.port p).capture.length) :
    fp.offer .capture p false dest payload = (fp, false) := by
  unfold FramePath.offer
  rw [if_neg (PortState.not_accepts h), if_pos rfl]

/-- Settles O51: a reply is one offer to the REPLY queue, and the tests before a command's own rule refuse in turn. -/
theorem repliesAnswerTheSender : Obligations.RepliesAnswerTheSender := by
  unfold Obligations.RepliesAnswerTheSender
  refine ⟨by decide, fun t c r => ⟨fun hup hroom => ?_, fun hdrops => ?_⟩, fun s c kind hexecutes => ⟨fun hshort => ?_,
    fun hneed hbars => ?_⟩, fun s kind hidle => ?_⟩
  · unfold State.replied finish
    rw [FramePath.offer_joins (cls := .reply) _ _ hup hroom]
    rfl
  · unfold State.replied finish
    rw [FramePath.offer_drops (cls := .reply) _ _ (by decide) hdrops]
    rfl
  · rw [exec_eq_effect, effect_row]
    have htested : testedCommand kind.required kind.conflicts kind.body c.args s = (s, { status := .length }) := by
      rw [testedCommand, if_pos (lt_of_lt_of_le hshort kind.need_le_required)]
      rfl
    exact congrArg Host.Outcome.next (runCommand_of_tested hexecutes htested)
  · rw [exec_eq_effect, effect_row]
    have htested : testedCommand kind.required kind.conflicts kind.body c.args s = (s, { status := .busy }) := by
      rw [testedCommand, if_neg (by rw [CommandKind.required_of_bars hbars]; exact not_lt.mpr hneed),
        if_pos ((kind.conflicts_iff s).mpr hbars)]
      rfl
    exact congrArg Host.Outcome.next (runCommand_of_tested hexecutes htested)
  · rw [exec_eq_effect]
    rcases effect_row_cases kind s with hsame | ⟨c, hexecutes, _⟩
    · rw [hsame]
    · exact absurd hexecutes (hidle c)

/-! ### CLEAR_COUNTERS, CLEAR_ALARMS, ZERO_NOW (R52, R121, R186) -/

theorem raiseForFault_jr (s : State) : (raiseForFault s).jr = { s.jr with
    lineStop := s.jr.lineStop || (s.pos.fault && !s.jr.schedule.isEmpty) } := by
  unfold raiseForFault
  split
  · next h =>
    rw [raiseLineStop_jr, h, Bool.or_true]
  · next h => rw [Bool.eq_false_of_not_eq_true h, Bool.or_false]

theorem clearAlarms_stops (s : State) : (clearAlarms s).jr = { s.jr with
    unexpected := false, lineStop := decide (s.pos.fault = true ∧ s.jr.schedule ≠ []) } := by
  have hpos : (clearUnexpected (clearLineStop s)).pos = s.pos := by
    unfold clearUnexpected clearLineStop
    rw [report_pos, report_pos]
  have hjr : (clearUnexpected (clearLineStop s)).jr = { s.jr with lineStop := false, unexpected := false } := by
    rw [clearUnexpected_jr, clearLineStop_jr]
  have hstop : (s.pos.fault && !s.jr.schedule.isEmpty) = decide (s.pos.fault = true ∧ s.jr.schedule ≠ []) := by
    cases s.pos.fault <;> cases s.jr.schedule <;> rfl
  unfold clearAlarms
  rw [setZeroDone_jr, clearOverrun_jr]
  generalize clearUnexpected (clearLineStop s) = u at hpos hjr ⊢
  rw [raiseForFault_jr, hpos, hjr]
  dsimp only
  rw [Bool.false_or, hstop]

theorem clearAlarms_agent (s : State) : (clearAlarms s).ma = { s.ma with overrun := false } := by
  have hma : (clearUnexpected (clearLineStop s)).ma = s.ma := by
    unfold clearUnexpected clearLineStop
    rw [report_ma, report_ma]
  unfold clearAlarms
  generalize clearUnexpected (clearLineStop s) = u at hma ⊢
  have hraised : (raiseForFault u).ma = s.ma := ((raiseForFault_only u) .ma (by decide)).trans hma
  generalize raiseForFault u = v at hraised ⊢
  rw [(setZeroDone_only _ _).keep .ma (by decide), clearOverrun, report_ma, State.withMa_ma, hraised]

/-! ### The status interval (R14, R191, R192) -/

theorem buildStatus_of_absent {s : State} (h : s.ma.setup.controller = 255) : buildStatus s = s :=
  if_pos h

theorem buildStatus_of_controller {s : State} (h : s.ma.setup.controller ≠ 255) : buildStatus s =
    s.withFp (s.fp.offerStatus s.ma.setup.controllerPort s.ma.setup.controller s.statusPayload) :=
  if_neg h

theorem FramePath.offerStatus_down {fp : FramePath} {p : Port} (dest : Byte) (payload : List Byte)
    (h : (fp.port p).linkUp = false) : fp.offerStatus p dest payload = fp.setPort p ((fp.port p).countDropped 1) := by
  unfold FramePath.offerStatus
  dsimp only
  rw [if_neg (by rw [h]; exact Bool.false_ne_true)]

/-- A full STATUS queue loses its oldest frame to the new one (R14). -/
theorem FramePath.offerStatus_joins {fp : FramePath} {p : Port} (dest : Byte) (payload : List Byte)
    (hup : (fp.port p).linkUp = true) (hroom : (fp.port p).status.length ≤ 2) :
    (fp.offerStatus p dest payload).seqMgmt = fp.seqMgmt + 1 ∧
      ((fp.offerStatus p dest payload).port p).status = (fp.port p).status.drop ((fp.port p).status.length - 1) ++
        [insertedFrame fp.station dest 240 fp.seqMgmt payload] := by
  unfold FramePath.offerStatus
  dsimp only
  rw [if_pos hup]
  split
  · next hfits =>
    have hlow : (fp.port p).status.length - 1 = 0 := by
      have : (fp.port p).status.length < 2 := hfits
      omega
    rw [hlow, List.drop_zero]
    cases p <;> exact ⟨rfl, rfl⟩
  · next hfull =>
    have hlen : (fp.port p).status.length - 1 = 1 := by
      have : ¬ (fp.port p).status.length < 2 := hfull
      omega
    rw [hlen]
    cases p <;> exact ⟨rfl, rfl⟩

/-- Settles O56: each command is its own rule's effect, and the interval's expiry one offer and a fresh timer. -/
theorem clearAndStatusCommands : Obligations.ClearAndStatusCommands := by
  unfold Obligations.ClearAndStatusCommands
  refine ⟨fun s c h => exec_row_of_body (k := .clearCounters) h (Nat.zero_le _) id rfl, fun s c h => ?_,
    fun s c h => ⟨fun hpending => ?_, fun hfree => ?_⟩, ?_⟩
  · have hgrows := (clearAlarms_tells (.refl (l := []) s)).grows
    exact ⟨clearAlarms s, exec_row_of_body (k := .clearAlarms) h (Nat.zero_le _) id rfl, clearAlarms_only s, clearAlarms_stops s,
      clearAlarms_agent s, clearAlarms_fe s, hgrows.handed, hgrows.channels⟩
  · have hbody : zeroNowBody s = (s, { status := .busy }) := if_pos hpending
    exact exec_row_of_body (k := .zeroNow) h (Nat.zero_le _) id hbody
  · have hbody : zeroNowBody s = (setZeroDone false (s.withFe { s.fe with manualZero := true }), {}) :=
      if_neg (by rw [hfree]; exact Bool.false_ne_true)
    exact exec_row_of_body (k := .zeroNow) h (Nat.zero_le _) id hbody
  · rintro s u n port htimer rfl hu
    have hexec : exec .statusIntervalExpiry s = .next (restartStatus (buildStatus s)) := by
      rw [exec_eq_effect, effect_statusIntervalExpiry, if_pos (by rw [htimer]; rfl)]
      rfl
    have hrestart (fp : FramePath) : restartStatus (s.withFp fp) = u.withFp fp := by
      rw [hu]
      rfl
    refine ⟨fun hnone => ?_, fun hsome hdown => ?_, fun hsome hup hroom => ?_⟩
    · rw [hexec, buildStatus_of_absent hnone, hu]
      rfl
    · rw [hexec, buildStatus_of_controller hsome, FramePath.offerStatus_down _ _ hdown, hrestart, hu]
      rfl
    · obtain ⟨hseq, hstatus⟩ := FramePath.offerStatus_joins s.ma.setup.controller s.statusPayload hup hroom
      rw [hexec, buildStatus_of_controller hsome, hrestart]
      refine ⟨_, rfl, ?_, rfl, hseq, hstatus⟩
      rw [hu]
      exact ((OnlyChanges.refl _ s).put_ma _ (by decide)).put_fp _ (by decide)

end Sys2Proof.Machine
end

section
/-!
PROOFS, the commands of the Trim Engine and of the products: TRIM_CONTROL and RELEASE_VALVE (R131 to R133), SELECT_PRODUCT
and SET_LOT (R146, R163, R166).
-/

namespace Sys2Proof.Machine

/-! ### Clear requests (R154) -/

theorem clearRequests_expected (p : Fin Config.valves → Bool) (s : State) (v : Fin Config.valves) :
    (clearRequests p s).rw.expected[v] = if p v then none else s.rw.expected[v] := by
  simp [clearRequests]

theorem clearRequests_epoch (p : Fin Config.valves → Bool) (s : State) (v : Fin Config.valves) :
    (clearRequests p s).rw.epoch[v] = if p v then s.rw.epoch[v] + 1 else s.rw.epoch[v] := by
  simp [clearRequests]

theorem clearRequests_counters (p : Fin Config.valves → Bool) (s : State) :
    (clearRequests p s).rw.counters = s.rw.counters := by
  simp [clearRequests]

theorem clearRequests_te (p : Fin Config.valves → Bool) (s : State) : (clearRequests p s).te = s.te :=
  (clearRequests_only p s) .te (by decide)

theorem evalAttention_valves (s : State) : (evalAttention s).te.valves = s.te.valves := by
  rw [evalAttention_te]

theorem evalAttention_rw (s : State) : (evalAttention s).rw = s.rw := (evalAttention_only s) .rw (by decide)

theorem evalTrimHold_rw (s : State) : (evalTrimHold s).rw = s.rw := (evalTrimHold_only s) .rw (by decide)

theorem byteAt_of_cons {l more : List Byte} {b : Byte} (h : l = b :: more) : byteAt l 0 = b := by
  subst h
  rfl

theorem byteAt_of_cons_cons {l more : List Byte} {a b : Byte} (h : l = a :: b :: more) : byteAt l 1 = b := by
  subst h
  rfl

theorem length_of_cons {α : Type} {l more : List α} {a : α} (h : l = a :: more) : 1 ≤ l.length := by
  subst h
  exact Nat.le_add_left ..

/-! ### TRIM_CONTROL (R131, R133) -/

/-- What a mode that is set makes of the record of a valve (R131). -/
def moded (s : State) (m : TrimMode) (v : Fin Config.valves) : ValveRecord :=
  if v.val < s.ma.setup.valveCount ∧ s.te.table[v].mode = .auto then
    if s.te.mode = .off ∧ s.te.valves[v].state ≠ .fault then
      { s.te.valves[v] with state := .settling, n := 0, eAvg := 0, unsettledRun := 0 }
    else if s.te.mode = .hold ∧ m = .auto then { s.te.valves[v] with n := 0, eAvg := 0 }
    else s.te.valves[v]
  else s.te.valves[v]

theorem moded_of_not_auto {s : State} (m : TrimMode) {v : Fin Config.valves} (h : s.isAuto v = false) :
    moded s m v = s.te.valves[v] :=
  if_neg fun hauto => by
    rw [(s.isAuto_iff v).mpr hauto] at h
    cases h

theorem moded_of_auto {s : State} (m : TrimMode) {v : Fin Config.valves} (h : s.isAuto v = true) : moded s m v =
    if s.te.mode = .off ∧ s.te.valves[v].state ≠ .fault then
      { s.te.valves[v] with state := .settling, n := 0, eAvg := 0, unsettledRun := 0 }
    else if s.te.mode = .hold ∧ m = .auto then { s.te.valves[v] with n := 0, eAvg := 0 }
    else s.te.valves[v] :=
  if_pos ((s.isAuto_iff v).mp h)

/-- Setting another mode is its effect on the valves, then an evaluation of Trim Hold (R131, R133). -/
theorem setTrimMode_of_ne {m : TrimMode} {s : State} (h : s.te.mode ≠ m) : ∃ t : State, setTrimMode m s = evalTrimHold t ∧
    OnlyChanges [.te] s t ∧ t.te = { s.te with mode := m, valves := t.te.valves } ∧
    ∀ v : Fin Config.valves, t.te.valves[v] = moded s m v := by
  have hset : OnlyChanges [.te] s { s with te := { s.te with mode := m } } := (OnlyChanges.refl _ s).put_te _ (by decide)
  unfold setTrimMode
  rw [if_neg h]
  dsimp only
  split
  · next m _ _ hold =>
    refine ⟨_, rfl, hset.andThen (mapValves_only _ _) (by decide), rfl, fun v => ?_⟩
    rw [State.mapValves_get]
    have hauto : State.isAuto { s with te := { s.te with mode := m } } v = s.isAuto v := rfl
    rw [hauto]
    cases hv : s.isAuto v with
    | false => rw [moded_of_not_auto m hv, Bool.false_and, if_neg Bool.false_ne_true]
    | true =>
      rw [moded_of_auto m hv, Bool.true_and]
      by_cases hfault : s.te.valves[v].state = .fault
      · rw [if_neg (by simpa using hfault), if_neg fun hall => hall.2 hfault, if_neg (by rw [hold]; exact fun hall => nomatch hall.1)]
      · rw [if_pos (by simpa using hfault), if_pos ⟨hold, hfault⟩]
        rfl
  · next hold =>
    refine ⟨_, rfl, hset.andThen (mapValves_only _ _) (by decide), rfl, fun v => ?_⟩
    rw [restartCollection, State.mapValves_get]
    have hauto : State.isAuto { s with te := { s.te with mode := .auto } } v = s.isAuto v := rfl
    rw [hauto]
    cases hv : s.isAuto v with
    | false => rw [moded_of_not_auto _ hv, if_neg Bool.false_ne_true]
    | true =>
      rw [moded_of_auto _ hv, if_pos rfl, if_neg (by rw [hold]; exact fun hall => nomatch hall.1), if_pos ⟨hold, rfl⟩]
      rfl
  · next m _ _ hoff hhold =>
    refine ⟨_, rfl, hset, rfl, fun v => ?_⟩
    cases hv : s.isAuto v with
    | false => rw [moded_of_not_auto m hv]
    | true =>
      rw [moded_of_auto m hv, if_neg fun hall => hoff hall.1, if_neg fun hall => hhold hall.1 hall.2]

theorem holdsTrim_auto {s : State} (h : s.holdsTrim = true) : s.te.mode = .auto := by
  unfold State.holdsTrim at h
  rw [Bool.and_eq_true, beq_iff_eq] at h
  exact h.1

theorem trimBody_of_code {m : TrimMode} {args : List Byte} (h : byteAt args 0 = trimModeCode m) (s : State) :
    trimBody args s = (setTrimMode m s, {}) := by
  unfold trimBody
  rw [h]
  cases m <;> rfl

theorem trimBody_of_unlisted {args : List Byte} (h : 3 < (byteAt args 0).toNat) (s : State) :
    trimBody args s = (s, { status := .badArgument }) := by
  unfold trimBody
  split
  iterate 3 omega
  rfl

/-- RELEASE_VALVE of a valve in FAULT (R132). -/
theorem releaseFault_of_fault {v : Fin Config.valves} {s : State} (h : s.te.valves[v].state = .fault) : releaseFault v s =
    evalAttention (clearRequests (fun u => u == v) (s.setValve v { s.te.valves[v].afresh with state := .settling })) :=
  if_pos h

theorem releaseBody_of_valve {args : List Byte} {v : Fin Config.valves} (h : v.val = (byteAt args 1).toNat) (s : State) :
    releaseBody args s = (releaseFault v s, {}) := by
  unfold releaseBody
  rw [dif_pos (h ▸ v.isLt)]
  congr 2
  exact Fin.ext h.symm

/-- Settles O43: a mode that is set acts on the AUTO valves before Trim Hold is evaluated, which then ends under no mode that
restarts; a FAULT valve released starts over with a clear request. -/
theorem trimCommands : Obligations.TrimCommands := by
  unfold Obligations.TrimCommands
  refine ⟨fun s c code more h hargs htrim => ⟨fun hcode => ?_, ?_⟩, fun s c action valve more h hargs hbars => ⟨fun hhigh => ?_,
    fun v hv => ⟨fun hstate => ?_, fun hstate => ?_⟩⟩⟩
  · refine exec_row_of_body (k := .trimControl) h (length_of_cons hargs) id (trimBody_of_unlisted ?_ s)
    rwa [byteAt_of_cons hargs]
  · rintro m rfl
    have hexec := exec_row_of_body (k := .trimControl) h (length_of_cons hargs) id (trimBody_of_code (byteAt_of_cons hargs) s)
    refine ⟨fun hsame => ?_, fun hne => ?_⟩
    · have hleft : setTrimMode m s = s := if_pos hsame.symm
      rwa [hleft] at hexec
    · obtain ⟨t, heq, honly, hte, hvalves⟩ := setTrimMode_of_ne (Ne.symm hne)
      rw [heq] at hexec
      have hmode : t.te.mode = m := by rw [hte]
      have htrimHold : t.te.trimHold = s.te.trimHold := by rw [hte]
      have hkeeps : ¬ (t.te.trimHold = true ∧ t.holdsTrim = false ∧ t.te.mode = .auto) := by
        rintro ⟨hstood, _, hauto⟩
        have hmodeAuto := holdsTrim_auto (htrim.symm.trans (htrimHold.symm.trans hstood))
        exact hne (hmode.symm.trans (hauto.trans hmodeAuto.symm))
      have hfinal := evalTrimHold_te_eq t
      rw [if_neg hkeeps] at hfinal
      refine ⟨_, hexec, (honly.mono (by decide)).andThen (evalTrimHold_only t) (by decide), ?_, ?_, ?_, evalTrimHold_trim t,
        fun v => ?_⟩
      · rw [hfinal, hte]
      · rw [hfinal, hte]
      · rw [hfinal, hte]
      · rw [hfinal]
        exact hvalves v
  · have hbody : releaseBody c.args s = (s, { status := .badArgument }) := by
      unfold releaseBody
      rw [byteAt_of_cons_cons hargs, dif_neg (by show ¬ valve.toNat < 96; omega)]
      rfl
    exact exec_row_of_body (k := .releaseValve) h (by rw [hargs]; exact Nat.le_add_left ..) hbars hbody
  · have hleft : releaseFault v s = s := if_neg hstate
    have hbody := releaseBody_of_valve (args := c.args) (by rwa [byteAt_of_cons_cons hargs]) s
    rw [hleft] at hbody
    exact exec_row_of_body (k := .releaseValve) h (by rw [hargs]; exact Nat.le_add_left ..) hbars hbody
  · have hbody := releaseBody_of_valve (args := c.args) (by rwa [byteAt_of_cons_cons hargs]) s
    have heq := releaseFault_of_fault hstate
    have honly := releaseFault_only v s
    rw [heq] at hbody honly
    refine ⟨_, exec_row_of_body (k := .releaseValve) h (by rw [hargs]; exact Nat.le_add_left ..) hbars hbody, honly, ?_, ?_, ?_, ?_,
      evalAttention_attention _, fun x hx => ⟨?_, ?_, ?_⟩⟩
    · rw [evalAttention_valves, clearRequests_te]
      exact State.setValve_same ..
    · rw [evalAttention_rw, clearRequests_expected, if_pos (beq_self_eq_true v)]
    · rw [evalAttention_rw, clearRequests_epoch, if_pos (beq_self_eq_true v), State.setValve_rw]
    · rw [evalAttention_rw, clearRequests_counters, State.setValve_rw]
    · rw [evalAttention_valves, clearRequests_te]
      exact State.setValve_other _ _ hx.symm
    · rw [evalAttention_rw, clearRequests_expected, if_neg (by simpa using hx), State.setValve_rw]
    · rw [evalAttention_rw, clearRequests_epoch, if_neg (by simpa using hx), State.setValve_rw]

/-! ### SELECT_PRODUCT (R146, R154, R163) -/

/-- What a selection makes of the record of a valve below the valve count (R146). -/
def selected (s : State) (v : Fin Config.valves) (r : ValveRecord) : ValveRecord :=
  if v.val < s.ma.setup.valveCount then
    match s.te.table[v].mode with
    | .auto => { r.afresh with state := .settling, trim := 0 }
    | .fixed => { r with trim := clampTrim s.activeProduct s.te.table[v].fixedTrim }
    | .excluded => r
  else r

theorem selected_of_auto {s : State} {v : Fin Config.valves} (hcount : v.val < s.ma.setup.valveCount)
    (hmode : s.te.table[v].mode = .auto) (r : ValveRecord) : selected s v r = { r.afresh with state := .settling, trim := 0 } := by
  rw [selected, if_pos hcount, hmode]

theorem selected_of_fixed {s : State} {v : Fin Config.valves} (hcount : v.val < s.ma.setup.valveCount)
    (hmode : s.te.table[v].mode = .fixed) (r : ValveRecord) :
    selected s v r = { r with trim := clampTrim s.activeProduct s.te.table[v].fixedTrim } := by
  rw [selected, if_pos hcount, hmode]

theorem selected_of_excluded {s : State} {v : Fin Config.valves}
    (h : s.ma.setup.valveCount ≤ v.val ∨ s.te.table[v].mode = .excluded) (r : ValveRecord) : selected s v r = r := by
  rw [selected]
  split
  · next hcount =>
    rw [h.resolve_left (not_le.mpr hcount)]
  · rfl

theorem applySelection_eq (s : State) : applySelection s =
    evalTrimHold (evalAttention (clearRequests (fun v => s.isAuto v) (s.mapValves (selected s)))) :=
  rfl

/-- The Trim Engine when the flags are evaluated after a selection (R146). -/
theorem selected_te (s : State) (p : Fin Config.valves → Bool) : ∃ attention,
    (evalAttention (clearRequests p (s.mapValves (selected s)))).te =
      { s.te with valves := Vector.ofFn fun v => selected s v s.te.valves[v], attention := attention } := by
  rw [evalAttention_te, clearRequests_te, State.mapValves_te]
  exact ⟨_, rfl⟩

theorem selected_ma (s : State) (p : Fin Config.valves → Bool) :
    (evalAttention (clearRequests p (s.mapValves (selected s)))).ma = s.ma := by
  rw [evalAttention_ma, (clearRequests_only _ _).keep .ma (by decide), State.mapValves_ma]

/-- A valve after a selection is as the selection makes it, its collection restarted once more at most (R134, R146). -/
theorem applySelection_valve (s : State) (v : Fin Config.valves) :
    (applySelection s).te.valves[v] = selected s v s.te.valves[v] ∨
      s.isAuto v = true ∧ (applySelection s).te.valves[v] = (selected s v s.te.valves[v]).restart := by
  obtain ⟨attention, hte⟩ := selected_te s fun v => s.isAuto v
  have hma := selected_ma s fun v => s.isAuto v
  rw [applySelection_eq]
  generalize evalAttention (clearRequests (fun v => s.isAuto v) (s.mapValves (selected s))) = t at hte hma ⊢
  have hmapped : t.te.valves[v] = selected s v s.te.valves[v] := by
    rw [hte]
    simp
  have hauto : t.isAuto v = s.isAuto v := by
    unfold State.isAuto
    rw [hte, hma]
  rcases evalTrimHold_valve t v with h | ⟨hv, h⟩
  · exact .inl (h.trans hmapped)
  · exact .inr ⟨hauto.symm.trans hv, h.trans (congrArg ValveRecord.restart hmapped)⟩

theorem applySelection_rw (s : State) :
    (applySelection s).rw = (clearRequests (fun v => s.isAuto v) (s.mapValves (selected s))).rw := by
  rw [applySelection_eq, evalTrimHold_rw, evalAttention_rw]

theorem applySelection_frame (s : State) :
    (applySelection s).te.mode = s.te.mode ∧ (applySelection s).te.table = s.te.table := by
  obtain ⟨attention, hte⟩ := selected_te s fun v => s.isAuto v
  rw [applySelection_eq, evalTrimHold_te_eq, hte]
  exact ⟨rfl, rfl⟩

theorem applySelection_trim (s : State) : (applySelection s).trimShown := by
  rw [applySelection_eq]
  exact evalTrimHold_trim _

theorem applySelection_attention (s : State) : (applySelection s).attentionShown := by
  rw [applySelection_eq]
  exact evalTrimHold_attention (evalAttention_attention _)

/-- SELECT_PRODUCT of a product that stands in its slot, or of none (R163). -/
theorem selectBody_of_selected {s : State} {args : List Byte} {slot : Byte} {active : Option (Fin 16)} {p : Option Product}
    (hslot : byteAt args 0 = slot) (h : (active = none ∧ slot = 255 ∧ p = none) ∨
      (∃ k : Fin 16, active = some k ∧ k.val = slot.toNat ∧ p = s.pu.table[k] ∧ p ≠ none)) :
    selectBody args s = (selectProduct active s, {}) := by
  unfold selectBody
  rw [hslot]
  rcases h with ⟨rfl, rfl, _⟩ | ⟨k, rfl, hk, rfl, hsome⟩
  · rfl
  · have hlt : slot.toNat < 16 := hk ▸ k.isLt
    have heq : (⟨slot.toNat, hlt⟩ : Fin 16) = k := Fin.ext hk.symm
    dsimp only
    rw [if_neg (by omega), dif_pos hlt]
    have hget : s.pu.table[slot.toNat]'hlt = s.pu.table[k] := by
      simp only [Fin.getElem_fin, hk]
    rw [if_pos (by rw [hget]; exact Option.isSome_iff_ne_none.mpr hsome), heq]

theorem activeProduct_of_selected {s : State} {slot : Byte} {active : Option (Fin 16)} {p : Option Product}
    (h : (active = none ∧ slot = 255 ∧ p = none) ∨
      (∃ k : Fin 16, active = some k ∧ k.val = slot.toNat ∧ p = s.pu.table[k] ∧ p ≠ none)) :
    State.activeProduct { s with pu := { s.pu with active := active } } = p := by
  rcases h with ⟨rfl, _, rfl⟩ | ⟨k, rfl, _, rfl, _⟩ <;> rfl

theorem selectBody_refuses {s : State} {args : List Byte} {slot : Byte} (hslot : byteAt args 0 = slot) (hnone : slot ≠ 255)
    (h : ∀ hlt : slot.toNat < 16, s.pu.table[slot.toNat] = none) : selectBody args s = (s, { status := .badArgument }) := by
  have hne : slot.toNat ≠ 255 := fun heq => hnone (BitVec.eq_of_toNat_eq heq)
  unfold selectBody
  rw [hslot]
  dsimp only
  rw [if_neg hne]
  split
  · next hlt =>
    rw [if_neg (by rw [h hlt]; exact Bool.false_ne_true)]
    rfl
  · rfl

section Selection

variable {s : State} {slot : Byte} {active : Option (Fin 16)} {p : Option Product}

theorem selectProduct_eq (active : Option (Fin 16)) (s : State) :
    selectProduct active s = applySelection { s with pu := { s.pu with active := active } } :=
  rfl

theorem selectProduct_shown (active : Option (Fin 16)) (s : State) : (selectProduct active s).te.mode = s.te.mode ∧
    (selectProduct active s).te.table = s.te.table ∧ (selectProduct active s).trimShown ∧
    (selectProduct active s).attentionShown := by
  have key (t : State) (hte : t.te = s.te) : (applySelection t).te.mode = s.te.mode ∧
      (applySelection t).te.table = s.te.table ∧ (applySelection t).trimShown ∧ (applySelection t).attentionShown := by
    obtain ⟨hmode, htable⟩ := applySelection_frame t
    exact ⟨by rw [hmode, hte], by rw [htable, hte], applySelection_trim t, applySelection_attention t⟩
  rw [selectProduct_eq]
  exact key _ rfl

/-- An AUTO valve below the valve count starts over from trim 0 with a clear request (R146, R154). -/
theorem applySelection_auto {t : State} {v : Fin Config.valves} (h : t.isAuto v = true) :
    (applySelection t).te.valves[v] = { t.te.valves[v] with
        trim := 0, state := .settling, n := 0, eAvg := 0, unsettledRun := 0, limit := false } ∧
      (applySelection t).rw.expected[v] = none ∧ (applySelection t).rw.epoch[v] = t.rw.epoch[v] + 1 := by
  obtain ⟨hcount, hmode⟩ := (t.isAuto_iff v).mp h
  have hvalve := applySelection_valve t v
  rw [selected_of_auto hcount hmode] at hvalve
  refine ⟨hvalve.elim id fun hrestarted => hrestarted.2, ?_, ?_⟩
  · rw [applySelection_rw, clearRequests_expected, if_pos h]
  · rw [applySelection_rw, clearRequests_epoch, if_pos h, State.mapValves_rw]

/-- Any other valve takes what its mode says and sends no clear request (R146, R154). -/
theorem applySelection_not_auto {t : State} {v : Fin Config.valves} (h : t.isAuto v = false) :
    (applySelection t).te.valves[v] = selected t v t.te.valves[v] ∧
      (applySelection t).rw.expected[v] = t.rw.expected[v] ∧ (applySelection t).rw.epoch[v] = t.rw.epoch[v] := by
  have hne := Bool.eq_false_iff.mp h
  refine ⟨(applySelection_valve t v).elim id fun hrestarted => absurd hrestarted.1 hne, ?_, ?_⟩
  · rw [applySelection_rw, clearRequests_expected, if_neg hne, State.mapValves_rw]
  · rw [applySelection_rw, clearRequests_epoch, if_neg hne, State.mapValves_rw]

theorem not_auto_of {v : Fin Config.valves} (h : s.ma.setup.valveCount ≤ v.val ∨ s.te.table[v].mode ≠ .auto) :
    s.isAuto v = false := by
  rw [← Bool.not_eq_true, s.isAuto_iff]
  exact fun hauto => h.elim (fun hhigh => absurd hauto.1 (not_lt.mpr hhigh)) fun hne => hne hauto.2

/-- What a selection makes of a valve, mode by mode (R146, R154), in terms of a state with the same valves and Line Setup. -/
theorem applySelection_by_mode {t : State} (hte : t.te = s.te) (hma : t.ma = s.ma) (hrw : t.rw = s.rw)
    (hp : t.activeProduct = p) (v : Fin Config.valves) :
    (v.val < s.ma.setup.valveCount → s.te.table[v].mode = .auto →
      (applySelection t).te.valves[v] = { s.te.valves[v] with
        trim := 0, state := .settling, n := 0, eAvg := 0, unsettledRun := 0, limit := false } ∧
      (applySelection t).rw.expected[v] = none ∧ (applySelection t).rw.epoch[v] = s.rw.epoch[v] + 1) ∧
    (v.val < s.ma.setup.valveCount → s.te.table[v].mode = .fixed →
      (applySelection t).te.valves[v] = { s.te.valves[v] with trim := clampTrim p s.te.table[v].fixedTrim }) ∧
    (s.ma.setup.valveCount ≤ v.val ∨ s.te.table[v].mode = .excluded →
      (applySelection t).te.valves[v] = s.te.valves[v]) ∧
    (s.ma.setup.valveCount ≤ v.val ∨ s.te.table[v].mode ≠ .auto →
      (applySelection t).rw.expected[v] = s.rw.expected[v] ∧ (applySelection t).rw.epoch[v] = s.rw.epoch[v]) := by
  rw [← hte, ← hma, ← hrw]
  refine ⟨fun hcount hauto => applySelection_auto ((t.isAuto_iff v).mpr ⟨hcount, hauto⟩), fun hcount hfixed => ?_,
    fun hexcluded => ?_, fun hother => (applySelection_not_auto (not_auto_of hother)).2⟩
  · have hother : t.ma.setup.valveCount ≤ v.val ∨ t.te.table[v].mode ≠ .auto := .inr (by rw [hfixed]; exact nofun)
    rw [(applySelection_not_auto (not_auto_of hother)).1, selected_of_fixed hcount hfixed, hp]
  · have hother : t.ma.setup.valveCount ≤ v.val ∨ t.te.table[v].mode ≠ .auto :=
      hexcluded.imp_right fun hmode => by rw [hmode]; exact nofun
    rw [(applySelection_not_auto (not_auto_of hother)).1, selected_of_excluded hexcluded]

end Selection

/-- Settles O46: a selection is one pass over the valves, then the two flags in turn; SET_LOT is its three assignments. -/
theorem productCommands : Obligations.ProductCommands := by
  unfold Obligations.ProductCommands
  refine ⟨fun s c slot more h hargs hbars => ⟨fun hhigh hnone => ?_, fun k hk hempty => ?_, fun active p hselected => ?_⟩,
    fun s c h hlen hbars => ⟨fun hnone => ?_, fun k p hactive hp => ?_⟩⟩
  · refine exec_row_of_body (k := .selectProduct) h (length_of_cons hargs) hbars
      (selectBody_refuses (byteAt_of_cons hargs) hnone fun hlt => absurd hlt (not_lt.mpr hhigh))
  · have hne : slot ≠ 255 := by
      rintro rfl
      exact absurd hk (by have := k.isLt; simp; omega)
    refine exec_row_of_body (k := .selectProduct) h (length_of_cons hargs) hbars
      (selectBody_refuses (byteAt_of_cons hargs) hne fun hlt => ?_)
    simpa only [Fin.getElem_fin, hk] using hempty
  · have hbody := selectBody_of_selected (byteAt_of_cons hargs) hselected
    obtain ⟨hmode, htable, htrim, hattention⟩ := selectProduct_shown active s
    refine ⟨_, exec_row_of_body (k := .selectProduct) h (length_of_cons hargs) hbars hbody, selectProduct_only active s,
      selectProduct_pu active s, hmode, htable, htrim, hattention, fun v => ?_⟩
    have hproduct := activeProduct_of_selected hselected
    rw [selectProduct_eq]
    generalize ht : { s with pu := { s.pu with active := active } } = t at hproduct ⊢
    have hte : t.te = s.te := by rw [← ht]
    have hma : t.ma = s.ma := by rw [← ht]
    have hrw : t.rw = s.rw := by rw [← ht]
    obtain ⟨hauto, hfixed, hexcluded, hother⟩ := applySelection_by_mode hte hma hrw hproduct v
    exact ⟨hauto, fun hcount hmode => (hfixed hcount hmode).trans (by cases p <;> rfl), hexcluded, hother⟩
  · have hbody : setLotBody c.args s = (s, { status := .badArgument }) := by
      unfold setLotBody
      rw [hnone]
      rfl
    exact exec_row_of_body (k := .setLot) h hlen hbars hbody
  · have hbody : setLotBody c.args s = (changeLot k p (c.args.take 8) s, {}) := by
      unfold setLotBody
      rw [hactive]
      dsimp only
      rw [hp]
    have honly := setLotBody_only c.args s
    rw [hbody] at honly
    refine ⟨_, exec_row_of_body (k := .setLot) h hlen hbars hbody, honly, hactive, ?_, fun j hj => ?_, rfl, ?_, fun j hj => ?_⟩
    · exact Vector.getElem_set_self ..
    · exact Vector.getElem_set_ne k.isLt _ fun heq => hj (Fin.ext heq).symm
    · exact Vector.getElem_set_self ..
    · exact Vector.getElem_set_ne k.isLt _ fun heq => hj (Fin.ext heq).symm

end Sys2Proof.Machine
end

section
/-!
PROOFS, layouts of fields (R194, section 12.4), and the commands of Ring and Capture (R172, R173, R176 to R178).
-/

namespace Sys2Proof.Machine

/-! ### Fields laid out (R194, R195) -/

theorem laidOut_nil : laidOut [] = [] := rfl

theorem laidOut_cons (f : Nat × Nat) (fields : List (Nat × Nat)) : laidOut (f :: fields) = beBytes f.1 f.2 ++ laidOut fields := rfl

/-- A field of flags holds the number whose bits they are. -/
theorem flagField_eq (size : Nat) (flags : List Bool) : flagField size flags = (size, bitsOf flags) := by
  unfold flagField
  congr 1
  induction flags with
  | nil => rfl
  | cons b rest ih =>
    rw [List.length_cons, List.range_succ_eq_map, List.map_cons, List.sum_cons, List.map_map, bitsOf, ← ih,
      ← List.sum_map_mul_left]
    congr 1
    · simp
    · refine congrArg List.sum (List.map_congr_left fun i _ => ?_)
      simp only [Function.comp_apply, List.getD_cons_succ, pow_succ]
      ring

theorem beSigned_eq (n : Nat) (x : Int) : beSigned n x = beBytes (signedField n x).1 (signedField n x).2 := rfl

theorem optBytes_eq {w : Nat} (n : Nat) (x : Option (BitVec w)) : optBytes n x = beBytes n (x.elim 0 (·.toNat)) := by
  cases x <;> rfl

theorem optValve_eq (x : Option (Fin Config.valves)) : optValve x = beBytes 1 (x.elim 0 (·.val)) := by
  cases x <;> rfl

theorem beBytes_one (b : Byte) : [b] = beBytes 1 b.toNat := by
  simp [beBytes]

/-- The number of an optional read result, 0 when absent. -/
def readNumber (x : Option ReadResult) : Nat :=
  match x with
  | some .mismatch => 1
  | some .unread => 2
  | some .read => 0
  | none => 0

theorem optRead_eq (x : Option ReadResult) : optRead x = beBytes 1 (readNumber x) := by
  cases x with
  | none => rfl
  | some r => cases r <;> rfl

theorem captureHeader_eq (cap : Capture) : captureHeader cap = laidOut [
    (4, cap.record.number.toNat), (1, cap.record.product.val), (1, cap.record.valve.elim 0 (·.val)),
    (1, cap.record.head.elim 0 (·.toNat)), (2, cap.record.tag.elim 0 (·.toNat)), (1, readNumber cap.record.readResult),
    (2, cap.record.setPoint.elim 0 (·.toNat)), (2, cap.record.epoch.toNat), (1, (classIndex cap.cls).val),
    signedField 4 (cap.net.getD 0), signedField 4 (cap.result.gross.getD 0),
    flagField 2 [cap.result.short, cap.result.gap, cap.result.unstable, cap.result.silent, cap.result.uncalibrated,
      cap.result.zeroFault, cap.late, cap.record.settled, cap.scheduled],
    flagField 2 [true, true, cap.record.valve.isSome, cap.record.head.isSome, cap.record.tag.isSome,
      cap.record.readResult.isSome, cap.record.setPoint.isSome, cap.net.isSome, cap.result.gross.isSome],
    (2, cap.result.entryIndex.toNat), (4, cap.result.entryPos.toNat), (1, cap.result.count), (3, cap.result.rawRange),
    (2, cap.result.samples.length), (1, 0)] := by
  have hzero : [(0 : Byte)] = beBytes 1 0 := rfl
  simp only [captureHeader, optBytes_eq, optValve_eq, optRead_eq, optWeight, beSigned_eq, flagField_eq, laidOut_cons,
    laidOut_nil, hzero, List.append_nil, List.append_assoc]

/-! ### Freezing and thawing by command (R172, R173) -/

theorem evalTrimHold_of_eq {s : State} (h : s.holdsTrim = s.te.trimHold) : evalTrimHold s = s :=
  if_pos h

/-- A freeze by command is no condition of Trim Hold (R133). -/
theorem holdsTrim_of_frozen_by_command {s t : State} (hfreeze : s.rc.freeze = .notFrozen) (hfrozen : t.rc.freeze = .command)
    (hte : t.te = s.te) (hrm : t.rm = s.rm) (hma : t.ma = s.ma) (hpu : t.pu = s.pu) : t.holdsTrim = s.holdsTrim := by
  unfold State.holdsTrim
  rw [hte, hrm, hma, hpu, hfreeze, hfrozen]
  rfl

theorem freezeRing_command {s : State} (hfreeze : s.rc.freeze = .notFrozen) (htrim : s.trimShown) : freezeRing .command s =
    report s { s with rc := { s.rc with freeze := .command, cause := some .command } } := by
  have hheld (t : State) (ht : t = { s with rc := { s.rc with freeze := .command, cause := some .command } }) :
      evalTrimHold (report s t) = report s t := by
    refine evalTrimHold_of_eq ?_
    rw [holdsTrim_of_frozen_by_command hfreeze (by rw [report_rc, ht]) (by rw [report_te, ht]) (by rw [report_rm, ht])
      (by rw [report_ma, ht]) (by rw [report_pu, ht]), report_te, ht]
    exact htrim.symm
  unfold freezeRing
  rw [hfreeze]
  exact hheld _ rfl

theorem freezeRing_command_of_frozen {s : State} (h : s.rc.freeze ≠ .notFrozen) : freezeRing .command s = s := by
  unfold freezeRing
  cases hfreeze : s.rc.freeze <;> dsimp only
  case notFrozen => exact absurd hfreeze h
  case command => rw [if_neg (by decide)]

/-- The state as the end of a freeze leaves it, before Trim Hold is evaluated (R173). -/
def thawed (s : State) : State :=
  report s { s with rc := { s.rc with freeze := .notFrozen, cause := none, burst := [] } }

theorem thawRing_of_frozen {s : State} (h : s.rc.freeze ≠ .notFrozen) : thawRing s = evalTrimHold (thawed s) :=
  if_neg h

theorem thawed_rc (s : State) : (thawed s).rc = { s.rc with freeze := .notFrozen, cause := none, burst := [] } := report_rc ..

theorem thawed_te (s : State) : (thawed s).te = s.te := report_te ..

theorem thawed_ma (s : State) : (thawed s).ma = s.ma := report_ma ..

/-- The records after an evaluation of Trim Hold: the end of the Hold under AUTO restarts the collection of AUTO valves
(R134). -/
theorem evalTrimHold_valve_eq (s : State) (v : Fin Config.valves) : (evalTrimHold s).te.valves[v] =
    if s.te.trimHold = true ∧ s.holdsTrim = false ∧ s.te.mode = .auto ∧ s.isAuto v = true then
      { s.te.valves[v] with n := 0, eAvg := 0 }
    else s.te.valves[v] := by
  rw [evalTrimHold_te_eq]
  dsimp only
  by_cases hends : s.te.trimHold = true ∧ s.holdsTrim = false ∧ s.te.mode = .auto
  · rw [if_pos hends]
    obtain ⟨hstood, hfree, hmode⟩ := hends
    by_cases hauto : s.isAuto v = true
    · rw [if_pos ⟨hstood, hfree, hmode, hauto⟩]
      simp only [Fin.getElem_fin, Vector.getElem_ofFn, Fin.eta, if_pos hauto]
      rfl
    · rw [if_neg fun hall => hauto hall.2.2.2]
      simp only [Fin.getElem_fin, Vector.getElem_ofFn, Fin.eta, if_neg hauto]
  · rw [if_neg hends, if_neg fun hall => hends ⟨hall.1, hall.2.1, hall.2.2.1⟩]

/-! ### Discarding (R176, R178) -/

/-- The state as a discard leaves it, before CAPTURE_READY is evaluated (R178). -/
def discarded (s : State) : State :=
  { s with rc := { s.rc with
    slots := Vector.ofFn fun i => if s.rc.slots[i].isStored then .empty else s.rc.slots[i]
    order := s.rc.order.filter fun i => !s.rc.slots[i].isStored } }

theorem discardCaptures_eq (s : State) : discardCaptures s = evalCaptureReady (discarded s) := rfl

theorem discarded_ma (s : State) : (discarded s).ma = s.ma := rfl

theorem discarded_slot (s : State) (i : Fin 4) :
    (discarded s).rc.slots[i] = if s.rc.slots[i].isStored then .empty else s.rc.slots[i] := by
  simp [discarded]

theorem discarded_none_stored (s : State) : (discarded s).rc.slots.toList.filter Slot.isStored = [] := by
  rw [List.filter_eq_nil_iff]
  intro slot hslot
  obtain ⟨i, hi, rfl⟩ := List.getElem_of_mem hslot
  rw [Vector.length_toList] at hi
  have hget := discarded_slot s ⟨i, hi⟩
  rw [Vector.getElem_toList]
  have hsame : (discarded s).rc.slots[i] = (discarded s).rc.slots[(⟨i, hi⟩ : Fin 4)] := rfl
  rw [hsame, hget]
  split
  · exact Bool.false_ne_true
  · assumption

theorem captureControlBody_of_value {args : List Byte} {value : Byte} (hargs : byteAt args 0 = value) (s : State)
    (h : value.toNat ≤ 1) : captureControlBody args s = (setUpload (decide (value.toNat = 1)) s, {}) := by
  unfold captureControlBody boolOfCode
  rw [hargs]
  interval_cases hvalue : value.toNat <;> rfl

/-- Settles O47: a freeze by command never changes Trim Hold, a thaw ends in its evaluation, and a discard in that of
CAPTURE_READY. -/
theorem ringAndCaptureCommands : Obligations.RingAndCaptureCommands := by
  unfold Obligations.RingAndCaptureCommands
  refine ⟨⟨fun s c h htrim => ⟨fun hfree => ?_, fun hfrozen => ?_⟩, fun s c h => ⟨fun hfree => ?_, fun hfrozen htrim => ?_⟩⟩,
    fun s c value more h hargs hbars => ⟨fun hhigh => ?_, fun hlow => ?_⟩, fun s c h hthreshold => ?_⟩
  · rw [← freezeRing_command hfree htrim]
    exact exec_row_of_body (k := .ringFreeze) h (Nat.zero_le _) id rfl
  · have hbody : (freezeRing .command s, ({} : Reply)) = (s, {}) := by rw [freezeRing_command_of_frozen hfrozen]
    exact exec_row_of_body (k := .ringFreeze) h (Nat.zero_le _) id hbody
  · have hleft : thawRing s = s := if_pos hfree
    have hbody : (thawRing s, ({} : Reply)) = (s, {}) := by rw [hleft]
    exact exec_row_of_body (k := .ringThaw) h (Nat.zero_le _) id hbody
  · have heq := thawRing_of_frozen hfrozen
    have honly := thawRing_only s
    have hbody : (thawRing s, ({} : Reply)) = (evalTrimHold (thawed s), {}) := by rw [heq]
    rw [heq] at honly
    refine ⟨_, exec_row_of_body (k := .ringThaw) h (Nat.zero_le _) id hbody, honly, ?_, evalTrimHold_trim _, ?_, fun v => ?_⟩
    · rw [evalTrimHold_rc, thawed_rc]
    · rw [evalTrimHold_te_eq, thawed_te]
    · have hauto : (thawed s).isAuto v = true ↔ v.val < s.ma.setup.valveCount ∧ s.te.table[v].mode = .auto := by
        rw [State.isAuto_iff, thawed_ma, thawed_te]
      have hafter : (evalTrimHold (thawed s)).te.trimHold = (thawed s).holdsTrim := by
        rw [evalTrimHold_te_eq]
      rw [evalTrimHold_valve_eq, thawed_te, hafter]
      simp only [hauto]
      refine if_congr ⟨fun ⟨hstood, hends, _, hv⟩ => ⟨hstood, hends, hv⟩, fun ⟨hstood, hends, hv⟩ => ⟨hstood, hends, ?_, hv⟩⟩
        rfl rfl
      exact holdsTrim_auto (htrim.symm.trans hstood)
  · have hbody : captureControlBody c.args s = (s, { status := .badArgument }) := by
      unfold captureControlBody boolOfCode
      rw [byteAt_of_cons hargs]
      split
      · next hnone => rfl
      · next on hsome =>
        split at hsome
        · omega
        · omega
        · cases hsome
    exact exec_row_of_body (k := .captureControl) h (length_of_cons hargs) hbars hbody
  · exact exec_row_of_body (k := .captureControl) h (length_of_cons hargs) hbars
      (captureControlBody_of_value (byteAt_of_cons hargs) s hlow)
  · have hfall : decide (s.ma.setup.captureThreshold ≤ ((discarded s).rc.slots.toList.filter Slot.isStored).length) = false := by
      rw [discarded_none_stored]
      exact decide_eq_false (not_le.mpr hthreshold)
    have hrc : (discardCaptures s).rc = { (discarded s).rc with captureReady := false } := by
      rw [discardCaptures_eq, evalCaptureReady_rc, discarded_ma, hfall]
    refine ⟨discardCaptures s, exec_row_of_body (k := .captureDiscard) h (Nat.zero_le _) id rfl, discardCaptures_only s, ?_,
      fun i => ?_, fun i => ?_⟩
    · rw [hrc]
      rfl
    · rw [hrc, discarded_slot]
    · rw [hrc]
      dsimp only [discarded]
      rw [List.mem_filter, Bool.not_eq_true']

end Sys2Proof.Machine
end

section
/-!
PROOFS, the upload engine (R177), the release of the held stations (R19, R20) and the departure of a command (R182).
-/

namespace Sys2Proof.Machine

/-! ### The upload engine (R177) -/

theorem oldestStored_of_first {rc : RingCapture} {a b : List (Fin 4)} {i : Fin 4} (horder : rc.order = a ++ i :: b)
    (ha : ∀ j ∈ a, rc.slots[j].isStored = false) (hi : rc.slots[i].isStored = true) : rc.oldestStored = some i := by
  unfold RingCapture.oldestStored
  rw [horder, List.find?_append, List.find?_eq_none.mpr fun j hj => Bool.eq_false_iff.mp (ha j hj), Option.none_or]
  exact List.find?_cons_of_pos (p := fun i : Fin 4 => rc.slots[i].isStored) hi

theorem oldestStored_of_none {rc : RingCapture} (h : ∀ j ∈ rc.order, rc.slots[j].isStored = false) : rc.oldestStored = none :=
  List.find?_eq_none.mpr fun j hj => Bool.eq_false_iff.mp (h j hj)

/-- The state whose slot goes up, before CAPTURE_READY is evaluated (R177). -/
def uploads (i : Fin 4) (cap : Capture) (s : State) : State :=
  { s with rc := { s.rc with
    slots := s.rc.slots.set i.val (.uploading cap) i.isLt, engine := .uploading i 0 (segmentCount cap) } }

theorem startUpload_of_stored {s : State} {i : Fin 4} {cap : Capture} (hidle : s.rc.engine = .idle)
    (hon : s.ma.setup.upload = true) (hcollector : s.ma.setup.collector ≠ 255) (holdest : s.rc.oldestStored = some i)
    (hslot : s.rc.slots[i] = .stored cap) : startUpload s = evalCaptureReady (uploads i cap s) := by
  unfold startUpload
  rw [if_pos ⟨hidle, hon, hcollector⟩, holdest]
  dsimp only
  rw [hslot]
  rfl

/-- What the engine leaves of Ring and Capture when it starts no upload, or one of a stored slot (R177). -/
theorem startUpload_rc (s : State) : (startUpload s).rc = s.rc ∨ ∃ (i : Fin 4) (cap : Capture) (ready : Bool),
    s.rc.slots[i] = .stored cap ∧ (startUpload s).rc = { (uploads i cap s).rc with captureReady := ready } := by
  by_cases hready : s.rc.engine = .idle ∧ s.ma.setup.upload = true ∧ s.ma.setup.collector ≠ 255
  · obtain ⟨hidle, hon, hcollector⟩ := hready
    cases holdest : s.rc.oldestStored with
    | none =>
      unfold startUpload
      rw [if_pos ⟨hidle, hon, hcollector⟩, holdest]
      exact .inl rfl
    | some i =>
      cases hslot : s.rc.slots[i] with
      | stored cap =>
        rw [startUpload_of_stored hidle hon hcollector holdest hslot, evalCaptureReady_rc]
        exact .inr ⟨i, cap, _, hslot, rfl⟩
      | empty =>
        unfold startUpload
        rw [if_pos ⟨hidle, hon, hcollector⟩, holdest]
        dsimp only
        rw [hslot]
        exact .inl rfl
      | uploading cap =>
        unfold startUpload
        rw [if_pos ⟨hidle, hon, hcollector⟩, holdest]
        dsimp only
        rw [hslot]
        exact .inl rfl
  · unfold startUpload
    rw [if_neg hready]
    exact .inl rfl

/-- An empty slot stays empty when the engine starts an upload, and of the rest the engine takes its slot, its state and
CAPTURE_READY alone (R177). -/
theorem startUpload_keeps_rest {s : State} {i : Fin 4} (hempty : s.rc.slots[i] = .empty) :
    (startUpload s).rc.slots[i] = .empty ∧ (startUpload s).rc = { s.rc with
      slots := (startUpload s).rc.slots, engine := (startUpload s).rc.engine
      captureReady := (startUpload s).rc.captureReady } := by
  rcases startUpload_rc s with h | ⟨j, cap, ready, hstored, h⟩
  · rw [h]
    exact ⟨hempty, rfl⟩
  · rw [h]
    refine ⟨?_, rfl⟩
    have hne : i ≠ j := by
      rintro rfl
      rw [hempty] at hstored
      cases hstored
    exact (slots_set s.rc.slots j i (.uploading cap)).trans ((if_neg hne).trans hempty)

/-- The state of a completed upload before the engine looks for the next one (R177). -/
def uploaded (i : Fin 4) (s : State) : State :=
  { s with rc := { s.rc.emptyAt i with
    engine := .idle, counters := { s.rc.counters with completed := tally s.rc.counters.completed 1 } } }

theorem completeUpload_eq (i : Fin 4) (s : State) : completeUpload i s = startUpload (evalCaptureReady (uploaded i s)) := rfl

theorem uploaded_slot (i : Fin 4) (s : State) : (uploaded i s).rc.slots[i] = .empty :=
  (slots_set s.rc.slots i i .empty).trans (if_pos rfl)

theorem completeUpload_leaves (i : Fin 4) (s : State) : (completeUpload i s).rc.slots[i] = .empty ∧
    i ∉ (completeUpload i s).rc.order ∧ (completeUpload i s).rc.counters.completed = tally s.rc.counters.completed 1 ∧
    (completeUpload i s).rc.ring = s.rc.ring ∧ (completeUpload i s).rc.captureNumber = s.rc.captureNumber := by
  have hempty : (evalCaptureReady (uploaded i s)).rc.slots[i] = .empty := by
    rw [evalCaptureReady_rc]
    exact uploaded_slot i s
  obtain ⟨hslot, hrest⟩ := startUpload_keeps_rest hempty
  rw [completeUpload_eq]
  refine ⟨hslot, ?_, ?_, ?_, ?_⟩
  · rw [hrest, evalCaptureReady_rc]
    simp [uploaded, RingCapture.emptyAt]
  · rw [hrest, evalCaptureReady_rc]
    rfl
  · rw [hrest, evalCaptureReady_rc]
    rfl
  · rw [hrest, evalCaptureReady_rc]
    rfl

theorem produceSegment_of_waits {s : State} {i : Fin 4} {cap : Capture} {next count : Nat}
    (hengine : s.rc.engine = .uploading i next count) (hslot : s.rc.slots[i] = .uploading cap)
    (h : s.fp.holdStanding = true ∨ (s.fp.port s.ma.setup.collectorPort).linkUp = false ∨
      2 ≤ (s.fp.port s.ma.setup.collectorPort).capture.length) : produceSegment s = s := by
  unfold produceSegment
  rw [hengine]
  dsimp only
  rw [hslot]
  dsimp only
  split
  · rfl
  · next hfree =>
    rw [FramePath.offer_capture_waits _ _ (h.resolve_left hfree)]
    exact if_neg Bool.false_ne_true

/-- The Frame Path after a segment joined the CAPTURE queue (R11, R14, R177). -/
def segmentSent (cap : Capture) (next count : Nat) (s : State) : FramePath :=
  { s.fp.setPort s.ma.setup.collectorPort { s.fp.port s.ma.setup.collectorPort with
      capture := (s.fp.port s.ma.setup.collectorPort).capture ++
        [insertedFrame s.fp.station s.ma.setup.collector 240 s.fp.seqMgmt (segmentPayload cap next count)] } with
    seqMgmt := s.fp.seqMgmt + 1 }

theorem produceSegment_of_sent {s : State} {i : Fin 4} {cap : Capture} {next count : Nat}
    (hengine : s.rc.engine = .uploading i next count) (hslot : s.rc.slots[i] = .uploading cap)
    (hfree : s.fp.holdStanding = false) (hup : (s.fp.port s.ma.setup.collectorPort).linkUp = true)
    (hroom : (s.fp.port s.ma.setup.collectorPort).capture.length < 2) : produceSegment s =
      if next + 1 < count then
        { s with fp := segmentSent cap next count s, rc := { s.rc with engine := .uploading i (next + 1) count } }
      else completeUpload i (s.withFp (segmentSent cap next count s)) := by
  unfold produceSegment
  rw [hengine]
  dsimp only
  rw [hslot]
  dsimp only
  rw [if_neg (by rw [hfree]; exact Bool.false_ne_true), FramePath.offer_joins (cls := .capture) _ _ hup hroom]
  dsimp only
  rw [if_pos rfl]
  rfl

theorem segmentSent_capture (cap : Capture) (next count : Nat) (s : State) :
    ((segmentSent cap next count s).port s.ma.setup.collectorPort).capture =
      (s.fp.port s.ma.setup.collectorPort).capture ++
        [insertedFrame s.fp.station s.ma.setup.collector 240 s.fp.seqMgmt (segmentPayload cap next count)] := by
  unfold segmentSent
  cases s.ma.setup.collectorPort <;> rfl

theorem segmentSent_seqMgmt (cap : Capture) (next count : Nat) (s : State) :
    (segmentSent cap next count s).seqMgmt = s.fp.seqMgmt + 1 := rfl

theorem segmentPayload_eq (cap : Capture) (next count : Nat) : segmentPayload cap next count =
    [0x83, 0] ++ beBytes 2 cap.captureNumber.toNat ++ beBytes 1 next ++ beBytes 1 count ++
      (if next = 0 then captureHeader cap else []) ++
      ((cap.result.samples.drop (64 * next)).take 64).flatMap (beSigned 3) := rfl

theorem segmentCount_eq (cap : Capture) : segmentCount cap = max 1 ((cap.result.samples.length + 63) / 64) := rfl

/-- Settles O48: the header is its layout, the start takes the oldest stored slot, and a segment joins or waits. -/
theorem uploadSteps : Obligations.UploadSteps := by
  unfold Obligations.UploadSteps
  refine ⟨?_, fun s i a b cap hidle hon hcollector horder ha hslot => ?_, fun s h => ?_, ?_⟩
  · rintro cap r w rfl rfl
    exact captureHeader_eq cap
  · have hstored : s.rc.slots[i].isStored = true := by rw [hslot]; rfl
    have heq := startUpload_of_stored hidle hon hcollector (oldestStored_of_first horder ha hstored) hslot
    have honly := startUpload_only s
    have hrc := evalCaptureReady_rc (uploads i cap s)
    rw [heq] at honly
    refine ⟨_, congrArg Host.Outcome.next heq, honly, ?_, fun j hj => ?_, ?_⟩
    · rw [hrc]
      exact (slots_set s.rc.slots i i (.uploading cap)).trans (if_pos rfl)
    · rw [hrc]
      exact (slots_set s.rc.slots i j (.uploading cap)).trans (if_neg hj)
    · rw [hrc, ← segmentCount_eq]
      rfl
  · refine congrArg Host.Outcome.next ?_
    unfold startUpload
    split
    · next hready =>
      obtain ⟨hidle, hon, hcollector⟩ := hready
      have hnone : s.rc.oldestStored = none := by
        rcases h with hbusy | hoff | hno | hempty
        · exact absurd hidle hbusy
        · exact absurd (hoff.symm.trans hon) (by decide)
        · exact absurd hno hcollector
        · exact oldestStored_of_none hempty
      rw [hnone]
    · rfl
  · rintro s i cap next count port rfl hengine hslot
    refine ⟨fun hwaits => congrArg Host.Outcome.next (produceSegment_of_waits hengine hslot hwaits), fun hfree hup hroom => ?_⟩
    have heq := produceSegment_of_sent hengine hslot hfree hup hroom
    have honly := produceSegment_only s
    by_cases hmore : next + 1 < count
    · rw [if_pos hmore] at heq
      rw [heq] at honly
      refine ⟨_, congrArg Host.Outcome.next heq, honly, ?_, fun _ => ⟨rfl, segmentSent_seqMgmt cap next count s⟩,
        fun hlast => absurd hmore (not_lt.mpr hlast)⟩
      rw [← segmentPayload_eq]
      exact segmentSent_capture cap next count s
    · rw [if_neg hmore] at heq
      rw [heq] at honly
      refine ⟨_, congrArg Host.Outcome.next heq, honly, ?_, fun hless => absurd hless hmore, fun _ => ?_⟩
      · have hgrows := (completeUpload_tells i (.refl (l := []) (s.withFp (segmentSent cap next count s)))).grows
        have hqueue := (hgrows.port s.ma.setup.collectorPort).queue .capture List.not_mem_nil nofun
        rw [← segmentPayload_eq]
        exact hqueue.trans (segmentSent_capture cap next count s)
      · exact completeUpload_leaves i (s.withFp (segmentSent cap next count s))

end Sys2Proof.Machine
end

section
/-!
PROOFS, the release of the held stations (R19, R20) and the departure of a command (R182, R183, Table 11-3).
-/

namespace Sys2Proof.Machine

/-! ### The release of the held stations (R14, R19, R20) -/

/-- The RELEASE frames that join when a list of stations is offered them in turn. -/
def FramePath.framesFor (fp : FramePath) (l : List (Byte × Port)) : List (Port × Frame) :=
  releaseFrames fp.station fp.seqFlow fp.portA.replyRoom fp.portB.replyRoom l

/-- A port after a list of stations was offered its RELEASE frames. -/
def FramePath.portAfter (fp : FramePath) (l : List (Byte × Port)) (q : Port) : PortState :=
  { fp.port q with
    reply := (fp.port q).reply ++ ((fp.framesFor l).filter fun x => x.1 == q).map Prod.snd
    counters := { (fp.port q).counters with
      dropped := tally (fp.port q).counters.dropped
        ((l.filter fun h => h.2 == q).length - ((fp.framesFor l).filter fun x => x.1 == q).length) } }

/-- The Frame Path after a list of stations was offered its RELEASE frames. -/
def FramePath.after (fp : FramePath) (l : List (Byte × Port)) : FramePath :=
  { fp with
    portA := fp.portAfter l .a, portB := fp.portAfter l .b
    seqFlow := fp.seqFlow + BitVec.ofNat 8 (fp.framesFor l).length }

theorem PortState.replyRoom_eq_zero_iff (ps : PortState) : ps.replyRoom = 0 ↔ ps.linkUp = false ∨ 4 ≤ ps.reply.length := by
  unfold PortState.replyRoom
  cases hup : ps.linkUp
  · simp
  · simp
    omega

/-- No more RELEASE frames join than stations are offered one. -/
theorem releaseFrames_filter_le (station : Byte) (q : Port) (l : List (Byte × Port)) : ∀ (seq : Byte) (roomA roomB : Nat),
    ((releaseFrames station seq roomA roomB l).filter fun x => x.1 == q).length ≤ (l.filter fun h => h.2 == q).length := by
  induction l with
  | nil => exact fun _ _ _ => le_refl _
  | cons h rest ih =>
    intro seq roomA roomB
    obtain ⟨dest, p⟩ := h
    have hkept (frame : Frame) (seq : Byte) (roomA roomB : Nat) :
        (((p, frame) :: releaseFrames station seq roomA roomB rest).filter fun x => x.1 == q).length ≤
          (((dest, p) :: rest).filter fun h => h.2 == q).length := by
      rw [List.filter_cons, List.filter_cons]
      dsimp only
      split
      · exact Nat.succ_le_succ (ih _ _ _)
      · exact ih _ _ _
    have hdropped : (rest.filter fun h => h.2 == q).length ≤ (((dest, p) :: rest).filter fun h => h.2 == q).length :=
      ((List.sublist_cons_self ..).filter _).length_le
    cases p
    · unfold releaseFrames
      split
      · exact (ih _ _ _).trans hdropped
      · exact hkept _ _ _ _
    · unfold releaseFrames
      split
      · exact (ih _ _ _).trans hdropped
      · exact hkept _ _ _ _

section Offer

variable (fp : FramePath) (dest : Byte) (p : Port) (rest : List (Byte × Port))

/-- A RELEASE offered in vain takes no room and no number. -/
theorem FramePath.framesFor_of_full (h : (fp.port p).replyRoom = 0) :
    fp.framesFor ((dest, p) :: rest) = (fp.setPort p ((fp.port p).countDropped 1)).framesFor rest := by
  cases p
  · exact if_pos h
  · exact if_pos h

/-- The Frame Path after a RELEASE joined a REPLY queue. -/
def FramePath.releaseJoined : FramePath :=
  { fp.setPort p { fp.port p with
      reply := (fp.port p).reply ++ [insertedFrame fp.station dest 241 fp.seqFlow [2]] } with seqFlow := fp.seqFlow + 1 }

theorem PortState.replyRoom_joined (ps : PortState) (frame : Frame) (h : ps.replyRoom ≠ 0) :
    PortState.replyRoom { ps with reply := ps.reply ++ [frame] } = ps.replyRoom - 1 := by
  unfold PortState.replyRoom at h ⊢
  cases hup : ps.linkUp
  · simp [hup] at h
  · simp
    omega

theorem FramePath.framesFor_of_room (h : (fp.port p).replyRoom ≠ 0) : fp.framesFor ((dest, p) :: rest) =
    (p, insertedFrame fp.station dest 241 fp.seqFlow [2]) :: (fp.releaseJoined dest p).framesFor rest := by
  have hroom := PortState.replyRoom_joined (fp.port p) (insertedFrame fp.station dest 241 fp.seqFlow [2]) h
  cases p
  · refine (if_neg h).trans ?_
    unfold FramePath.framesFor
    exact congrArg (fun room => _ :: releaseFrames fp.station (fp.seqFlow + 1) room fp.portB.replyRoom rest) hroom.symm
  · refine (if_neg h).trans ?_
    unfold FramePath.framesFor
    exact congrArg (fun room => _ :: releaseFrames fp.station (fp.seqFlow + 1) fp.portA.replyRoom room rest) hroom.symm

theorem FramePath.offerFlow_release : fp.offerFlow 2 dest p =
    if (fp.port p).replyRoom = 0 then fp.setPort p ((fp.port p).countDropped 1) else fp.releaseJoined dest p := by
  by_cases h : (fp.port p).replyRoom = 0
  · rw [if_pos h]
    exact offerFlow_drops 2 dest ((PortState.replyRoom_eq_zero_iff _).mp h)
  · rw [if_neg h]
    have hopen := mt (PortState.replyRoom_eq_zero_iff _).mpr h
    rw [not_or, Bool.not_eq_false, not_le] at hopen
    exact offerFlow_joins 2 dest hopen.1 hopen.2

theorem FramePath.setPort_get (ps : PortState) (q : Port) : (fp.setPort p ps).port q = if q = p then ps else fp.port q := by
  cases p <;> cases q <;> rfl

theorem FramePath.portAfter_of_full (h : (fp.port p).replyRoom = 0) (q : Port) :
    (fp.setPort p ((fp.port p).countDropped 1)).portAfter rest q = fp.portAfter ((dest, p) :: rest) q := by
  have hle : ((fp.framesFor ((dest, p) :: rest)).filter fun x => x.1 == q).length ≤ (rest.filter fun h => h.2 == q).length := by
    rw [fp.framesFor_of_full dest p rest h]
    exact releaseFrames_filter_le ..
  unfold FramePath.portAfter
  rw [← fp.framesFor_of_full dest p rest h, FramePath.setPort_get]
  by_cases hq : q = p
  · subst hq
    rw [if_pos rfl, List.filter_cons_of_pos (by exact beq_self_eq_true q), List.length_cons]
    unfold PortState.countDropped
    dsimp only
    rw [tally_tally]
    congr 3
    omega
  · rw [if_neg hq, List.filter_cons_of_neg (by simpa using fun heq => hq heq.symm)]

theorem FramePath.portAfter_of_room (h : (fp.port p).replyRoom ≠ 0) (q : Port) :
    (fp.releaseJoined dest p).portAfter rest q = fp.portAfter ((dest, p) :: rest) q := by
  have hport : (fp.releaseJoined dest p).port q = if q = p then { fp.port p with
      reply := (fp.port p).reply ++ [insertedFrame fp.station dest 241 fp.seqFlow [2]] } else fp.port q := by
    rw [← FramePath.setPort_get]
    cases q <;> rfl
  unfold FramePath.portAfter
  rw [fp.framesFor_of_room dest p rest h, hport]
  by_cases hq : q = p
  · subst hq
    rw [if_pos rfl, List.filter_cons_of_pos (by exact beq_self_eq_true q), List.filter_cons_of_pos (by exact beq_self_eq_true q),
      List.length_cons, List.length_cons, Nat.add_sub_add_right, List.map_cons]
    dsimp only
    rw [List.append_assoc]
    rfl
  · have hne : ¬ (p == q) = true := by simpa using fun heq => hq heq.symm
    rw [if_neg hq, List.filter_cons_of_neg (by exact hne), List.filter_cons_of_neg (by exact hne)]

theorem FramePath.after_offer : (fp.offerFlow 2 dest p).after rest = fp.after ((dest, p) :: rest) := by
  rw [FramePath.offerFlow_release]
  by_cases h : (fp.port p).replyRoom = 0
  · rw [if_pos h]
    unfold FramePath.after
    rw [fp.portAfter_of_full dest p rest h, fp.portAfter_of_full dest p rest h, ← fp.framesFor_of_full dest p rest h]
    cases p <;> rfl
  · rw [if_neg h]
    have hseq : (fp.releaseJoined dest p).seqFlow + BitVec.ofNat 8 ((fp.releaseJoined dest p).framesFor rest).length =
        fp.seqFlow + BitVec.ofNat 8 (fp.framesFor ((dest, p) :: rest)).length := by
      rw [fp.framesFor_of_room dest p rest h, List.length_cons]
      show fp.seqFlow + 1 + _ = _
      rw [Nat.add_comm _ 1, BitVec.ofNat_add, BitVec.add_assoc]
      rfl
    unfold FramePath.after
    rw [fp.portAfter_of_room dest p rest h, fp.portAfter_of_room dest p rest h, hseq]
    cases p <;> rfl

end Offer

theorem FramePath.after_nil (fp : FramePath) : fp.after [] = fp := by
  have hport (q : Port) : fp.portAfter [] q = fp.port q := by
    unfold FramePath.portAfter FramePath.framesFor
    simp [releaseFrames, tally_zero]
  unfold FramePath.after
  rw [hport, hport]
  simp [FramePath.framesFor, releaseFrames, FramePath.port]

theorem foldl_release (l : List (Byte × Port)) : ∀ fp : FramePath,
    l.foldl (fun f h => f.offerFlow 2 h.1 h.2) fp = fp.after l := by
  induction l with
  | nil => exact fun fp => fp.after_nil.symm
  | cons h rest ih => exact fun fp => (ih _).trans (fp.after_offer h.1 h.2 rest)

/-- The release of the held stations as what joins and what is dropped (R19, R20). -/
theorem FramePath.releaseHeld_eq (fp : FramePath) : fp.releaseHeld = fp.released := by
  unfold FramePath.releaseHeld
  rw [foldl_release]
  rfl

/-! ### Which command a payload is (Table 11-3) -/

theorem commandClass_eq_unknown {code : Byte} {codes : List Nat} (tag : Byte) (args : List Byte)
    (hcodes : codes = [1, 2, 16, 17, 18, 19, 32, 33, 34, 48, 49, 50, 51, 52, 53, 54, 64, 65, 66, 67, 68, 80])
    (h : code.toNat ∉ codes) : commandClass (code :: tag :: args) = .unknown := by
  subst hcodes
  simp only [List.mem_cons, List.not_mem_nil, or_false, not_or] at h
  unfold commandClass
  dsimp only
  split
  iterate 22 omega
  rfl

theorem resetKind_eq_resetBad {scope : Byte} (more : List Byte) (h : 4 < scope.toNat) :
    resetKind (scope :: more) = .resetBad := by
  unfold resetKind
  dsimp only
  split
  iterate 5 omega
  rfl

theorem commandClass_of_short {payload : List Byte} (h : payload.length < 2) : commandClass payload = .malformed := by
  unfold commandClass
  split
  · simp at h
  · rfl

/-! ### The departure (R19, R182) -/

/-- The state when a command leaves the intake FIFO and begins (R19, R182). -/
def departed (c : Copy) (more : List Copy) (s : State) : State :=
  { s with
    ma := { s.ma with fifo := more, executing := some c }
    fp := if more.length ≤ 2 then s.fp.released else s.fp }

theorem departIntake_of_waiting {s : State} {c : Copy} {more : List Copy} (hidle : s.ma.executing = none)
    (hfifo : s.ma.fifo = c :: more) : departIntake s = beginCommand c (departed c more s) := by
  have hreleased : releaseOnDeparture (s.withMa { s.ma with fifo := more, executing := some c }) = departed c more s := by
    unfold releaseOnDeparture departed
    by_cases hfew : more.length ≤ 2
    · rw [if_pos (by exact hfew), if_pos hfew, FramePath.releaseHeld_eq]
      rfl
    · rw [if_neg (by exact hfew), if_neg hfew]
      rfl
  unfold departIntake
  rw [hidle, hfifo]
  exact congrArg (beginCommand c) hreleased

theorem beginCommand_of_known {c : Copy} {kind : CommandKind} (h : commandClass c.payload = .known kind) (t : State) :
    beginCommand c t = t := by
  unfold beginCommand
  rw [h]

theorem beginCommand_of_malformed {c : Copy} (h : commandClass c.payload = .malformed) (t : State) :
    beginCommand c t = discardCommand t := by
  unfold beginCommand
  rw [h]

theorem beginCommand_of_unknown {c : Copy} (h : commandClass c.payload = .unknown) (t : State) :
    beginCommand c t = t.replied c { status := .unknownCommand } := by
  unfold beginCommand State.replied
  rw [h]

theorem beginCommand_of_resetShort {c : Copy} (h : commandClass c.payload = .resetShort) (t : State) :
    beginCommand c t = t.replied c { status := .length } := by
  unfold beginCommand State.replied
  rw [h]

theorem beginCommand_of_resetBad {c : Copy} (h : commandClass c.payload = .resetBad) (t : State) :
    beginCommand c t = t.replied c { status := .badArgument } := by
  unfold beginCommand State.replied
  rw [h]

/-- Settles O50: the departure releases the held stations in one pass and begins the command, whose class ends it or leaves it
to its row. -/
theorem intakeDeparture : Obligations.IntakeDeparture := by
  unfold Obligations.IntakeDeparture
  refine ⟨fun tag args codes hcodes => ⟨fun k hk => ?_, ?_, rfl, fun k hk => ?_, fun scope hscope =>
    resetKind_eq_resetBad args hscope, fun code htrim hreset hnot => ?_⟩, fun s hstays => ?_, fun s u c more hidle hfifo hu => ?_⟩
  · subst hcodes
    simp only [List.mem_cons, List.not_mem_nil, or_false] at hk
    rcases hk with rfl | rfl | rfl | rfl | rfl | rfl | rfl | rfl | rfl | rfl | rfl | rfl | rfl | rfl | rfl | rfl | rfl | rfl |
      rfl | rfl <;> rfl
  · show CommandClass.known (trimKind args) = _
    unfold trimKind
    split <;> rfl
  · simp only [List.mem_cons, List.not_mem_nil, or_false] at hk
    rcases hk with rfl | rfl | rfl | rfl | rfl <;> rfl
  · refine commandClass_eq_unknown tag args rfl fun hmem => ?_
    have hcode (n : Nat) (h : code.toNat = n) : code = BitVec.ofNat 8 n := by rw [← h, BitVec.ofNat_toNat, BitVec.setWidth_eq]
    subst hcodes
    simp only [List.mem_cons, List.not_mem_nil, or_false] at hmem
    have hlisted : code ∈ ([0x01, 0x02, 0x10, 0x11, 0x12, 0x13, 0x20, 0x21, 0x30, 0x31, 0x32, 0x33, 0x34, 0x35, 0x36, 0x40,
        0x41, 0x42, 0x43, 0x44] : List Byte) ∨ code = 0x22 ∨ code = 0x50 := by
      rcases hmem with h | h | h | h | h | h | h | h | h | h | h | h | h | h | h | h | h | h | h | h | h | h <;>
        rw [hcode _ h] <;> decide
    rcases hlisted with hlisted | rfl | rfl
    · exact hnot hlisted
    · exact htrim rfl
    · exact hreset rfl
  · refine congrArg Host.Outcome.next ?_
    unfold departIntake
    split
    · rfl
    · next hidle =>
      rcases hstays with hbusy | hempty
      · exact absurd (Option.isSome_iff_ne_none.mpr hbusy) hidle
      · rw [hempty]
  · have hexec : exec .intakeDeparture s = .next (beginCommand c u) := by
      rw [hu]
      exact congrArg Host.Outcome.next (departIntake_of_waiting hidle hfifo)
    refine ⟨fun kind hclass => ?_, fun hshort => ?_, fun hclass => ?_, fun hclass => ?_, fun hclass => ?_⟩
    · rw [hexec, beginCommand_of_known hclass]
    · rw [hexec, beginCommand_of_malformed (commandClass_of_short hshort), hu]
      rfl
    · rw [hexec, beginCommand_of_unknown hclass]
    · rw [hexec, beginCommand_of_resetShort hclass]
    · rw [hexec, beginCommand_of_resetBad hclass]

end Sys2Proof.Machine
end

section
/-!
PROOFS, ageing (R74, R75, R170): what the ring takes from records that leave together, and that no step leaves raised ages
(log 38).
-/

namespace Sys2Proof.Machine

/-! ### Entries handed to the ring (R61, R169, R170) -/

/-- The state with a list of entries written to its ring. -/
def State.ringed (s : State) (entries : List RingEntry) : State :=
  { s with rc := { s.rc with ring := s.rc.ringAfter entries } }

theorem pushBounded_eq {α : Type} {l : List α} (a : α) (h : l.length ≤ 32) :
    pushBounded 32 l a = (l ++ [a]).drop ((l ++ [a]).length - 32) := by
  unfold pushBounded
  rw [List.length_append, List.length_singleton]
  by_cases hroom : l.length < 32
  · rw [if_pos hroom, show l.length + 1 - 32 = 0 by omega, List.drop_zero]
  · rw [if_neg hroom, show l.length + 1 - 32 = 1 by omega, List.drop_append_of_le_length (by omega)]

theorem ringAfter_nil {rc : RingCapture} (h : rc.ring.length ≤ 32) : rc.ringAfter [] = rc.ring := by
  unfold RingCapture.ringAfter
  split
  · rw [List.append_nil, show rc.ring.length - 32 = 0 by omega, List.drop_zero]
  · rfl

theorem ringAfter_length {rc : RingCapture} (h : rc.ring.length ≤ 32) (entries : List RingEntry) :
    (rc.ringAfter entries).length ≤ 32 := by
  unfold RingCapture.ringAfter
  split
  · rw [List.length_drop]
    omega
  · exact h

theorem writeRing_eq {s : State} (e : RingEntry) (h : s.rc.ring.length ≤ 32) : writeRing e s = s.ringed [e] := by
  unfold writeRing State.ringed RingCapture.ringAfter
  by_cases hfreeze : s.rc.freeze = .notFrozen
  · rw [if_pos hfreeze, if_pos hfreeze]
    exact congrArg (fun ring => ({ s with rc := { s.rc with ring := ring } } : State)) (pushBounded_eq e h)
  · rw [if_neg hfreeze, if_neg hfreeze]

/-- The newest 32 of a list and more are the newest 32 of the whole. -/
theorem drop_drop_append {α : Type} (a b : List α) :
    ((a.drop (a.length - 32)) ++ b).drop ((a.drop (a.length - 32) ++ b).length - 32) = (a ++ b).drop ((a ++ b).length - 32) := by
  have hsplit : a.drop (a.length - 32) ++ b = (a ++ b).drop (a.length - 32) :=
    (List.drop_append_of_le_length (Nat.sub_le ..)).symm
  rw [hsplit, List.drop_drop, List.length_drop, List.length_append]
  congr 1
  omega

theorem ringed_ringed (s : State) (a b : List RingEntry) : (s.ringed a).ringed b = s.ringed (a ++ b) := by
  have hring : (s.ringed a).rc.ringAfter b = s.rc.ringAfter (a ++ b) := by
    unfold State.ringed RingCapture.ringAfter
    dsimp only
    split
    · rw [drop_drop_append, List.append_assoc]
    · rfl
  exact congrArg (fun ring => ({ s with rc := { s.rc with ring := ring } } : State)) hring

theorem ringed_nil {s : State} (h : s.rc.ring.length ≤ 32) : s.ringed [] = s :=
  congrArg (fun ring => ({ s with rc := { s.rc with ring := ring } } : State)) (ringAfter_nil h)

theorem handRemoved_eq (fate : Fate) (x : Word32) (records : List CanRecord) : ∀ {s : State}, s.rc.ring.length ≤ 32 →
    handRemoved fate x records s = s.ringed (records.map fun r => removalEntry r fate x) := by
  induction records with
  | nil => exact fun h => (ringed_nil h).symm
  | cons r rest ih =>
    intro s h
    unfold handRemoved at ih ⊢
    rw [List.foldl_cons, writeRing_eq _ h, ih (ringAfter_length h _), ringed_ringed, List.map_cons, List.singleton_append]

theorem handMissing_eq (x : Word32) (records : List CanRecord) {s : State} (h : s.rc.ring.length ≤ 32) :
    handMissing x records s = State.ringed (s.withTrackingCounters { s.tq.counters with
      missing := tally s.tq.counters.missing records.length }) (records.map fun r => removalEntry r .missing x) :=
  handRemoved_eq .missing x records h

/-! ### No raised ages are left (log 38) -/

theorem handRemoved_tq (fate : Fate) (x : Word32) (records : List CanRecord) (s : State) :
    (handRemoved fate x records s).tq = s.tq :=
  (handRemoved_only fate x records s) .tq (by decide)

theorem removeAged_ticked (s : State) : (removeAged s).tq.ticked = none := by
  unfold removeAged
  split
  · assumption
  · unfold handMissing
    rw [handRemoved_tq]

theorem pitchTick_ticked (b : Word32) (s : State) : (pitchTick b s).tq.ticked = none :=
  removeAged_ticked _

theorem ticks_ticked (l : List Word32) : ∀ {s : State}, s.tq.ticked = none →
    (l.foldl (fun u b => pitchTick b u) s).tq.ticked = none := by
  induction l with
  | nil => exact fun h => h
  | cons b rest ih => exact fun _ => ih (pitchTick_ticked b _)

theorem takeCount_ticked (c : Word16) {s : State} (h : s.tq.ticked = none) : (takeCount c s).tq.ticked = none := by
  have hstart : (applyGrid (clearEncoderFault (s.withPos { s.pos with timer := some s.ma.setup.encoderSilence }))).tq = s.tq := by
    have hgrid (t : State) : (applyGrid t).tq = t.tq := (applyGrid_only t) .tq (by decide)
    have hfault (t : State) : (clearEncoderFault t).tq = t.tq := (clearEncoderFault_only t) .tq (by decide)
    rw [hgrid, hfault, State.withPos_tq]
  unfold takeCount
  generalize applyGrid (clearEncoderFault (s.withPos { s.pos with timer := some s.ma.setup.encoderSilence })) = t at hstart ⊢
  have ht : t.tq.ticked = none := by rw [hstart, h]
  unfold handleCount
  dsimp only
  split
  · exact ht
  · split
    · exact ht
    · split
      · have hadvance (l : Word32) (d : Nat) (u : State) : (advance l d u).tq = u.tq := (advance_only l d u) .tq (by decide)
        unfold forwardStep
        rw [hadvance]
        exact ticks_ticked _ ht
      · exact ht

theorem setTracking_tq (st : TrackingState) (s : State) : (setTracking st s).tq = s.tq :=
  (setTracking_only st s) .tq (by decide)

theorem breakTracking_tq (s : State) : (breakTracking s).tq = s.tq :=
  (breakTracking_only s) .tq (by decide)

theorem loseQueue_tq (s : State) : (loseQueue s).tq = s.tq :=
  (loseQueue_only s) .tq (by decide)

theorem flushRecords_tq (s : State) : (flushRecords s).tq = { s.tq with
    queue := [], counters := { s.tq.counters with flushed := tally s.tq.counters.flushed s.tq.queue.length } } :=
  handRemoved_tq ..

theorem makeRoom_ticked (s : State) : (makeRoom s).tq.ticked = s.tq.ticked := by
  unfold makeRoom overflowFlush
  split
  · rfl
  · rw [loseQueue_tq]
    show (flushRecords s).tq.ticked = s.tq.ticked
    rw [flushRecords_tq]

theorem createRecord_ticked (k : Fin 16) (seed : RecordSeed) (s : State) :
    (createRecord k seed s).tq.ticked = s.tq.ticked :=
  makeRoom_ticked s

theorem createPlaceholders_ticked (k : Fin 16) (m : Nat) : ∀ s : State,
    (createPlaceholders k m s).tq.ticked = s.tq.ticked := by
  induction m with
  | zero => exact fun _ => rfl
  | succ m ih => exact fun s => (ih _).trans (createRecord_ticked k placeholderSeed s)

theorem takeDischarge_ticked (c : Copy) (s : State) : (takeDischarge c s).tq.ticked = s.tq.ticked := by
  have hgap : (dischargeGap c.sequence s).tq.ticked = s.tq.ticked := by
    unfold dischargeGap
    split
    · rfl
    · dsimp only
      split
      · rfl
      · split
        · split
          · rfl
          · exact createPlaceholders_ticked ..
        · rw [breakTracking_tq]
  have hfollow (v : Fin Config.valves) (a b : Bool) (t : State) : (followDischarge v a b t).tq = t.tq :=
    (followDischarge_only v a b t) .tq (by decide)
  rw [← hgap]
  unfold takeDischarge admitDischarge
  dsimp only
  split
  · rfl
  · split
    · exact createRecord_ticked ..
    · rw [hfollow]
      exact createRecord_ticked ..

theorem orphanSeams_ticked (n : Nat) (s : State) : (orphanSeams n s).tq.ticked = s.tq.ticked := by
  unfold orphanSeams
  rw [breakTracking_tq]
  rfl

theorem takeSeam_ticked (c : Copy) (s : State) : (takeSeam c s).tq.ticked = s.tq.ticked := by
  have hgap : (seamGap c.sequence s).tq.ticked = s.tq.ticked := by
    unfold seamGap
    split
    · rfl
    · dsimp only
      split
      · rfl
      · split
        · split
          · rfl
          · exact orphanSeams_ticked ..
        · rw [breakTracking_tq]
  have hissue (number : Word32) (t : State) : (issueTag number t).1.tq.ticked = t.tq.ticked := by
    unfold issueTag
    dsimp only
    split <;> rfl
  rw [← hgap]
  unfold takeSeam seamOwn
  dsimp only
  split
  · exact orphanSeams_ticked ..
  · exact hissue _ _

theorem markFirst_ticked (lot : List Byte) (s : State) : (markFirst lot s).tq.ticked = s.tq.ticked := by
  unfold markFirst
  dsimp only
  split <;> rfl

theorem lookaheadMatch_ticked (k : Nat) (lot : List Byte) (s : State) :
    (lookaheadMatch k lot s).tq.ticked = s.tq.ticked := by
  refine (markFirst_ticked lot _).trans ?_
  unfold handMissing
  rw [handRemoved_tq]
  rfl

theorem matchRead_ticked (rd : CodeRead) (s : State) : (matchRead rd s).tq.ticked = s.tq.ticked := by
  have hlost (t : State) : (becomeLost t).tq = t.tq := (becomeLost_only t) .tq (by decide)
  have hsynced (t : State) : (becomeSynced t).tq = t.tq := (becomeSynced_only t) .tq (by decide)
  have hunread : (unreadMark s).tq.ticked = s.tq.ticked := by
    unfold unreadMark
    rw [hlost]
    rfl
  unfold matchRead
  split
  · rw [(orphanRead_only rd s).keep .tq (by decide)]
  · cases rd <;> dsimp only
    case noRead => exact hunread
    case null => exact hunread
    case tag tag lot =>
      split
      · exact (congrArg Tracking.ticked (hsynced _)).trans (markFirst_ticked lot s)
      · split
        · exact lookaheadMatch_ticked ..
        · split
          · rfl
          · exact hunread

theorem takeRead_ticked (c : Copy) (s : State) : (takeRead c s).tq.ticked = s.tq.ticked := by
  have hlost (m : Nat) : ∀ t : State, (matchLost m t).tq.ticked = t.tq.ticked := by
    induction m with
    | zero => exact fun _ => rfl
    | succ m ih => exact fun t => (ih _).trans (matchRead_ticked .noRead t)
  have hgap : (readGap c.sequence s).tq.ticked = s.tq.ticked := by
    unfold readGap
    split
    · rfl
    · dsimp only
      split
      · rfl
      · split
        · exact hlost _ s
        · exact congrArg Tracking.ticked (breakTracking_tq _)
  exact (matchRead_ticked _ _).trans hgap

theorem takeResult_ticked (w : WindowResult) (s : State) : (takeResult w s).tq.ticked = s.tq.ticked := by
  have hhand (e : RingEntry) (cls : CanClass) (t : State) : (handJudged e cls t).tq = t.tq :=
    (handJudged_only e cls t) .tq (by decide)
  unfold takeResult
  split
  · have horphan (t : State) : (judgeOrphan w t).tq = t.tq := (judgeOrphan_only w t) .tq (by decide)
    unfold orphanWeigh
    rw [horphan]
    rfl
  · next r _ =>
    have hjudge (t : State) : (judgeRecord r w t).1.tq = t.tq := (judgeRecord_only r w t) .tq (by decide)
    have hon (j : Judged) (t : State) : (handOn j t).tq = t.tq := (handOn_only j t) .tq (by decide)
    have hjudged (attached : CanRecord) (t : State) : (judgeRecord attached w t).1.tq = t.tq :=
      (judgeRecord_only attached w t) .tq (by decide)
    unfold assignWeigh
    dsimp only
    rw [hhand]
    dsimp only [State.withQueue]
    rw [hon, hjudged]

theorem trackingReset_ticked (s : State) : (trackingReset s).tq.ticked = s.tq.ticked := by
  unfold trackingReset
  rw [(abandonWindow_only _).keep .tq (by decide), loseQueue_tq]
  show (flushRecords s).tq.ticked = s.tq.ticked
  rw [flushRecords_tq]

theorem CommandKind.body_ticked (k : CommandKind) (args : List Byte) {s : State} (h : s.tq.ticked = none) :
    (k.body args s).1.tq.ticked = none := by
  by_cases hk : Block.tq ∈ k.touches
  · cases k <;> dsimp only [CommandKind.body] <;> try exact absurd hk (by decide)
    case clearCounters => exact h
    case resetFull => rfl
    case resetTracking => exact (trackingReset_ticked s).trans h
    case resetStatistics => exact h
  · have htq : (k.body args s).1.tq = s.tq := (k.body_only args s) .tq hk
    rw [htq]
    exact h

theorem effect_ticked (c : Instr) {s : State} (h : s.tq.ticked = none) : (effect c s).tq.ticked = none := by
  cases hc : kindOf c with
  | some k =>
    obtain rfl := eq_row_of_kindOf hc
    exact effect_row_keeps (P := fun t => t.tq.ticked = none) k h (fun args => k.body_ticked args h) fun c r t ht => ht
  | none =>
    by_cases htouches : Block.tq ∈ eventTouches c
    · have honHanded {role : Role} {f : Copy → State → State} (hf : ∀ c t, t.tq.ticked = none → (f c t).tq.ticked = none) :
          (onHanded role f s).tq.ticked = none :=
        onHanded_of (P := fun t => t.tq.ticked = none) h (fun _ => h) hf
      cases c
      case powerOn => rfl
      case encoderFrame => exact honHanded (f := fun c => takeCount (encoderCount c.payload)) fun c _ => takeCount_ticked _
      case maxAgeRemoval => exact removeAged_ticked s
      case dischargeFrame => exact honHanded fun c t => (takeDischarge_ticked c t).trans
      case seamFrame => exact honHanded fun c t => (takeSeam_ticked c t).trans
      case readFrame => exact honHanded fun c t => (takeRead_ticked c t).trans
      case windowResult =>
        rw [effect_windowResult]
        unfold nextResult
        split
        · exact h
        · exact (takeResult_ticked _ _).trans h
      all_goals exact absurd htouches (by simp [eventTouches])
    · have htq : (effect c s).tq = s.tq := (effect_event_only hc s) .tq htouches
      rw [htq]
      exact h

theorem ticked_keptByTimers : KeptByTimers fun s => s.tq.ticked = none where
  pending _ _ h := h
  pos _ _ _ _ h := h
  fe _ _ _ _ h := h
  hold _ _ _ _ h := h
  load _ _ _ _ h := h
  status _ _ _ _ h := h

/-- Settles O28: the records above the max age leave the queue and are handed to the ring in turn, and no step leaves raised
ages behind. -/
theorem agedRecordsRemoved : Obligations.AgedRecordsRemoved := by
  unfold Obligations.AgedRecordsRemoved
  refine ⟨?_, fun s h => ?_, fun s t h hstep => ticked_keptByTimers.step (fun c _ => effect_ticked c) h hstep⟩
  · rintro s boundary old hticked hring rfl
    refine congrArg Host.Outcome.next ?_
    unfold removeAged
    rw [hticked]
    dsimp only
    rw [handMissing_eq (s := { s with tq := { s.tq with
      queue := s.tq.queue.filter fun r => !decide (s.ma.setup.maxAge < r.age), ticked := none } }) _ _ hring]
    simp only [← decide_not, not_lt]
    rfl
  · refine congrArg Host.Outcome.next ?_
    unfold removeAged
    rw [h]

end Sys2Proof.Machine
end

section
/-!
PROOFS, the firing and the timeout of a reject (R114, R115, R118), and the machine after reset.
-/

namespace Sys2Proof.Machine

/-! ### Firing (R114, R115) -/

theorem find?_of_first {α : Type} {p : α → Bool} {l a b : List α} {e : α} (hl : l = a ++ e :: b)
    (ha : ∀ x ∈ a, p x = false) (he : p e = true) : l.find? p = some e := by
  rw [hl, List.find?_append, List.find?_eq_none.mpr fun x hx => Bool.eq_false_iff.mp (ha x hx), Option.none_or,
    List.find?_cons_of_pos he]

theorem updateFirst_of_first {α : Type} {p : α → Bool} {l a b : List α} {e : α} (f : α → α) (hl : l = a ++ e :: b)
    (ha : ∀ x ∈ a, p x = false) (he : p e = true) : updateFirst p f l = a ++ f e :: b := by
  rw [hl, updateFirst_append ha, updateFirst_cons he]

theorem removeFirst_of_first {α : Type} {p : α → Bool} {l a b : List α} {e : α} (hl : l = a ++ e :: b)
    (ha : ∀ x ∈ a, p x = false) (he : p e = true) : removeFirst p l = a ++ b := by
  rw [hl, removeFirst_append ha]
  exact congrArg (a ++ ·) (if_pos he)

theorem rejectPayload_eq (number : Option Word32) (cls : CanClass) (pulse : Nat) : rejectPayload number cls pulse =
    [0x82, BitVec.ofNat 8 (classIndex cls).val] ++ beBytes 2 pulse ++
      beBytes 4 (match number with | none => 4294967295 | some n => n.toNat) := by
  cases number <;> simp [rejectPayload, beBytes]

/-- The Frame Path after a reject command joined the REJECT queue of the rejector port (R11, R14, R114). -/
def rejectSent (number : Option Word32) (cls : CanClass) (s : State) : FramePath :=
  { s.fp.setPort s.ma.setup.rejectorPort { s.fp.port s.ma.setup.rejectorPort with
      reject := (s.fp.port s.ma.setup.rejectorPort).reject ++
        [insertedFrame s.fp.station s.ma.setup.rejector 240 s.fp.seqMgmt (rejectPayload number cls s.ma.setup.rejectPulse)] } with
    seqMgmt := s.fp.seqMgmt + 1 }

/-- A reject command is taken when a rejector stands behind a port with room (R114). -/
def State.rejectTaken (s : State) : Prop :=
  s.ma.setup.rejector ≠ 255 ∧ (s.fp.port s.ma.setup.rejectorPort).linkUp = true ∧
    (s.fp.port s.ma.setup.rejectorPort).reject.length < 4

theorem offerReject_of_taken (number : Option Word32) (cls : CanClass) {s : State} (h : s.rejectTaken) :
    offerReject number cls s = (s.withFp (rejectSent number cls s), true) := by
  obtain ⟨hrejector, hup, hroom⟩ := h
  unfold offerReject
  rw [if_neg hrejector]
  dsimp only
  rw [FramePath.offer_joins (cls := .reject) _ _ hup hroom]
  rfl

theorem rejectTaken_or {s : State} : s.rejectTaken ∨ s.ma.setup.rejector = 255 ∨
    (s.fp.port s.ma.setup.rejectorPort).linkUp = false ∨ 4 ≤ (s.fp.port s.ma.setup.rejectorPort).reject.length := by
  by_cases hrejector : s.ma.setup.rejector = 255
  · exact .inr (.inl hrejector)
  · cases hup : (s.fp.port s.ma.setup.rejectorPort).linkUp
    · exact .inr (.inr (.inl rfl))
    · by_cases hroom : (s.fp.port s.ma.setup.rejectorPort).reject.length < 4
      · exact .inl ⟨hrejector, hup, hroom⟩
      · exact .inr (.inr (.inr (not_lt.mp hroom)))

/-- A reject command that is not taken leaves the Frame Path but for a counter (R14). -/
theorem offerReject_of_refused (number : Option Word32) (cls : CanClass) {s : State} (h : s.ma.setup.rejector = 255 ∨
    (s.fp.port s.ma.setup.rejectorPort).linkUp = false ∨ 4 ≤ (s.fp.port s.ma.setup.rejectorPort).reject.length) :
    ∃ fp : FramePath, offerReject number cls s = (s.withFp fp, false) ∧ s.fp.Grows [] fp := by
  unfold offerReject
  by_cases hnone : s.ma.setup.rejector = 255
  · rw [if_pos hnone]
    exact ⟨s.fp, rfl, .refl _ _⟩
  · rw [if_neg hnone]
    dsimp only
    rw [FramePath.offer_drops (cls := .reject) _ _ (by decide) (h.resolve_left hnone)]
    exact ⟨_, rfl, .setPort (.countDropped _ _ 1)⟩

section First

variable {s : State} {p : RejectEntry → Bool} {a b : List RejectEntry} {e : RejectEntry}

/-- The first due entry fires when its command is taken (R114). -/
theorem fireFirst_of_taken (hsched : s.jr.schedule = a ++ e :: b) (ha : ∀ x ∈ a, p x = false) (he : p e = true)
    (h : s.rejectTaken) : fireFirst p s = { s with
      fp := rejectSent e.number e.cls s
      jr := { s.jr with
        schedule := a ++ { e with fired := true, deadline := some (s.deadline e.firePos) } :: b
        counters := { s.jr.counters with fired := tally s.jr.counters.fired 1 } } } := by
  unfold fireFirst
  rw [find?_of_first hsched ha he]
  dsimp only
  rw [offerReject_of_taken e.number e.cls h]
  dsimp only
  rw [if_pos rfl, updateFirst_of_first _ (by exact hsched) ha he]
  rfl

/-- The first due entry is REJECT_LOST when its command is not taken (R115). -/
theorem fireFirst_of_refused (hsched : s.jr.schedule = a ++ e :: b) (ha : ∀ x ∈ a, p x = false) (he : p e = true)
    (h : s.ma.setup.rejector = 255 ∨ (s.fp.port s.ma.setup.rejectorPort).linkUp = false ∨
      4 ≤ (s.fp.port s.ma.setup.rejectorPort).reject.length) :
    ∃ fp : FramePath, fireFirst p s = loseReject ((s.withFp fp).withSchedule (a ++ b)) ∧ s.fp.Grows [] fp := by
  obtain ⟨fp, hoffer, hgrows⟩ := offerReject_of_refused e.number e.cls h
  refine ⟨fp, ?_, hgrows⟩
  unfold fireFirst
  rw [find?_of_first hsched ha he]
  dsimp only
  rw [hoffer]
  dsimp only
  rw [if_neg Bool.false_ne_true, removeFirst_of_first (by exact hsched) ha he]

theorem loseReject_jr (s : State) : (loseReject s).jr = { s.jr with
    counters := { s.jr.counters with lost := tally s.jr.counters.lost 1 }, lineStop := true } :=
  raiseLineStop_jr _

theorem loseReject_grows (s : State) : s.fp.Grows [] (loseReject s).fp :=
  (raiseLineStop_tells (.refl (s.withRejectCounters { s.jr.counters with lost := tally s.jr.counters.lost 1 }))).grows

/-- The state of a reject that times out before the ring is told (R118). -/
def timedOut (l : List RejectEntry) (s : State) : State :=
  raiseLineStop ((s.withSchedule l).withRejectCounters { (s.withSchedule l).jr.counters with
    unconfirmed := tally (s.withSchedule l).jr.counters.unconfirmed 1 })

theorem timedOut_jr (l : List RejectEntry) (s : State) : (timedOut l s).jr = { s.jr with
    schedule := l, lineStop := true
    counters := { s.jr.counters with unconfirmed := tally s.jr.counters.unconfirmed 1 } } :=
  raiseLineStop_jr _

theorem timedOut_ma (l : List RejectEntry) (s : State) : (timedOut l s).ma = s.ma :=
  (raiseLineStop_only _) .ma (by decide)

theorem timedOut_rc (l : List RejectEntry) (s : State) : (timedOut l s).rc = s.rc :=
  (raiseLineStop_only _) .rc (by decide)

theorem timeoutFirst_of_first (hsched : s.jr.schedule = a ++ e :: b) (ha : ∀ x ∈ a, p x = false) (he : p e = true) :
    timeoutFirst p s = if s.ma.setup.freezeOnUnconfirmed then freezeRing .unconfirmed (timedOut (a ++ b) s)
      else timedOut (a ++ b) s := by
  unfold timeoutFirst
  rw [find?_of_first hsched ha he]
  dsimp only
  rw [removeFirst_of_first hsched ha he, ← timedOut, timedOut_ma]

theorem freezeRing_jr (cause : FreezeCause) (s : State) : (freezeRing cause s).jr = s.jr :=
  (freezeRing_only cause s) .jr (by decide)

theorem timeoutFirst_jr (hsched : s.jr.schedule = a ++ e :: b) (ha : ∀ x ∈ a, p x = false) (he : p e = true) :
    (timeoutFirst p s).jr = { s.jr with
      schedule := a ++ b, lineStop := true
      counters := { s.jr.counters with unconfirmed := tally s.jr.counters.unconfirmed 1 } } := by
  rw [timeoutFirst_of_first hsched ha he, ← timedOut_jr (a ++ b) s]
  split
  · rw [freezeRing_jr]
  · rfl

theorem timeoutFirst_rc (hsched : s.jr.schedule = a ++ e :: b) (ha : ∀ x ∈ a, p x = false) (he : p e = true) :
    (timeoutFirst p s).rc = if s.ma.setup.freezeOnUnconfirmed = true ∧ s.rc.freeze ≠ .alarm then
      { s.rc with freeze := .alarm, cause := some .unconfirmed } else s.rc := by
  rw [timeoutFirst_of_first hsched ha he]
  split
  · next hasks =>
    rw [freezeRing_rc (by rfl), timedOut_rc]
    by_cases halarm : s.rc.freeze = .alarm
    · rw [if_pos halarm, if_neg fun hall => hall.2 halarm]
    · rw [if_neg halarm, if_pos ⟨hasks, halarm⟩]
  · next hoff => rw [timedOut_rc, if_neg fun hall => hoff hall.1]

end First

/-- Settles O37: the first due entry fires, is lost, or times out. -/
theorem rejectFires : Obligations.RejectFires := by
  unfold Obligations.RejectFires
  rintro s a b e port hsched rfl
  refine ⟨fun hearlier hpending hreached => ?_, fun x hearlier hfired hdeadline hreached => ?_⟩
  · have ha : ∀ x ∈ a, RejectEntry.isDue s.pos.linePos x = false := fun x hx => by
      unfold RejectEntry.isDue
      rcases hearlier x hx with h | h
      · rw [h]
        rfl
      · rw [h, Bool.and_false]
    have he : RejectEntry.isDue s.pos.linePos e = true := by
      unfold RejectEntry.isDue
      rw [hpending, hreached]
      rfl
    refine ⟨fun hrejector hup hroom => ?_, fun hrefused => ?_⟩
    · have hfires := fireFirst_of_taken hsched ha he ⟨hrejector, hup, hroom⟩
      unfold rejectSent at hfires
      rw [rejectPayload_eq] at hfires
      exact congrArg Host.Outcome.next hfires
    obtain ⟨fp, heq, hgrows⟩ := fireFirst_of_refused hsched ha he hrefused
    have honly := fireFirst_only (RejectEntry.isDue s.pos.linePos) s
    have hqueue := ((hgrows.trans (loseReject_grows ((s.withFp fp).withSchedule (a ++ b)))).port
      s.ma.setup.rejectorPort).queue .reject List.not_mem_nil nofun
    rw [heq] at honly
    exact ⟨_, congrArg Host.Outcome.next heq, honly, loseReject_jr _, hqueue⟩
  · have ha : ∀ x ∈ a, RejectEntry.isOverdue s.pos.linePos x = false := fun y hy => by
      unfold RejectEntry.isOverdue
      rcases hearlier y hy with h | h
      · rw [h]
        rfl
      · cases hz : y.deadline with
        | none => exact Bool.and_false _
        | some z =>
          dsimp only
          rw [h z hz, Bool.and_false]
    have he : RejectEntry.isOverdue s.pos.linePos e = true := by
      unfold RejectEntry.isOverdue
      rw [hfired, hdeadline]
      exact hreached
    have hrc := timeoutFirst_rc hsched ha he
    refine ⟨_, rfl, timeoutFirst_only _ s, timeoutFirst_jr hsched ha he, fun hasks hfree => hrc.trans (if_pos ⟨hasks, hfree⟩),
      fun hstays => hrc.trans (if_neg fun hall => ?_)⟩
    exact hstays.elim (fun hoff => absurd (hoff.symm.trans hall.1) (by decide)) hall.2

/-! ### The machine after reset -/

/-- Settles O60: the power-on values meet each invariant. -/
theorem invariantsHoldAtReset : Obligations.InvariantsHoldAtReset := by
  unfold Obligations.InvariantsHoldAtReset
  refine ⟨?_, ?_, ?_, ?_, ?_, ?_, ?_, ?_, ?_, ?_, ?_, ?_, ?_, ?_, ?_, ?_, rfl, rfl, rfl⟩
  · exact (frameInv_iff _).mpr ⟨reset_fp_sound, Nat.zero_le _⟩
  · exact ⟨by decide, by decide, by decide⟩
  · exact ⟨rfl, rfl⟩
  · exact ⟨by decide, by decide, by simp [State.reset], rfl⟩
  · exact ⟨by decide, by decide, by decide, by decide, by decide⟩
  · exact ⟨by decide, by simp [State.reset]⟩
  · exact tableInv_reset rfl
  · exact reset_productInv rfl rfl
  · exact ⟨by decide, by simp [State.reset], by decide⟩
  · exact ⟨List.Pairwise.nil, by simp [State.reset]⟩
  · exact ⟨by decide, by decide, by decide, by simp [State.reset]⟩
  · refine ⟨?_, by decide, by simp [State.reset], by simp [State.reset], List.Pairwise.nil, List.nodup_nil, by simp [State.reset]⟩
    simp [LineSetup.fits, State.reset]
  · intro v
    obtain ⟨htable, hrecord, _⟩ := reset_valve v
    unfold State.valveStateOk
    rw [htable, hrecord]
    exact ⟨by rw [if_pos (by exact v.isLt)]; exact .inl rfl, nofun, rfl, by decide, fun _ => by decide⟩
  · intro v
    obtain ⟨_, hrecord, _⟩ := reset_valve v
    rw [hrecord]
    exact ⟨by decide, fun _ => ⟨rfl, rfl⟩, by decide⟩
  · exact reset_flags rfl rfl rfl rfl rfl
  · exact (ringInv_iff _).mpr reset_rc_ok

end Sys2Proof.Machine
end

section
/-!
PROOFS, discharge frames (R63 to R68, R155): the record a discharge creates, its gap, and a queue that fills.
-/

namespace Sys2Proof.Machine

/-! ### The record that is created (R58, R67, R155) -/

/-- The record that a seed gives in a state (R67). -/
def RecordSeed.record (seed : RecordSeed) (k : Fin 16) (s : State) : CanRecord :=
  { number := s.tq.canCounter, product := k, valve := seed.valve, setPoint := seed.setPoint, settled := seed.settled
    epoch := seed.epoch, dischargePos := s.pos.linePos, placeholder := seed.placeholder, valveRange := seed.valveRange }

/-- The state with a record created in it, room supposed (R67). -/
def State.created (s : State) (k : Fin 16) (seed : RecordSeed) : State :=
  { s with tq := { s.tq with
    queue := s.tq.queue ++ [seed.record k s], canCounter := s.tq.canCounter + 1
    counters := { s.tq.counters with created := tally s.tq.counters.created 1 } } }

theorem createRecord_eq_created (k : Fin 16) (seed : RecordSeed) (s : State) :
    createRecord k seed s = (makeRoom s).created k seed := rfl

theorem makeRoom_of_room {s : State} (h : s.tq.queue.length < 128) : makeRoom s = s := if_pos h

theorem makeRoom_of_full {s : State} (h : 128 ≤ s.tq.queue.length) : makeRoom s = overflowFlush s := if_neg (not_lt.mpr h)

theorem createRecord_with_room (k : Fin 16) (seed : RecordSeed) {s : State} (h : s.tq.queue.length < 128) :
    createRecord k seed s = s.created k seed := by
  rw [createRecord_eq_created, makeRoom_of_room h]

theorem createRecord_with_flush (k : Fin 16) (seed : RecordSeed) {s : State} (h : 128 ≤ s.tq.queue.length) :
    createRecord k seed s = (overflowFlush s).created k seed := by
  rw [createRecord_eq_created, makeRoom_of_full h]

/-- What the frame's own record takes from its valve (R67, R155). -/
def State.ownSeed (s : State) (v : Nat) (setPoint : Word16) : RecordSeed :=
  match s.valveInRange v with
  | none =>
    { valve := none, setPoint := some setPoint, settled := false, epoch := 0, placeholder := false, valveRange := true }
  | some w =>
    { valve := some w, setPoint := some setPoint, settled := s.stampSettled w setPoint, epoch := s.rw.epoch[w]
      placeholder := false, valveRange := false }

theorem State.ownSeed_placeholder (s : State) (v : Nat) (setPoint : Word16) : (s.ownSeed v setPoint).placeholder = false := by
  unfold State.ownSeed
  split <;> rfl

theorem State.valveInRange_of_outside {s : State} {v : Nat} (h : s.ma.setup.valveCount ≤ v ∨ 95 < v) : s.valveInRange v = none := by
  unfold State.valveInRange
  split
  · next hlt =>
    have : v < 96 := hlt
    rw [if_neg (by omega)]
  · rfl

theorem State.ownSeed_of_inside {s : State} {w : Fin Config.valves} (h : w.val < s.ma.setup.valveCount) (setPoint : Word16) :
    s.ownSeed w.val setPoint =
      { valve := some w, setPoint := some setPoint, settled := decide (s.rw.expected[w] = some setPoint)
        epoch := s.rw.epoch[w], placeholder := false, valveRange := false } := by
  unfold State.ownSeed State.stampSettled
  rw [State.valveInRange_of_lt h]
  dsimp only
  rw [beq_eq_decide]

/-- An admitted discharge creates its record, and the follow check of the Trim Engine is all that comes with it (R67, R137). -/
theorem admitDischarge_creates (k : Fin 16) (v : Nat) (setPoint : Word16) (s : State) :
    OnlyChanges [.fp, .te] (createRecord k (s.ownSeed v setPoint) s) (admitDischarge k v setPoint s) := by
  unfold admitDischarge State.ownSeed
  cases s.valveInRange v with
  | none => exact .refl _ _
  | some w => exact followDischarge_only _ _ _ _

theorem admitDischarge_outside (k : Fin 16) {v : Nat} (setPoint : Word16) {s : State}
    (h : s.ma.setup.valveCount ≤ v ∨ 95 < v) : admitDischarge k v setPoint s = createRecord k (s.ownSeed v setPoint) s := by
  unfold admitDischarge State.ownSeed
  rw [State.valveInRange_of_outside h]

/-! ### The gap (R64 to R66) -/

theorem dischargeGap_of_none {seq : Byte} {s : State} (hactive : s.pu.active = none)
    (h : ∀ e, s.tq.dischargeExp = some e → (seq - e).toNat ≤ 16) : dischargeGap seq s = s := by
  unfold dischargeGap
  split
  · rfl
  · next e he =>
    dsimp only
    split
    · rfl
    · rw [if_pos (by exact h e he), hactive]

theorem dischargeGap_of_restart {seq e : Byte} {s : State} (he : s.tq.dischargeExp = some e) (h : 17 ≤ (seq - e).toNat) :
    dischargeGap seq s = breakTracking s := by
  have hgap : seqGap seq e = (seq - e).toNat := rfl
  unfold dischargeGap
  rw [he]
  dsimp only
  rw [hgap, if_neg (by omega), if_neg (by show ¬ _ ≤ 16; omega)]

theorem dischargeGap_of_lost {seq e : Byte} {k : Fin 16} {s : State} (he : s.tq.dischargeExp = some e)
    (hactive : s.pu.active = some k) (hlow : 1 ≤ (seq - e).toNat) (hhigh : (seq - e).toNat ≤ 16) :
    dischargeGap seq s = createPlaceholders k (seq - e).toNat s := by
  have hgap : seqGap seq e = (seq - e).toNat := rfl
  unfold dischargeGap
  rw [he]
  dsimp only
  rw [hgap, if_neg (by omega), if_pos (by exact hhigh), hactive]

/-- The state with the expectation of discharges after a frame (R63). -/
def State.expectDischarge (s : State) (seq : Byte) : State :=
  { s with tq := { s.tq with dischargeExp := some (seq + 1) } }

theorem takeDischarge_of_active {c : Copy} {k : Fin 16} {s : State} (hactive : s.pu.active = some k) : takeDischarge c s =
    admitDischarge k (dischargeValve c.payload) (dischargeSetPoint c.payload)
      ((dischargeGap c.sequence s).expectDischarge c.sequence) := by
  have hpu : (dischargeGap c.sequence s).pu.active = some k := by
    rw [(dischargeGap_only c.sequence s).keep .pu (by decide), hactive]
  unfold takeDischarge
  dsimp only
  rw [hpu]
  rfl

theorem takeDischarge_of_none {c : Copy} {s : State} (hactive : s.pu.active = none) : takeDischarge c s =
    ((dischargeGap c.sequence s).expectDischarge c.sequence).withTrackingCounters
      { (dischargeGap c.sequence s).tq.counters with
        unadmitted := tally (dischargeGap c.sequence s).tq.counters.unadmitted 1 } := by
  have hpu : (dischargeGap c.sequence s).pu.active = none := by
    rw [(dischargeGap_only c.sequence s).keep .pu (by decide), hactive]
  unfold takeDischarge
  dsimp only
  rw [hpu]
  rfl

theorem takeDischarge_fp_handed (c : Copy) (s : State) : (takeDischarge c s).fp.handed = s.fp.handed :=
  (takeDischarge_tells c (.refl (l := []) s)).grows.handed

/-- What a break of the tracking leaves of the ring (R99, R172). -/
theorem breakTracking_rc (s : State) : (breakTracking s).rc =
    if s.rm.tracking = .synced ∧ s.ma.setup.freezeOnLost = true ∧ s.rc.freeze ≠ .alarm then
      { s.rc with freeze := .alarm, cause := some .lost }
    else s.rc := by
  unfold breakTracking
  dsimp only
  by_cases hsynced : s.rm.tracking = .synced
  · rw [if_pos hsynced, setTracking_rc]
    refine if_congr ⟨fun ⟨_, _, hasks, hfree⟩ => ⟨hsynced, hasks, hfree⟩, fun ⟨_, hasks, hfree⟩ => ⟨?_, rfl, hasks, hfree⟩⟩ rfl rfl
    show s.rm.tracking ≠ .lost
    rw [hsynced]
    exact nofun
  · rw [if_neg hsynced, if_neg fun hall => hsynced hall.1]

theorem breakTracking_of_not_synced {s : State} (h : s.rm.tracking ≠ .synced) :
    breakTracking s = { s with rm := { s.rm with cleanRun := 0 } } :=
  if_neg h

/-- Settles O25: without a product the frame is counted, after its gap has broken the tracking or not; with one it creates its
record and the follow check comes after. -/
theorem dischargeCreatesRecord : Obligations.DischargeCreatesRecord := by
  unfold Obligations.DischargeCreatesRecord
  rintro s c rest v setPoint hhands rfl rfl
  have hexec := exec_dischargeFrame_of_hands hhands
  have htaken : OnlyChanges [.fp] s (s.taken rest) := withFp_only s _
  refine ⟨?_, fun k hactive hseq hroom => ?_⟩
  · rintro tq hactive rfl
    rw [takeDischarge_of_none (s := s.taken rest) hactive] at hexec
    refine ⟨fun hlow => ?_, fun e he hhigh => ⟨fun hstate => ?_, fun hstate => ?_⟩⟩
    · rw [dischargeGap_of_none (s := s.taken rest) hactive hlow] at hexec
      exact hexec
    · rw [dischargeGap_of_restart (s := s.taken rest) he hhigh, breakTracking_of_not_synced (s := s.taken rest) hstate] at hexec
      exact hexec
    · have honly := takeDischarge_only c (s.taken rest)
      have hhanded := takeDischarge_fp_handed c (s.taken rest)
      rw [takeDischarge_of_none (s := s.taken rest) hactive] at honly hhanded
      rw [dischargeGap_of_restart (s := s.taken rest) he hhigh] at hexec honly hhanded
      refine ⟨_, hexec, (htaken.mono (by decide)).andThen honly (by decide), ?_, hhanded, ?_, ?_⟩
      · have htq := breakTracking_tq (s.taken rest)
        simp only [State.expectDischarge, State.withTrackingCounters, htq]
        rfl
      · refine (breakTracking_rm (s.taken rest)).trans ?_
        rw [if_pos (by exact hstate)]
        rfl
      · refine (congrArg RingCapture.ring (breakTracking_rc (s.taken rest))).trans ?_
        split <;> rfl
  · have heq := takeDischarge_of_active (c := c) (s := s.taken rest) hactive
    rw [dischargeGap_of_in_sequence (s := s.taken rest) hseq] at heq
    have hcreates := admitDischarge_creates k (dischargeValve c.payload) (dischargeSetPoint c.payload)
      ((s.taken rest).expectDischarge c.sequence)
    rw [← heq, createRecord_with_room k _ (s := (s.taken rest).expectDischarge c.sequence) hroom] at hcreates
    refine ⟨_, _, hexec, ?_, takeDischarge_fp_handed c (s.taken rest), hcreates.keep .tq (by decide), fun hout => ⟨?_, ?_⟩,
      fun w hw hcount => ?_⟩
    · exact (((htaken.mono (by decide)).put_tq _ (by decide)).put_tq _ (by decide)).andThen hcreates (by decide)
    · rw [heq, admitDischarge_outside k _ (s := (s.taken rest).expectDischarge c.sequence) hout,
        createRecord_with_room k _ (s := (s.taken rest).expectDischarge c.sequence) hroom]
      rfl
    · unfold State.ownSeed
      rw [State.valveInRange_of_outside (s := (s.taken rest).expectDischarge c.sequence) hout]
      rfl
    · rw [← hw, State.ownSeed_of_inside (s := (s.taken rest).expectDischarge c.sequence) (hw ▸ hcount)]
      rfl

end Sys2Proof.Machine
end

section
/-!
PROOFS, discharge frames with a gap or into a full queue (R64 to R68).
-/

namespace Sys2Proof.Machine

/-! ### Placeholders (R64) -/

/-- The `i`-th placeholder that a state gives (R64, R67). -/
def State.placeholder (s : State) (k : Fin 16) (i : Nat) : CanRecord :=
  { number := s.tq.canCounter + BitVec.ofNat 32 i, product := k, valve := none, setPoint := none, settled := false
    epoch := 0, dischargePos := s.pos.linePos, age := 0, stage := .filled, placeholder := true }

/-- The Tracking Queue with `m` placeholders created in it, room supposed. -/
def State.placeholders (s : State) (k : Fin 16) (m : Nat) : State :=
  { s with tq := { s.tq with
    queue := s.tq.queue ++ (List.range m).map (s.placeholder k), canCounter := s.tq.canCounter + BitVec.ofNat 32 m
    counters := { s.tq.counters with
      created := tally s.tq.counters.created m, placeholders := tally s.tq.counters.placeholders m } } }

theorem placeholders_zero (s : State) (k : Fin 16) : s.placeholders k 0 = s := by
  unfold State.placeholders
  simp [tally_zero]

/-- One placeholder is created and counted (R64). -/
def placeholderStep (k : Fin 16) (s : State) : State :=
  (createRecord k placeholderSeed s).withTrackingCounters { (createRecord k placeholderSeed s).tq.counters with
    placeholders := tally (createRecord k placeholderSeed s).tq.counters.placeholders 1 }

theorem createPlaceholders_succ (k : Fin 16) (m : Nat) (s : State) :
    createPlaceholders k (m + 1) s = createPlaceholders k m (placeholderStep k s) := rfl

theorem createPlaceholders_add (k : Fin 16) (m n : Nat) : ∀ s : State,
    createPlaceholders k (m + n) s = createPlaceholders k n (createPlaceholders k m s) := by
  induction m with
  | zero => exact fun s => by rw [Nat.zero_add]; rfl
  | succ m ih => exact fun s => by rw [Nat.succ_add, createPlaceholders_succ, ih, createPlaceholders_succ]

theorem placeholderStep_of_room (k : Fin 16) {s : State} (h : s.tq.queue.length < 128) :
    placeholderStep k s = s.placeholders k 1 := by
  unfold placeholderStep
  rw [createRecord_with_room k _ h]
  unfold State.placeholders State.placeholder State.created RecordSeed.record placeholderSeed
  simp [State.withTrackingCounters]

theorem placeholders_placeholders (s : State) (k : Fin 16) (m n : Nat) :
    (s.placeholders k m).placeholders k n = s.placeholders k (m + n) := by
  have hmade : (s.placeholders k m).placeholder k = s.placeholder k ∘ (m + ·) := by
    funext i
    unfold State.placeholder State.placeholders
    simp only [Function.comp_apply, BitVec.ofNat_add, BitVec.add_assoc]
  have hqueue : s.tq.queue ++ (List.range m).map (s.placeholder k) ++ (List.range n).map ((s.placeholders k m).placeholder k) =
      s.tq.queue ++ (List.range (m + n)).map (s.placeholder k) := by
    rw [hmade, List.range_add, List.map_append, List.map_map, List.append_assoc]
  have hcount : s.tq.canCounter + BitVec.ofNat 32 m + BitVec.ofNat 32 n = s.tq.canCounter + BitVec.ofNat 32 (m + n) := by
    rw [BitVec.ofNat_add, BitVec.add_assoc]
  rw [State.placeholders, State.placeholders]
  dsimp only
  rw [tally_tally, tally_tally, hcount]
  rw [State.placeholders] at hqueue
  rw [hqueue]
  rfl

theorem placeholders_length (s : State) (k : Fin 16) (m : Nat) :
    (s.placeholders k m).tq.queue.length = s.tq.queue.length + m := by
  simp [State.placeholders]

theorem createPlaceholders_of_room (k : Fin 16) (m : Nat) : ∀ {s : State}, s.tq.queue.length + m ≤ 128 →
    createPlaceholders k m s = s.placeholders k m := by
  induction m with
  | zero => exact fun _ => (placeholders_zero _ k).symm
  | succ m ih =>
    intro s h
    rw [createPlaceholders_succ, placeholderStep_of_room k (by omega), ih (by rw [placeholders_length]; omega),
      placeholders_placeholders, Nat.add_comm]

/-! ### A full queue (R61, R68) -/

theorem overflowFlush_queue (s : State) : (overflowFlush s).tq.queue = [] := by
  unfold overflowFlush
  rw [loseQueue_tq]
  exact flushRecords_queue s

theorem overflowFlush_tq (s : State) : (overflowFlush s).tq = { s.tq with
    queue := []
    counters := { s.tq.counters with
      flushed := tally s.tq.counters.flushed s.tq.queue.length, flushEvents := tally s.tq.counters.flushEvents 1 } } := by
  unfold overflowFlush
  rw [loseQueue_tq]
  dsimp only [State.withTrackingCounters]
  rw [flushRecords_tq]

theorem overflowFlush_rm (s : State) : (overflowFlush s).rm =
    { s.rm with cleanRun := 0, unreadRun := 0, tracking := .notSynced } := by
  unfold overflowFlush
  rw [loseQueue_rm, State.withTrackingCounters_rm, flushRecords_rm]

theorem loseQueue_rc (s : State) : (loseQueue s).rc = s.rc := by
  unfold loseQueue
  rw [setTracking_rc, if_neg fun hall => nomatch hall.2.1]

theorem overflowFlush_rc {s : State} (h : s.rc.ring.length ≤ 32) : (overflowFlush s).rc = { s.rc with
    ring := s.rc.ringAfter (s.tq.queue.map fun r => removalEntry r .flushed s.pos.linePos) } := by
  unfold overflowFlush
  rw [loseQueue_rc, State.withTrackingCounters_rc, flushRecords]
  dsimp only
  rw [handRemoved_eq _ _ _ (by exact h)]
  rfl

theorem handRemoved_of_frozen (fate : Fate) (x : Word32) (records : List CanRecord) : ∀ {s : State},
    s.rc.freeze ≠ .notFrozen → handRemoved fate x records s = s := by
  induction records with
  | nil => exact fun _ => rfl
  | cons r rest ih =>
    intro s h
    have hleft : writeRing (removalEntry r fate x) s = s := if_neg h
    unfold handRemoved at ih ⊢
    rw [List.foldl_cons, hleft]
    exact ih h

theorem overflowFlush_rc_of_frozen {s : State} (h : s.rc.freeze ≠ .notFrozen) : (overflowFlush s).rc = s.rc := by
  unfold overflowFlush
  rw [loseQueue_rc, State.withTrackingCounters_rc, flushRecords]
  dsimp only
  rw [handRemoved_of_frozen _ _ _ (by exact h)]
  rfl

theorem makeRoom_idem {s : State} (h : 128 ≤ s.tq.queue.length) : makeRoom (overflowFlush s) = makeRoom s := by
  rw [makeRoom_of_full h, makeRoom_of_room (by rw [overflowFlush_queue]; decide)]

theorem createRecord_of_full (k : Fin 16) (seed : RecordSeed) {s : State} (h : 128 ≤ s.tq.queue.length) :
    createRecord k seed s = createRecord k seed (overflowFlush s) := by
  rw [createRecord_eq_created, createRecord_eq_created, makeRoom_idem h]

theorem createPlaceholders_of_full (k : Fin 16) (m : Nat) {s : State} (h : 128 ≤ s.tq.queue.length) :
    createPlaceholders k (m + 1) s = createPlaceholders k (m + 1) (overflowFlush s) := by
  rw [createPlaceholders_succ, createPlaceholders_succ, placeholderStep, createRecord_of_full k _ h, ← placeholderStep]

end Sys2Proof.Machine
end

section
/-!
PROOFS, discharge frames with a gap or into a full queue (R63 to R68): the clauses.
-/

namespace Sys2Proof.Machine

theorem expectDischarge_only (s : State) (seq : Byte) : OnlyChanges [.tq] s (s.expectDischarge seq) :=
  (OnlyChanges.refl _ s).put_tq _ (by decide)

theorem created_only (s : State) (k : Fin 16) (seed : RecordSeed) : OnlyChanges [.tq] s (s.created k seed) :=
  (OnlyChanges.refl _ s).put_tq _ (by decide)

theorem placeholders_only (s : State) (k : Fin 16) (m : Nat) : OnlyChanges [.tq] s (s.placeholders k m) :=
  (OnlyChanges.refl _ s).put_tq _ (by decide)

theorem expectDischarge_of_expected {s : State} {seq : Byte} (h : s.tq.dischargeExp = some (seq + 1)) :
    s.expectDischarge seq = s := by
  unfold State.expectDischarge
  rw [← h]

/-- The Tracking Queue with a record created after a flush (R61, R67). -/
theorem created_overflowFlush_tq (f : State) (k : Fin 16) (seed : RecordSeed) :
    ((overflowFlush f).created k seed).tq = { f.tq with
      queue := [seed.record k (overflowFlush f)], canCounter := f.tq.canCounter + 1
      counters := { f.tq.counters with
        created := tally f.tq.counters.created 1, flushed := tally f.tq.counters.flushed f.tq.queue.length
        flushEvents := tally f.tq.counters.flushEvents 1 } } := by
  unfold State.created
  dsimp only
  rw [overflowFlush_tq]
  rfl

/-- A discharge frame with a product active: after its gap a record is created, and the follow check is all that comes with
it. -/
theorem takeDischarge_creates {c : Copy} {k : Fin 16} {s : State} (hactive : s.pu.active = some k) :
    ∃ seed : RecordSeed, seed.placeholder = false ∧
      OnlyChanges [.fp, .te] (createRecord k seed ((dischargeGap c.sequence s).expectDischarge c.sequence))
        (takeDischarge c s) := by
  rw [takeDischarge_of_active hactive]
  exact ⟨_, State.ownSeed_placeholder _ _ _, admitDischarge_creates k _ _ _⟩

theorem takeDischarge_from (c : Copy) (rest : List (Role × Copy)) (s : State) :
    OnlyChanges [.fp, .tq, .rm, .te, .rc] s (takeDischarge c (s.taken rest)) :=
  ((withFp_only s _).mono (by decide)).andThen (takeDischarge_only c (s.taken rest)) (by decide)

theorem drop_map_range {α : Type} (f : Nat → α) (a b : Nat) :
    ((List.range (a + b)).map f).drop a = (List.range b).map (f ∘ (a + ·)) := by
  rw [List.range_add, List.map_append, List.drop_left' (by simp), List.map_map]

theorem take_map_range {α : Type} (f : Nat → α) (a b : Nat) :
    ((List.range (a + b)).map f).take a = (List.range a).map f := by
  rw [List.range_add, List.map_append, List.take_left' (by simp)]

section Clauses

variable {s : State} {c : Copy} {k : Fin 16}

/-- A gap of 1 to 16 with room makes its placeholders and the record (R64, R67). -/
theorem takeDischarge_lost {e : Byte} {m : Nat} (hactive : s.pu.active = some k) (he : s.tq.dischargeExp = some e)
    (hm : m = (c.sequence - e).toNat) (hlow : 1 ≤ m) (hhigh : m ≤ 16) (hroom : s.tq.queue.length + m < 128) :
    ∃ seed : RecordSeed, seed.placeholder = false ∧ OnlyChanges [.fp, .te]
      (((s.placeholders k m).expectDischarge c.sequence).created k seed) (takeDischarge c s) := by
  obtain ⟨seed, hseed, hcreates⟩ := takeDischarge_creates (c := c) hactive
  subst hm
  rw [dischargeGap_of_lost he hactive hlow hhigh, createPlaceholders_of_room k _ (le_of_lt hroom), createRecord_with_room k seed
    (by exact lt_of_eq_of_lt (placeholders_length s k _) hroom)] at hcreates
  exact ⟨seed, hseed, hcreates⟩

/-- A restart makes no placeholder: the record is created after the tracking is broken (R65). -/
theorem takeDischarge_restart {e : Byte} (hactive : s.pu.active = some k) (he : s.tq.dischargeExp = some e)
    (hgap : 17 ≤ (c.sequence - e).toNat) : ∃ seed : RecordSeed, seed.placeholder = false ∧ OnlyChanges [.fp, .te]
      (createRecord k seed ((breakTracking s).expectDischarge c.sequence)) (takeDischarge c s) := by
  obtain ⟨seed, hseed, hcreates⟩ := takeDischarge_creates (c := c) hactive
  rw [dischargeGap_of_restart he hgap] at hcreates
  exact ⟨seed, hseed, hcreates⟩

/-- Placeholders that meet 128: the queue is flushed once, and what is created after it stands alone (R68). -/
theorem takeDischarge_meets {e : Byte} {a b : Nat} (hactive : s.pu.active = some k) (he : s.tq.dischargeExp = some e)
    (hm : a + b = (c.sequence - e).toNat) (hlow : 1 ≤ a + b) (hhigh : a + b ≤ 16) (hfull : s.tq.queue.length + a = 128) :
    ∃ (seed : RecordSeed) (f : State) (d : Option Byte), seed.placeholder = false ∧ OnlyChanges [.tq] (s.placeholders k a) f ∧
      f.tq = { (s.placeholders k a).tq with dischargeExp := d } ∧ OnlyChanges [.fp, .te]
        ((((overflowFlush f).placeholders k b).expectDischarge c.sequence).created k seed) (takeDischarge c s) := by
  obtain ⟨seed, hseed, hcreates⟩ := takeDischarge_creates (c := c) hactive
  have hlength : 128 ≤ (s.placeholders k a).tq.queue.length := by
    rw [placeholders_length]
    omega
  rw [dischargeGap_of_lost he hactive (by omega) (by omega), ← hm, createPlaceholders_add,
    createPlaceholders_of_room k a (by omega)] at hcreates
  cases b with
  | zero =>
    have hroom : (overflowFlush ((s.placeholders k a).expectDischarge c.sequence)).tq.queue.length < 128 := by
      rw [overflowFlush_queue]
      decide
    have hexpected : (overflowFlush ((s.placeholders k a).expectDischarge c.sequence)).expectDischarge c.sequence =
        overflowFlush ((s.placeholders k a).expectDischarge c.sequence) :=
      expectDischarge_of_expected (by rw [overflowFlush_tq]; rfl)
    refine ⟨seed, (s.placeholders k a).expectDischarge c.sequence, _, hseed, expectDischarge_only _ _, rfl, ?_⟩
    rw [placeholders_zero, hexpected]
    rw [createPlaceholders, createRecord_with_flush k seed (by exact hlength)] at hcreates
    exact hcreates
  | succ b =>
    have hroom : (overflowFlush (s.placeholders k a)).tq.queue.length + (b + 1) < 128 := by
      rw [overflowFlush_queue]
      simp
      omega
    refine ⟨seed, s.placeholders k a, _, hseed, .refl _ _, rfl, ?_⟩
    rw [createPlaceholders_of_full k b hlength, createPlaceholders_of_room k _ (le_of_lt hroom), createRecord_with_room k seed
      (by exact lt_of_eq_of_lt (placeholders_length _ k _) hroom)] at hcreates
    exact hcreates

end Clauses

/-- Placeholders after the first `a` are numbered on from them. -/
theorem placeholder_shift {s f : State} {a : Nat} (k : Fin 16) (hcount : f.tq.canCounter = s.tq.canCounter + BitVec.ofNat 32 a)
    (hpos : f.pos = s.pos) : f.placeholder k = s.placeholder k ∘ (a + ·) := by
  funext i
  unfold State.placeholder
  simp only [Function.comp_apply, hcount, hpos, BitVec.ofNat_add, BitVec.add_assoc]

/-- Settles O26: each clause is the state the gap leaves, with the frame's own record created in it. -/
theorem dischargeGaps : Obligations.DischargeGaps := by
  unfold Obligations.DischargeGaps
  rintro s c rest k hhands hactive
  have hexec := exec_dischargeFrame_of_hands hhands
  have hfrom := takeDischarge_from c rest s
  refine ⟨fun e m he hm hlow hhigh hroom => ?_, fun e m he hm hgap hroom => ?_, fun hseq hfull hring => ?_,
    fun e he hgap hfull => ?_, fun e m made he hm hlow hhigh hle hmeet hring hmade => ?_⟩
  · obtain ⟨seed, hseed, hcreates⟩ := takeDischarge_lost (s := s.taken rest) hactive he hm hlow hhigh hroom
    have htq := hcreates.keep .tq (by decide)
    have honly : OnlyChanges [.fp, .tq, .te] s (takeDischarge c (s.taken rest)) :=
      ((((withFp_only s _).mono (by decide)).put_tq _ (by decide)).put_tq _ (by decide) |>.put_tq _ (by decide)).andThen
        hcreates (by decide)
    have hcount : s.tq.canCounter + BitVec.ofNat 32 m + 1 = s.tq.canCounter + BitVec.ofNat 32 (m + 1) := by
      rw [BitVec.ofNat_add, BitVec.add_assoc]
      rfl
    refine ⟨_, seed.record k (((s.taken rest).placeholders k m).expectDischarge c.sequence), hexec, honly,
      congrArg Tracking.queue htq, rfl, hseed, (congrArg Tracking.canCounter htq).trans hcount,
      congrArg Tracking.dischargeExp htq, (congrArg Tracking.counters htq).trans ?_⟩
    simp only [State.created, State.expectDischarge, State.placeholders, tally_tally]
    rfl
  · subst hm
    obtain ⟨seed, hseed, hcreates⟩ := takeDischarge_restart (s := s.taken rest) hactive he hgap
    have hbrokenTq := breakTracking_tq (s.taken rest)
    have hbrokenRm := breakTracking_rm (s.taken rest)
    generalize breakTracking (s.taken rest) = b at hcreates hbrokenTq hbrokenRm
    have hlength : b.tq.queue.length < 128 := by
      rw [hbrokenTq]
      exact hroom
    rw [createRecord_with_room k seed (s := b.expectDischarge c.sequence) hlength] at hcreates
    have htq := hcreates.keep .tq (by decide)
    refine ⟨_, seed.record k (b.expectDischarge c.sequence), hexec, hfrom, (congrArg Tracking.queue htq).trans ?_,
      (congrArg Tracking.canCounter hbrokenTq :), congrArg Tracking.dischargeExp htq,
      (congrArg (·.counters.placeholders) htq).trans (congrArg (·.counters.placeholders) hbrokenTq :),
      (hcreates.keep .rm (by decide)).trans hbrokenRm⟩
    exact congrArg (· ++ _) (congrArg Tracking.queue hbrokenTq :)
  · obtain ⟨seed, hseed, hcreates⟩ := takeDischarge_creates (c := c) (s := s.taken rest) hactive
    rw [dischargeGap_of_in_sequence (s := s.taken rest) hseq,
      createRecord_with_flush k seed (s := (s.taken rest).expectDischarge c.sequence) (le_of_eq hfull.symm)] at hcreates
    have htq := (hcreates.keep .tq (by decide)).trans (created_overflowFlush_tq _ k seed)
    refine ⟨_, seed.record k (overflowFlush ((s.taken rest).expectDischarge c.sequence)), hexec, hfrom,
      congrArg Tracking.queue htq, (congrArg Tracking.canCounter (overflowFlush_tq ((s.taken rest).expectDischarge c.sequence)) :),
      (congrArg Tracking.counters htq).trans ?_, (hcreates.keep .rm (by decide)).trans (overflowFlush_rm _),
      (hcreates.keep .rc (by decide)).trans (overflowFlush_rc (s := (s.taken rest).expectDischarge c.sequence) hring)⟩
    rw [← hfull]
    rfl
  · obtain ⟨seed, hseed, hcreates⟩ := takeDischarge_restart (s := s.taken rest) hactive he hgap
    have hbrokenTq := breakTracking_tq (s.taken rest)
    have hbrokenRm := breakTracking_rm (s.taken rest)
    have hbrokenRc := breakTracking_rc (s.taken rest)
    have hbrokenPos : (breakTracking (s.taken rest)).pos = s.pos := (breakTracking_only (s.taken rest)) .pos (by decide)
    generalize breakTracking (s.taken rest) = b at hcreates hbrokenTq hbrokenRm hbrokenRc hbrokenPos
    have hlength : b.tq.queue.length = 128 := by
      rw [hbrokenTq]
      exact hfull
    rw [createRecord_with_flush k seed (s := b.expectDischarge c.sequence) (le_of_eq hlength.symm)] at hcreates
    have htq := (hcreates.keep .tq (by decide)).trans (created_overflowFlush_tq _ k seed)
    have hrc := hcreates.keep .rc (by decide)
    refine ⟨_, seed.record k (overflowFlush (b.expectDischarge c.sequence)), hexec, hfrom, htq.trans ?_,
      (congrArg Tracking.canCounter (overflowFlush_tq (b.expectDischarge c.sequence)) :).trans
        (congrArg Tracking.canCounter hbrokenTq :), hseed,
      (hcreates.keep .rm (by decide)).trans ((overflowFlush_rm _).trans ?_), fun hsynced hfreezes => ?_,
      fun hstays hring => ?_⟩
    · rw [← hfull]
      simp only [State.expectDischarge, hbrokenTq]
      rfl
    · simp only [State.expectDischarge, hbrokenRm]
      rfl
    · have hfrozen : b.rc.freeze = .alarm ∧ b.rc.cause = (if s.rc.freeze = .alarm then s.rc.cause else some .lost) ∧
          b.rc.ring = s.rc.ring := by
        rw [hbrokenRc]
        by_cases halarm : s.rc.freeze = .alarm
        · rw [if_neg fun hall => hall.2.2 halarm, if_pos halarm]
          exact ⟨halarm, rfl, rfl⟩
        · rw [if_pos ⟨hsynced, hfreezes, halarm⟩, if_neg halarm]
          exact ⟨rfl, rfl, rfl⟩
      obtain ⟨halarm, hcause, hkept⟩ := hfrozen
      have hnot : b.rc.freeze ≠ .notFrozen := by
        rw [halarm]
        exact nofun
      rw [hrc.trans (overflowFlush_rc_of_frozen (s := b.expectDischarge c.sequence) hnot)]
      exact ⟨hkept, halarm, hcause⟩
    · rw [if_neg fun hall => hstays.elim (fun h => h hall.1) fun h => Bool.false_ne_true (h.symm.trans hall.2.1)] at hbrokenRc
      have hflushed := overflowFlush_rc (s := b.expectDischarge c.sequence) (by rw [show (b.expectDischarge c.sequence).rc = _ from hbrokenRc]; exact hring)
      refine hrc.trans (hflushed.trans ?_)
      simp only [State.expectDischarge, hbrokenRc, hbrokenTq, hbrokenPos]
      rfl
  · obtain ⟨a, b, rfl, hfull⟩ : ∃ a b : Nat, a + b = m ∧ s.tq.queue.length + a = 128 :=
      ⟨128 - s.tq.queue.length, s.tq.queue.length + m - 128, by omega, by omega⟩
    obtain ⟨seed, f, d, hseed, hlike, hlikeTq, hcreates⟩ := takeDischarge_meets (s := s.taken rest) hactive he hm hlow hhigh hfull
    have hmade : made = s.placeholder k := hmade
    have hcut : 128 - s.tq.queue.length = a := by omega
    have hflushTq := overflowFlush_tq f
    have hflushRm := overflowFlush_rm f
    have hflushRc := overflowFlush_rc (s := f) (by rw [hlike.keep .rc (by decide)]; exact hring)
    have hflushPos : (overflowFlush f).pos = s.pos :=
      ((overflowFlush_only f) .pos (by decide)).trans (hlike.keep .pos (by decide))
    generalize overflowFlush f = u at hcreates hflushTq hflushRm hflushRc hflushPos
    have hnumber : u.tq.canCounter = s.tq.canCounter + BitVec.ofNat 32 a := by
      rw [hflushTq, hlikeTq]
      rfl
    have hmore := placeholder_shift k hnumber hflushPos
    have hcount : s.tq.canCounter + BitVec.ofNat 32 a + BitVec.ofNat 32 b = s.tq.canCounter + BitVec.ofNat 32 (a + b) := by
      rw [BitVec.ofNat_add, BitVec.add_assoc]
    have hnext : s.tq.canCounter + BitVec.ofNat 32 a + BitVec.ofNat 32 b + 1 =
        s.tq.canCounter + BitVec.ofNat 32 (a + b + 1) := by
      rw [hcount, BitVec.ofNat_add _ 1, ← BitVec.add_assoc]
      rfl
    refine ⟨_, seed.record k ((u.placeholders k b).expectDischarge c.sequence), hexec, hfrom,
      (hcreates.keep .tq (by decide)).trans ?_, ?_, hseed, (hcreates.keep .rm (by decide)).trans (hflushRm.trans ?_),
      (hcreates.keep .rc (by decide)).trans (hflushRc.trans ?_)⟩
    · rw [hmade, hcut, drop_map_range]
      have htaken : (s.taken rest).tq = s.tq := rfl
      simp only [State.created, State.expectDischarge, State.placeholders, hmore]
      simp only [hflushTq, hlikeTq, State.placeholders, htaken, hnext, tally_tally, List.length_append, List.length_map,
        List.length_range, hfull, List.nil_append]
    · show u.tq.canCounter + BitVec.ofNat 32 b = _
      rw [hnumber, hcount]
    · have hsame : f.rm = s.rm := hlike.keep .rm (by decide)
      rw [hsame]
    · have hsame : f.rc = s.rc := hlike.keep .rc (by decide)
      have hstill : f.pos = s.pos := hlike.keep .pos (by decide)
      rw [hmade, hcut, take_map_range, hsame, hstill, hlikeTq]
      rfl

end Sys2Proof.Machine
end

section
/-!
PROOFS, seam frames (R69 to R73, R79).
-/

namespace Sys2Proof.Machine

/-! ### Lost and orphan seams (R69, R70, R73) -/

/-- The matcher after a break of the tracking (R98). -/
def Reader.broken (rm : Reader) : Reader :=
  { rm with cleanRun := 0, tracking := if rm.tracking = .synced then .lost else rm.tracking }

theorem Reader.broken_broken (rm : Reader) : rm.broken.broken = rm.broken := by
  unfold Reader.broken
  by_cases h : rm.tracking = .synced
  · simp only [if_pos h]
    rfl
  · simp only [if_neg h]

theorem isFilled_eq_true {r : CanRecord} (h : r.stage = .filled) : r.isFilled = true := by
  rw [CanRecord.isFilled, h]
  rfl

theorem isFilled_eq_false {r : CanRecord} (h : r.stage ≠ .filled) : r.isFilled = false := by
  rw [CanRecord.isFilled, beq_eq_false_iff_ne]
  exact h

/-- A record coded by a lost seam: the null tag and no head (R69). -/
def CanRecord.codedLost (r : CanRecord) : CanRecord :=
  { r with stage := .coded, head := none, tag := some 4095 }

/-- Lost seams code the oldest FILLED records in turn (R69). -/
theorem codeLostSeams_append (n : Nat) (lost b : List CanRecord) (hlost : ∀ x ∈ lost, x.stage = .filled) :
    ∀ a : List CanRecord, (∀ x ∈ a, x.stage ≠ .filled) → codeLostSeams (lost.length + n) (a ++ lost ++ b) =
      codeLostSeams n (a ++ lost.map CanRecord.codedLost ++ b) := by
  induction lost with
  | nil => exact fun a _ => by rw [List.length_nil, Nat.zero_add]; rfl
  | cons r rest ih =>
    intro a ha
    have hr : r.stage = .filled := hlost r List.mem_cons_self
    have hqueue : a ++ r :: rest ++ b = a ++ r :: (rest ++ b) := by simp
    have hfirst := updateFirst_of_first CanRecord.codedLost hqueue (fun x hx => isFilled_eq_false (ha x hx))
      (isFilled_eq_true hr)
    have hany : (a ++ r :: rest ++ b).any CanRecord.isFilled = true := by
      rw [hqueue]
      simp [isFilled_eq_true hr]
    have hstep : codeLostSeams ((r :: rest).length + n) (a ++ r :: rest ++ b) =
        codeLostSeams (rest.length + n) (updateFirst CanRecord.isFilled CanRecord.codedLost (a ++ r :: rest ++ b)) := by
      rw [List.length_cons, Nat.add_right_comm]
      exact if_pos hany
    have hnot (x) (hx : x ∈ a ++ [r.codedLost]) : x.stage ≠ .filled := by
      rcases List.mem_append.mp hx with hx | hx
      · exact ha x hx
      · rw [List.mem_singleton.mp hx]
        exact nofun
    have hnext := ih (fun x hx => hlost x (List.mem_cons_of_mem _ hx)) (a ++ [r.codedLost]) hnot
    rw [hstep, hfirst]
    simpa using hnext

theorem codeLostSeams_of_none {q : List CanRecord} (n : Nat) (h : ∀ x ∈ q, x.stage ≠ .filled) : codeLostSeams n q = (q, n) := by
  cases n with
  | zero => rfl
  | succ n =>
    refine if_neg fun hany => ?_
    obtain ⟨x, hx, hfilled⟩ := List.any_eq_true.mp hany
    exact Bool.false_ne_true ((isFilled_eq_false (h x hx)).symm.trans hfilled)

theorem orphanSeams_tq (n : Nat) (s : State) : (orphanSeams n s).tq =
    { s.tq with counters := { s.tq.counters with orphanSeams := tally s.tq.counters.orphanSeams n } } :=
  breakTracking_tq _

theorem orphanSeams_rm (n : Nat) (s : State) : (orphanSeams n s).rm = s.rm.broken :=
  breakTracking_rm _

theorem orphanSeams_grows (n : Nat) (s : State) : s.fp.Grows [] (orphanSeams n s).fp :=
  (orphanSeams_tells n (.refl s)).grows

/-- The distance of a seam frame from the expected sequence (R69). -/
def Tracking.seamDistance (q : Tracking) (seq : Byte) : Nat := q.seamExp.elim 0 fun e => (seq - e).toNat

theorem seamGap_of_many {seq : Byte} {s : State} (h : 17 ≤ s.tq.seamDistance seq) : seamGap seq s = breakTracking s := by
  unfold Tracking.seamDistance at h
  unfold seamGap
  cases he : s.tq.seamExp with
  | none =>
    rw [he] at h
    exact absurd h (Nat.not_succ_le_zero 16)
  | some e =>
    have hgap : 17 ≤ seqGap seq e := by
      rw [he] at h
      exact h
    dsimp only
    rw [if_neg (by omega), if_neg (by show ¬ _ ≤ 16; omega)]

theorem seamGap_of_few {seq : Byte} {s : State} (h : s.tq.seamDistance seq ≤ 16) : seamGap seq s =
    if (codeLostSeams (s.tq.seamDistance seq) s.tq.queue).2 = 0 then
      s.withQueue (codeLostSeams (s.tq.seamDistance seq) s.tq.queue).1
    else orphanSeams (codeLostSeams (s.tq.seamDistance seq) s.tq.queue).2
      (s.withQueue (codeLostSeams (s.tq.seamDistance seq) s.tq.queue).1) := by
  unfold seamGap
  cases he : s.tq.seamExp with
  | none =>
    have hd : s.tq.seamDistance seq = 0 := by
      rw [Tracking.seamDistance, he]
      rfl
    rw [hd]
    rfl
  | some e =>
    have hd : s.tq.seamDistance seq = seqGap seq e := by
      rw [Tracking.seamDistance, he]
      rfl
    rw [hd] at h ⊢
    dsimp only
    generalize seqGap seq e = m at h ⊢
    by_cases hzero : m = 0
    · subst hzero
      rfl
    · rw [if_neg hzero, if_pos (by exact h)]

section Gap

variable {s : State} {seq : Byte} {a lost b : List CanRecord}

/-- A gap whose lost seams all find a record (R69). -/
theorem seamGap_of_found (hqueue : s.tq.queue = a ++ lost ++ b) (ha : ∀ x ∈ a, x.stage ≠ .filled)
    (hlost : ∀ x ∈ lost, x.stage = .filled) (hd : lost.length = s.tq.seamDistance seq) (hfew : s.tq.seamDistance seq ≤ 16) :
    seamGap seq s = s.withQueue (a ++ lost.map CanRecord.codedLost ++ b) := by
  have hcoded := codeLostSeams_append 0 lost b hlost a ha
  rw [Nat.add_zero] at hcoded
  rw [seamGap_of_few hfew, hqueue, ← hd, hcoded]
  rfl

/-- A gap with more lost seams than FILLED records: the others are orphans (R69, R73). -/
theorem seamGap_of_orphans (hqueue : s.tq.queue = a ++ lost ++ b) (ha : ∀ x ∈ a, x.stage ≠ .filled)
    (hlost : ∀ x ∈ lost, x.stage = .filled) (hb : ∀ x ∈ b, x.stage ≠ .filled) (hd : lost.length < s.tq.seamDistance seq)
    (hfew : s.tq.seamDistance seq ≤ 16) : seamGap seq s =
      orphanSeams (s.tq.seamDistance seq - lost.length) (s.withQueue (a ++ lost.map CanRecord.codedLost ++ b)) := by
  have hcoded := codeLostSeams_append (s.tq.seamDistance seq - lost.length) lost b hlost a ha
  have hnone (x) (hx : x ∈ a ++ lost.map CanRecord.codedLost ++ b) : x.stage ≠ .filled := by
    rcases List.mem_append.mp hx with hx | hx
    · rcases List.mem_append.mp hx with hx | hx
      · exact ha x hx
      · obtain ⟨y, -, rfl⟩ := List.mem_map.mp hx
        exact nofun
    · exact hb x hx
  rw [codeLostSeams_of_none _ hnone, Nat.add_sub_of_le (le_of_lt hd)] at hcoded
  rw [seamGap_of_few hfew, hqueue, hcoded]
  exact if_neg (by dsimp only; omega)

end Gap

/-! ### The frame's own seam (R71 to R73) -/

theorem seamOwn_of_none (head : Byte) {s : State} (h : ∀ x ∈ s.tq.queue, x.stage ≠ .filled) :
    seamOwn head s = orphanSeams 1 s := by
  unfold seamOwn
  rw [List.find?_eq_none.mpr fun x hx => Bool.eq_false_iff.mp (isFilled_eq_false (h x hx))]

/-- The record that the frame's own seam has coded (R71). -/
def CanRecord.coded (r : CanRecord) (head : Byte) (tag : Tag) (heads : Nat) : CanRecord :=
  { r with stage := .coded, head := some head, tag := some tag, headRange := decide (heads ≤ head.toNat) }

theorem seamOwn_of_first (head : Byte) {s : State} {a b : List CanRecord} {r : CanRecord} (hqueue : s.tq.queue = a ++ r :: b)
    (ha : ∀ x ∈ a, x.stage ≠ .filled) (hr : r.stage = .filled) : seamOwn head s =
      (issueTag r.number s).1.withQueue (a ++ r.coded head (issueTag r.number s).2 s.ma.setup.headCount :: b) := by
  have ha (x) (hx : x ∈ a) : x.isFilled = false := isFilled_eq_false (ha x hx)
  have htq : (issueTag r.number s).1.tq.queue = a ++ r :: b := by
    rw [(issueTag_tq r.number s).1]
    exact hqueue
  unfold seamOwn
  rw [find?_of_first hqueue ha (isFilled_eq_true hr)]
  dsimp only
  rw [updateFirst_of_first _ htq ha (isFilled_eq_true hr)]
  rfl

/-- The state whose tag counter a seam has advanced (R72, R79). -/
def State.tagged (s : State) : State :=
  { s with tq := { s.tq with tagCounter := nextTag s.tq.tagCounter } }

theorem issueTag_without_coder (n : Word32) {s : State} (h : s.ma.setup.coder = 255) :
    issueTag n s = (s.tagged, s.tq.tagCounter) :=
  if_pos h

theorem issueTag_joined (n : Word32) {s : State} (h : s.ma.setup.coder ≠ 255)
    (hup : (s.fp.port s.ma.setup.coderPort).linkUp = true)
    (hroom : (s.fp.port s.ma.setup.coderPort).printTag.length < 4) : issueTag n s =
      (s.tagged.withFp { s.fp.setPort s.ma.setup.coderPort ((s.fp.port s.ma.setup.coderPort).setQueue .printTag
          ((s.fp.port s.ma.setup.coderPort).printTag ++
            [insertedFrame s.fp.station s.ma.setup.coder 240 s.fp.seqMgmt (printTagPayload s.tq.tagCounter n)])) with
        seqMgmt := s.fp.seqMgmt + 1 }, s.tq.tagCounter) := by
  unfold issueTag
  dsimp only
  rw [if_neg h, FramePath.offer_joins (cls := .printTag) _ _ hup hroom]
  rfl

theorem issueTag_dropped (n : Word32) {s : State} (h : s.ma.setup.coder ≠ 255)
    (hdrops : (s.fp.port s.ma.setup.coderPort).linkUp = false ∨ 4 ≤ (s.fp.port s.ma.setup.coderPort).printTag.length) :
    issueTag n s =
      (s.tagged.withFp (s.fp.setPort s.ma.setup.coderPort ((s.fp.port s.ma.setup.coderPort).countDropped 1)), 4095) := by
  unfold issueTag
  dsimp only
  rw [if_neg h, FramePath.offer_drops (cls := .printTag) _ _ (by decide) hdrops]
  rfl

/-- The state with the expectation of seams after a frame (R69). -/
def State.expectSeam (s : State) (seq : Byte) : State :=
  { s with tq := { s.tq with seamExp := some (seq + 1) } }

theorem takeSeam_eq (c : Copy) (s : State) :
    takeSeam c s = seamOwn (seamHead c.payload) ((seamGap c.sequence s).expectSeam c.sequence) := rfl

/-- A seam frame that finds no FILLED record for its own seam: it is an orphan after those of its gap (R73, R98). -/
theorem takeSeam_orphan {c : Copy} {s g : State} {q : List CanRecord} {n : Nat} (hgap : seamGap c.sequence s = g)
    (hnone : ∀ x ∈ q, x.stage ≠ .filled) (htq : g.tq = { s.tq with
      queue := q, counters := { s.tq.counters with orphanSeams := tally s.tq.counters.orphanSeams n } })
    (hrm : g.rm.broken = s.rm.broken) (hgrows : s.fp.Grows [] g.fp) :
    (takeSeam c s).tq = { s.tq with
      queue := q, seamExp := some (c.sequence + 1)
      counters := { s.tq.counters with orphanSeams := tally s.tq.counters.orphanSeams (n + 1) } } ∧
    (takeSeam c s).rm = s.rm.broken ∧ s.fp.Grows [] (takeSeam c s).fp := by
  have heq : takeSeam c s = orphanSeams 1 (g.expectSeam c.sequence) := by
    rw [takeSeam_eq, hgap, seamOwn_of_none]
    rw [State.expectSeam, htq]
    exact hnone
  rw [heq]
  refine ⟨?_, (orphanSeams_rm ..).trans hrm, hgrows.trans (orphanSeams_grows 1 (g.expectSeam c.sequence))⟩
  rw [orphanSeams_tq]
  simp only [State.expectSeam, htq, tally_tally]

/-- A seam frame whose own seam finds a FILLED record: it codes it and issues its tag (R71, R72). -/
theorem takeSeam_codes {c : Copy} {s g : State} {a b : List CanRecord} {r : CanRecord} (hgap : seamGap c.sequence s = g)
    (hqueue : g.tq.queue = a ++ r :: b) (ha : ∀ x ∈ a, x.stage ≠ .filled) (hr : r.stage = .filled) :
    takeSeam c s = (issueTag r.number (g.expectSeam c.sequence)).1.withQueue
      (a ++ r.coded (seamHead c.payload) (issueTag r.number (g.expectSeam c.sequence)).2 g.ma.setup.headCount :: b) := by
  rw [takeSeam_eq, hgap, seamOwn_of_first _ (by exact hqueue) ha hr]
  rfl

theorem takeSeam_from (c : Copy) (rest : List (Role × Copy)) (s : State) :
    OnlyChanges queueBlocks s (takeSeam c (s.taken rest)) :=
  ((withFp_only s _).mono (by decide)).andThen (takeSeam_only c (s.taken rest)) (by decide)

theorem exec_seamFrame_of_hands {s : State} {c : Copy} {rest : List (Role × Copy)} (h : s.hands .seam c rest) :
    exec .seamFrame s = .next (takeSeam c (s.taken rest)) := by
  rw [exec_eq_effect, effect_seamFrame, onHanded_of_hands _ h]

theorem takeSeam_handed (c : Copy) (s : State) : (takeSeam c s).fp.handed = s.fp.handed :=
  (takeSeam_tells c (l := [.printTag]) (by decide) (.refl s)).grows.handed

theorem FramePath.port_seqMgmt (fp : FramePath) (n : Byte) (p : Port) : ({ fp with seqMgmt := n }).port p = fp.port p := by
  cases p <;> rfl

theorem printTagPayload_eq (tag : Tag) (n : Word32) :
    printTagPayload tag n = [0x81, 0] ++ beBytes 2 tag.toNat ++ beBytes 4 n.toNat := rfl

/-- Settles O27: the gap codes or orphans the lost seams, and the frame's own seam codes the first FILLED record that is left,
or is an orphan. -/
theorem seamCodesOldestFilled : Obligations.SeamCodesOldestFilled := by
  unfold Obligations.SeamCodesOldestFilled
  rintro s c rest head m hhands rfl hm
  have hm : m = (s.taken rest).tq.seamDistance c.sequence := by
    rw [hm]
    show _ = s.tq.seamExp.elim _ _
    cases s.tq.seamExp <;> rfl
  clear * - hm hhands
  subst hm
  have hexec := exec_seamFrame_of_hands hhands
  have hfrom := takeSeam_from c rest s
  have hhanded := takeSeam_handed c (s.taken rest)
  have horphans {g : State} {q : List CanRecord} {n : Nat} (hgap : seamGap c.sequence (s.taken rest) = g)
      (hnone : ∀ x ∈ q, x.stage ≠ .filled) (htq : g.tq = { (s.taken rest).tq with
        queue := q
        counters := { (s.taken rest).tq.counters with orphanSeams := tally (s.taken rest).tq.counters.orphanSeams n } })
      (hrm : g.rm.broken = (s.taken rest).rm.broken) (hgrows : (s.taken rest).fp.Grows [] g.fp) :
      ∃ t : State, exec .seamFrame s = .next t ∧ OnlyChanges queueBlocks s t ∧ t.fp.handed = rest ∧
        t.tq = { s.tq with
          queue := q, seamExp := some (c.sequence + 1)
          counters := { s.tq.counters with orphanSeams := tally s.tq.counters.orphanSeams (n + 1) } } ∧
        t.rm = s.rm.broken ∧ ∀ p : Port, (t.fp.port p).printTag = (s.fp.port p).printTag := by
    obtain ⟨htq, hrm, hgrows⟩ := takeSeam_orphan hgap hnone htq hrm hgrows
    exact ⟨_, hexec, hfrom, hhanded, htq, hrm, fun p => (hgrows.port p).queue .printTag List.not_mem_nil (by decide)⟩
  refine ⟨?_, fun hzero hnone => ?_, ?_, fun hmany hnone => ?_, ?_⟩
  · rintro a lost b r hqueue ha hfew hlength hlost hr
    have hgap := seamGap_of_found (s := s.taken rest) (by exact hqueue) ha hlost hlength hfew
    have hnot (x) (hx : x ∈ a ++ lost.map CanRecord.codedLost) : x.stage ≠ .filled := by
      rcases List.mem_append.mp hx with hx | hx
      · exact ha x hx
      · obtain ⟨y, -, rfl⟩ := List.mem_map.mp hx
        exact nofun
    have heq := takeSeam_codes hgap rfl hnot hr
    generalize hg : ((s.taken rest).withQueue (a ++ lost.map CanRecord.codedLost ++ r :: b)).expectSeam c.sequence = g at heq
    have hset : g.ma = s.ma := by rw [← hg]; rfl
    have hcounter : g.tq.tagCounter = s.tq.tagCounter := by rw [← hg]; rfl
    have honly : OnlyChanges [.fp, .tq] s g := by
      rw [← hg]
      exact (((withFp_only s _).mono (by decide)).put_tq _ (by decide)).put_tq _ (by decide)
    have hissued := issueTag_only r.number g
    have htq := (issueTag_tq r.number g).1
    rw [heq] at hexec hhanded
    refine ⟨_, (issueTag r.number g).2, hexec, (honly.andThen hissued (by decide)).put_tq _ (by decide), hhanded, ?_, fun hcoder => ?_,
      fun hcoder hup hroom => ?_, fun hcoder hdrops => ?_⟩
    · rw [State.withQueue, htq]
      rw [← hg]
      rfl
    · rw [issueTag_without_coder _ (by rw [hset]; exact hcoder)]
      exact ⟨hcounter, by rw [← hg]; rfl⟩
    · subst hg
      rw [issueTag_joined _ (by exact hcoder) (by exact hup) (by exact hroom)]
      refine ⟨rfl, rfl, ?_⟩
      rw [← printTagPayload_eq]
      exact congrArg PortState.printTag ((FramePath.port_seqMgmt _ _ _).trans
        ((FramePath.setPort_get _ _ _ _).trans (if_pos rfl)))
    · subst hg
      rw [issueTag_dropped _ (by exact hcoder) (by exact hdrops)]
      exact ⟨rfl, rfl⟩
  · have hgap : seamGap c.sequence (s.taken rest) = s.taken rest := by
      rw [seamGap_of_few (by omega), hzero]
      rfl
    exact horphans (n := 0) hgap hnone (by rw [tally_zero]; rfl) rfl (.refl _ _)
  · rintro a lost b hqueue ha hlost hb hle hfew
    have hnone (x) (hx : x ∈ a ++ lost.map CanRecord.codedLost ++ b) : x.stage ≠ .filled := by
      rcases List.mem_append.mp hx with hx | hx
      · rcases List.mem_append.mp hx with hx | hx
        · exact ha x hx
        · obtain ⟨y, -, rfl⟩ := List.mem_map.mp hx
          exact nofun
      · exact hb x hx
    rcases Nat.lt_or_eq_of_le hle with hlt | heq
    · have hgap := seamGap_of_orphans (s := s.taken rest) (by exact hqueue) ha hlost hb hlt hfew
      have htq := orphanSeams_tq ((s.taken rest).tq.seamDistance c.sequence - lost.length)
        ((s.taken rest).withQueue (a ++ lost.map CanRecord.codedLost ++ b))
      have hrm := orphanSeams_rm ((s.taken rest).tq.seamDistance c.sequence - lost.length)
        ((s.taken rest).withQueue (a ++ lost.map CanRecord.codedLost ++ b))
      have hgrows := orphanSeams_grows ((s.taken rest).tq.seamDistance c.sequence - lost.length)
        ((s.taken rest).withQueue (a ++ lost.map CanRecord.codedLost ++ b))
      generalize orphanSeams _ ((s.taken rest).withQueue (a ++ lost.map CanRecord.codedLost ++ b)) = g at hgap htq hrm hgrows
      refine horphans hgap hnone htq ?_ hgrows
      rw [hrm]
      exact Reader.broken_broken _
    · have hgap := seamGap_of_found (s := s.taken rest) (by exact hqueue) ha hlost heq hfew
      rw [← heq, Nat.sub_self]
      exact horphans (n := 0) hgap hnone (by rw [tally_zero]; rfl) rfl (.refl _ _)
  · have hgap := seamGap_of_many (s := s.taken rest) hmany
    refine horphans (n := 0) hgap hnone (by rw [tally_zero, breakTracking_tq]; rfl) ?_ ?_
    · rw [breakTracking_rm]
      exact Reader.broken_broken _
    · exact (breakTracking_tells (l := []) (.refl (s.taken rest))).grows
  · rintro a b r hqueue ha hr hmany
    have hgap := seamGap_of_many (s := s.taken rest) hmany
    have htq := breakTracking_tq (s.taken rest)
    have hrm := breakTracking_rm (s.taken rest)
    have hma : (breakTracking (s.taken rest)).ma = s.ma := (breakTracking_only _) .ma (by decide)
    generalize breakTracking (s.taken rest) = g at hgap htq hrm hma
    have heq := takeSeam_codes hgap (by rw [htq]; exact hqueue) ha hr
    obtain ⟨hissuedTq, htag, -, -⟩ := issueTag_tq r.number (g.expectSeam c.sequence)
    have hissuedRm := (issueTag_only r.number (g.expectSeam c.sequence)) .rm (by decide)
    generalize issueTag r.number (g.expectSeam c.sequence) = o at heq hissuedTq htag hissuedRm
    rw [heq] at hexec hhanded hfrom
    refine ⟨_, o.2, hexec, hfrom, hhanded, ?_, ?_, ?_⟩
    · rw [State.withQueue, hissuedTq, hma]
      simp only [State.expectSeam, htq]
      rfl
    · exact htag.symm.imp_left (·.trans (congrArg Tracking.tagCounter htq :))
    · exact hissuedRm.trans hrm

end Sys2Proof.Machine
end

section
/-!
PROOFS, the read commands (R83, R123, R147, R173, R184, R185, R197).
-/

namespace Sys2Proof.Machine

/-! ### Layouts of Table 12-7 -/

/-- The number of a stage (Table 12-1). -/
def stageNumber (x : Stage) : Nat :=
  match x with
  | .filled => 0
  | .coded => 1
  | .passed => 2

theorem stageCode_eq (x : Stage) : [stageCode x] = beBytes 1 (stageNumber x) := by
  cases x <;> rfl

theorem flagByte_eq (b : Bool) : [flagByte b] = beBytes 1 (if b then 1 else 0) := by
  cases b <;> rfl

/-- The number of a valve mode (Table 12-1). -/
def modeNumber (x : ValveMode) : Nat :=
  match x with
  | .auto => 0
  | .fixed => 1
  | .excluded => 2

/-- The number of a valve state (Table 12-1). -/
def valveNumber (x : ValveState) : Nat :=
  match x with
  | .excluded => 0
  | .fixed => 1
  | .settling => 2
  | .collecting => 3
  | .fault => 4

theorem modeCode_eq (m : ValveMode) (x : ValveState) :
    [valveModeCode m, valveStateCode x] = beBytes 1 (modeNumber m) ++ beBytes 1 (valveNumber x) := by
  cases m <;> cases x <;> rfl

/-- The number of a fate (Table 12-1). -/
def fateNumber (x : Fate) : Nat :=
  match x with
  | .judged => 0
  | .missing => 1
  | .flushed => 2

theorem fateCode_eq (x : Fate) : [fateCode x] = beBytes 1 (fateNumber x) := by
  cases x <;> rfl

theorem zeroByte_eq : [(0 : Byte)] = beBytes 1 0 := rfl

/-- The code of a freeze cause, 0 when absent (R197). -/
def causeNumber (x : Option FreezeCause) : Byte :=
  match x with
  | some .burst => 0
  | some .lost => 1
  | some .unconfirmed => 2
  | some .command => 3
  | none => 0

theorem causeCode_eq (x : Option FreezeCause) : causeCode x = causeNumber x := by
  cases x with
  | none => rfl
  | some cause => cases cause <;> rfl

theorem summaryBytes_eq (r : CanRecord) : summaryBytes r = laidOut [(4, r.number.toNat), (1, r.product.val),
    (1, r.valve.elim 0 (·.val)), (2, r.setPoint.elim 0 (·.toNat)), (2, r.epoch.toNat), (4, r.dischargePos.toNat), (2, r.age),
    (1, stageNumber r.stage), (1, r.head.elim 0 (·.toNat)), (2, r.tag.elim 0 (·.toNat)), (1, readNumber r.readResult),
    flagField 1 [r.settled, r.lotOk, r.placeholder, r.valveRange, r.headRange],
    flagField 1 [r.valve.isSome, r.setPoint.isSome, r.head.isSome, r.tag.isSome, r.readResult.isSome], (1, 0)] := by
  simp only [summaryBytes, optBytes_eq, optValve_eq, optRead_eq, stageCode_eq, flagField_eq, laidOut_cons, laidOut_nil,
    zeroByte_eq, List.append_nil, List.append_assoc]

theorem scheduleEntryBytes_eq (e : RejectEntry) : scheduleEntryBytes e = laidOut [(4, e.number.elim 0 (·.toNat)),
    (1, (classIndex e.cls).val), (1, if e.fired then 1 else 0), (4, e.firePos.toNat), (4, e.deadline.elim 0 (·.toNat)),
    flagField 1 [e.late, e.number.isSome, e.deadline.isSome], (1, 0)] := by
  simp only [scheduleEntryBytes, optBytes_eq, flagByte_eq, flagField_eq, laidOut_cons, laidOut_nil, zeroByte_eq,
    List.append_nil, List.append_assoc]

theorem valveRecordBytes_eq (s : State) (v : Fin Config.valves) : s.valveRecordBytes v = laidOut [(1, v.val),
    (1, modeNumber s.te.table[v].mode), (1, valveNumber s.te.valves[v].state),
    flagField 1 [s.te.valves[v].limit, s.rw.expected[v].isSome, s.te.valves[v].lastChange.isSome, s.te.valves[v].armed],
    signedField 2 s.te.valves[v].trim, (2, s.te.valves[v].n), signedField 5 s.te.valves[v].eAvg,
    (1, s.te.valves[v].unsettledRun), (4, s.te.valves[v].weighed.toNat), (4, s.te.valves[v].rejected.toNat),
    (4, s.te.valves[v].trimChanges.toNat), (4, s.te.valves[v].lastChange.elim 0 (·.toNat)),
    (2, s.rw.expected[v].elim 0 (·.toNat)), (2, s.rw.epoch[v].toNat), (2, s.te.valves[v].countdown)] := by
  simp only [State.valveRecordBytes, counterBytes, optBytes_eq, modeCode_eq, beSigned_eq, flagField_eq, laidOut_cons,
    laidOut_nil, List.append_nil, List.append_assoc]

theorem ringEntryBytes_eq (e : RingEntry) : ringEntryBytes e = laidOut [(4, e.number.elim 0 (·.toNat)),
    flagField 2 [e.number.isSome, e.product.isSome, e.valve.isSome, e.head.isSome, e.tag.isSome, e.readResult.isSome,
      e.gross.isSome, e.net.isSome, e.cls.isSome],
    (1, e.product.elim 0 (·.val)), (1, e.valve.elim 0 (·.val)), (1, e.head.elim 0 (·.toNat)), (2, e.tag.elim 0 (·.toNat)),
    (1, readNumber e.readResult), signedField 4 (e.gross.getD 0), signedField 4 (e.net.getD 0),
    (1, e.cls.elim 0 fun c => (classIndex c).val), (1, fateNumber e.fate),
    flagField 1 [e.short, e.gap, e.late, e.settled, e.scheduled], (4, e.linePos.toNat), (1, 0)] := by
  unfold ringEntryBytes
  cases e.product <;> cases e.cls <;>
    simp only [optBytes_eq, optValve_eq, optRead_eq, optWeight, beSigned_eq, fateCode_eq, flagField_eq, laidOut_cons, laidOut_nil,
      zeroByte_eq, List.append_nil, List.append_assoc, Option.elim_none, Option.elim_some]

theorem laidOut_length (fields : List (Nat × Nat)) : (laidOut fields).length = (fields.map Prod.fst).sum := by
  induction fields with
  | nil => rfl
  | cons f rest ih => rw [laidOut_cons, List.length_append, beBytes_length, ih, List.map_cons, List.sum_cons]

theorem flatMap_length_const {α β : Type} (f : α → List β) (n : Nat) (hf : ∀ x, (f x).length = n) (l : List α) :
    (l.flatMap f).length = n * l.length := by
  induction l with
  | nil => rfl
  | cons x rest ih => rw [List.flatMap_cons, List.length_append, hf, ih, List.length_cons, Nat.mul_succ, Nat.add_comm]

theorem summaryBytes_length (r : CanRecord) : (summaryBytes r).length = 24 := by
  rw [summaryBytes_eq, laidOut_length]
  rfl

theorem valveRecordBytes_length (s : State) (v : Fin Config.valves) : (s.valveRecordBytes v).length = 36 := by
  rw [valveRecordBytes_eq, laidOut_length]
  rfl

theorem ringEntryBytes_length (e : RingEntry) : (ringEntryBytes e).length = 28 := by
  rw [ringEntryBytes_eq, laidOut_length]
  rfl

/-- The record of the valve of an index, nothing beyond the last (R147). -/
def State.valveBytesAt (s : State) (i : Nat) : List Byte :=
  if h : i < Config.valves then s.valveRecordBytes ⟨i, h⟩ else []

theorem valvesBytes_eq (s : State) (first count : Nat) :
    s.valvesBytes first count = ((List.range count).map fun i => s.valveBytesAt (first + i)).flatten :=
  List.flatMap_def

theorem valvesBytes_length (s : State) {first count : Nat} (h : first + count ≤ 96) :
    (s.valvesBytes first count).length = 36 * count := by
  rw [valvesBytes_eq, List.length_flatten, List.map_map]
  have hconst : (List.range count).map (List.length ∘ fun i => s.valveBytesAt (first + i)) = List.replicate count 36 := by
    refine List.eq_replicate_iff.mpr ⟨by simp, fun x hx => ?_⟩
    obtain ⟨i, hi, rfl⟩ := List.mem_map.mp hx
    have hlt : first + i < Config.valves := lt_of_lt_of_le (Nat.add_lt_add_left (List.mem_range.mp hi) first) h
    simp only [Function.comp_apply, State.valveBytesAt, dif_pos hlt, valveRecordBytes_length]
  rw [hconst, List.sum_replicate]
  exact Nat.mul_comm ..

/-! ### Counters and the status word (R191, R197) -/

theorem countersBytes_eq (l : List Counter) : countersBytes l = laidOut (l.map fun c => (4, c.toNat)) := by
  rw [laidOut, List.flatMap_map]
  rfl

theorem countersBytes_append (l m : List Counter) : countersBytes (l ++ m) = countersBytes l ++ countersBytes m :=
  List.flatMap_append

theorem countersBytes_length (l : List Counter) : (countersBytes l).length = 4 * l.length :=
  flatMap_length_const _ 4 (fun _ => beBytes_length ..) l

theorem countersData_length (s : State) : s.countersData.length = 322 := by
  simp only [State.countersData, List.length_append, countersBytes_length, beSigned_length, beBytes_length,
    State.frontCounters, State.backCounters, Vector.length_toList]
  rfl

theorem bitsOf_lt (l : List Bool) : bitsOf l < 2 ^ l.length := by
  induction l with
  | nil => decide
  | cons b rest ih =>
    have hb : b.toNat ≤ 1 := Bool.toNat_le b
    rw [bitsOf, List.length_cons, Nat.pow_succ]
    omega

theorem statusWord_toNat (s : State) : s.statusWord.toNat = bitsOf [s.jr.lineStop, decide (s.rm.tracking = .synced),
    decide (s.rm.tracking = .lost), s.te.trimHold, s.fe.zeroFault, s.fe.weigherSilent, s.pos.fault, s.rc.captureReady,
    decide (s.rc.freeze ≠ .notFrozen), s.ma.load.isSome, s.ma.overrun, s.te.attention, s.jr.unexpected, s.fe.zeroDone] := by
  have hsynced : (trackingCode s.rm.tracking).testBit 0 = decide (s.rm.tracking = .synced) := by
    cases s.rm.tracking <;> rfl
  have hlost : (trackingCode s.rm.tracking).testBit 1 = decide (s.rm.tracking = .lost) := by
    cases s.rm.tracking <;> rfl
  have hfrozen : s.ringFrozen = decide (s.rc.freeze ≠ .notFrozen) := by
    unfold State.ringFrozen
    cases s.rc.freeze <;> rfl
  unfold State.statusWord
  rw [hsynced, hlost, hfrozen, BitVec.toNat_ofNat]
  refine Nat.mod_eq_of_lt (lt_of_lt_of_le (bitsOf_lt _) ?_)
  exact Nat.pow_le_pow_right (by decide) (by simp)

/-! ### The commands -/

theorem readTableBody_of_range {code first count : Byte} {more : List Byte} {t : TableId} (s : State)
    (ht : tableOfCode code = some t) (hlow : 1 ≤ count.toNat) (hhigh : count.toNat ≤ 8)
    (hrange : first.toNat + count.toNat ≤ tableSize t) : readTableBody (code :: first :: count :: more) s =
      (s, { data := s.tableBytes t first.toNat count.toNat }) := by
  unfold readTableBody
  simp only [byteAt, List.getD_cons_zero, List.getD_cons_succ, ht]
  exact if_neg (by omega)

theorem readTableBody_of_refused {code first count : Byte} {more : List Byte} (s : State)
    (h : tableOfCode code = none ∨ count.toNat = 0 ∨ 8 < count.toNat ∨
      ∃ t, tableOfCode code = some t ∧ tableSize t < first.toNat + count.toNat) :
    readTableBody (code :: first :: count :: more) s = (s, { status := .badArgument }) := by
  unfold readTableBody
  simp only [byteAt, List.getD_cons_zero, List.getD_cons_succ]
  cases ht : tableOfCode code with
  | none => rfl
  | some t =>
    refine if_pos ?_
    rcases h with h | h | h | ⟨u, hu, h⟩
    · exact absurd (ht.symm.trans h) nofun
    · exact .inl (by omega)
    · exact .inr (.inl h)
    · cases ht.symm.trans hu
      exact .inr (.inr h)

theorem readValves_range {first count : Nat} (hlow : 1 ≤ count) (hhigh : count ≤ 24) (hrange : first + count ≤ 96) :
    ¬ (count < 1 ∨ 24 < count ∨ Config.valves < first + count) := by
  rintro (h | h | h)
  · omega
  · omega
  · exact absurd h (not_lt.mpr hrange)

theorem identification_eq (s : State) : s.identification =
    [0x4B, 0x57, 0x06, 0x40, 2, s.fp.station, if s.fp.parityFault then 1 else 0, 128, 32, 96, 16, 4, 32] := rfl

/-- Settles O52: the layouts are those of the code, field by field, and each command answers from the state. -/
theorem readCommandsAnswer : Obligations.ReadCommandsAnswer := by
  unfold Obligations.ReadCommandsAnswer
  refine ⟨⟨summaryBytes_eq, scheduleEntryBytes_eq, ?_, ?_, ringEntryBytes_eq, by decide, ?_, ?_, ?_⟩, ?_, ?_, ?_, ?_, ?_, ?_, ?_, ?_⟩
  · rintro s v r rfl
    exact valveRecordBytes_eq s v
  · intro s first count h
    refine ⟨_, ?_, valvesBytes_eq s first count, fun i v hi hv => ?_⟩
    · simp
    · have hlt : first + i < Config.valves := lt_of_lt_of_le (Nat.add_lt_add_left hi first) h
      rw [List.getElem?_map, List.getElem?_range hi]
      refine congrArg some ?_
      exact (dif_pos hlt).trans (congrArg _ (Fin.ext hv.symm))
  · intro s
    exact ⟨rfl, rfl, fun i => dif_pos i.isLt, fun i => dif_pos i.isLt, fun i => dif_pos i.isLt, fun i => dif_pos i.isLt⟩
  · intro s
    rw [statusWord_toNat, flagField_eq]
  · rintro s counters port rfl rfl
    simp only [← countersBytes_eq, ← countersBytes_append, State.countersData, beSigned_eq, laidOut_cons, laidOut_nil,
      List.append_nil]
    simp only [countersBytes_append, List.append_assoc, State.frontCounters, State.backCounters]
    rfl
  · exact fun s c h => exec_row_of_body (k := .identify) h (Nat.zero_le _) id (by
      show answer s.identification s = _
      rw [identification_eq]
      rfl)
  · exact fun s c h => exec_row_of_body (k := .getStatus) h (Nat.zero_le _) id rfl
  · intro s c code first count more h hargs
    have hneed : CommandKind.readTable.need ≤ c.args.length := by
      rw [hargs]
      exact Nat.le_add_left ..
    refine ⟨fun t ht hlow hhigh hrange => exec_row_of_body (k := .readTable) h hneed id ?_,
      fun hbad => exec_row_of_body (k := .readTable) h hneed id ?_⟩
    · rw [hargs]
      exact readTableBody_of_range s ht hlow hhigh hrange
    · rw [hargs]
      exact readTableBody_of_refused s hbad
  · intro s c first count more h hargs
    have hneed : CommandKind.readValves.need ≤ c.args.length := by
      rw [hargs]
      exact Nat.le_add_left ..
    refine ⟨fun hlow hhigh hrange => ⟨exec_row_of_body (k := .readValves) h hneed id ?_, valvesBytes_length s hrange⟩,
      fun hbad => exec_row_of_body (k := .readValves) h hneed id ?_⟩
    · rw [hargs]
      exact if_neg (readValves_range hlow hhigh hrange)
    · rw [hargs]
      exact if_pos (hbad.imp_left fun h => by exact h ▸ Nat.one_pos)
  · intro s c position more h hargs
    refine ⟨fun hlow => ⟨exec_row_of_body (k := .readQueue) h (length_of_cons hargs) id ?_, ?_⟩,
      fun hhigh => exec_row_of_body (k := .readQueue) h (length_of_cons hargs) id ?_⟩
    · rw [hargs]
      exact if_neg (not_lt.mpr hlow)
    · rw [flatMap_length_const summaryBytes 24 summaryBytes_length, List.length_take, List.length_drop]
    · rw [hargs]
      exact if_pos hhigh
  · exact fun s c h => exec_row_of_body (k := .readSchedule) h (Nat.zero_le _) id rfl
  · exact fun s c h => ⟨exec_row_of_body (k := .readCounters) h (Nat.zero_le _) id rfl, countersData_length s⟩
  · exact fun s c h => ⟨exec_row_of_body (k := .ringRead) h (Nat.zero_le _) id (by
        show answer s.ringBytes s = _
        rw [State.ringBytes, causeCode_eq]
        rfl),
      flatMap_length_const ringEntryBytes 28 ringEntryBytes_length _⟩

end Sys2Proof.Machine
end

section
/-!
PROOFS, the entries of the tables read back as they were written (R185, R194, R195, Table 12-6).
-/

namespace Sys2Proof.Machine

/-! ### Fields read back (R194, R195) -/

theorem bytesAt_skip {a : List Byte} {m : Nat} (rest : List Byte) {i : Nat} (n : Nat) (ha : a.length = m) (h : m ≤ i) :
    bytesAt (a ++ rest) i n = bytesAt rest (i - m) n := by
  subst ha
  exact bytesAt_append_right h

theorem bytesAt_here {a : List Byte} {n : Nat} (rest : List Byte) (ha : a.length = n) : bytesAt (a ++ rest) 0 n = a := by
  subst ha
  exact List.take_left

/-- A field of an entry, as it is written (R194, R195). -/
inductive Field where
  | byte (b : Byte)
  | number (n x : Nat)
  | signed (n : Nat) (x : Int)
  | text (n : Nat) (bytes : List Byte) (h : bytes.length = n)

/-- The bytes of a field. -/
def Field.bytes : Field → List Byte
  | .byte b => [b]
  | .number n x => beBytes n x
  | .signed n x => beSigned n x
  | .text _ bytes _ => bytes

/-- How many bytes a field has. -/
def Field.size : Field → Nat
  | .byte _ => 1
  | .number n _ => n
  | .signed n _ => n
  | .text n _ _ => n

theorem Field.bytes_length (f : Field) : f.bytes.length = f.size := by
  cases f with
  | byte b => rfl
  | number n x => exact beBytes_length n x
  | signed n x => exact beSigned_length n x
  | text n bytes h => exact h

/-- Fields one directly after the other (R195). -/
def joined (fields : List Field) : List Byte :=
  fields.flatMap Field.bytes

theorem joined_length (fields : List Field) : (joined fields).length = (fields.map Field.size).sum := by
  rw [joined, List.length_flatMap]
  exact congrArg List.sum (List.map_congr_left fun f _ => f.bytes_length)

/-- The field that starts at an offset. -/
def fieldFrom : List Field → Nat → Option Field
  | [], _ => none
  | f :: _, 0 => some f
  | f :: rest, i + 1 => if f.size ≤ i + 1 then fieldFrom rest (i + 1 - f.size) else none

theorem bytesAt_joined {fields : List Field} {i : Nat} {f : Field} (h : fieldFrom fields i = some f) :
    bytesAt (joined fields) i f.size = f.bytes := by
  induction fields generalizing i with
  | nil => exact absurd h nofun
  | cons g rest ih =>
    have hjoined : joined (g :: rest) = g.bytes ++ joined rest := rfl
    rw [hjoined]
    cases i with
    | zero =>
      cases h
      exact bytesAt_here _ f.bytes_length
    | succ i =>
      rw [fieldFrom] at h
      split at h
      · next hle =>
        rw [bytesAt_skip _ _ g.bytes_length hle]
        exact ih h
      · exact absurd h nofun

theorem byteAt_eq_bytesAt (bytes : List Byte) (i : Nat) : byteAt bytes i = byteAt (bytesAt bytes i 1) 0 := by
  unfold byteAt bytesAt
  cases h : bytes.drop i with
  | nil => simp [List.getElem?_eq_none (List.drop_eq_nil_iff.mp h)]
  | cons b rest =>
    have : bytes[i]? = some b := by
      rw [← List.head?_drop, h]
      rfl
    simp [this]

/-- A signed field of `n` bytes reads back (R194). -/
theorem signed_of_beSigned {n : Nat} {x : Int} (hlow : -(256 ^ n : Int) ≤ 2 * x) (hhigh : 2 * x < (256 ^ n : Int)) :
    (if 2 * readBytes (beSigned n x) < 256 ^ n then (readBytes (beSigned n x) : Int)
      else (readBytes (beSigned n x) : Int) - 256 ^ n) = x := by
  have hpos : (0 : Int) < 256 ^ n := by positivity
  have hmod := Int.emod_nonneg x hpos.ne'
  have hlt := Int.emod_lt_of_pos x hpos
  have hread : (readBytes (beSigned n x) : Int) = x % 256 ^ n := by
    rw [beSigned, readBytes_beBytes_of_lt (by zify; rw [Int.toNat_of_nonneg hmod]; exact_mod_cast hlt), Int.toNat_of_nonneg hmod]
  have hcond : 2 * readBytes (beSigned n x) < 256 ^ n ↔ 2 * (x % 256 ^ n) < (256 ^ n : Int) := by
    rw [← hread]
    exact_mod_cast Iff.rfl
  rw [hread]
  by_cases hsign : 0 ≤ x
  · have hself : x % 256 ^ n = x := Int.emod_eq_of_lt hsign (by omega)
    rw [if_pos (hcond.mpr (by omega)), hself]
  · have hself : x % 256 ^ n = x + 256 ^ n := by
      rw [← Int.add_emod_right]
      exact Int.emod_eq_of_lt (by omega) (by omega)
    rw [if_neg (by rw [hcond]; omega), hself]
    omega

theorem signedAt_of_bytes {bytes : List Byte} {i n : Nat} {x : Int} (h : bytesAt bytes i n = beSigned n x) 
    (hlow : -(256 ^ n : Int) ≤ 2 * x) (hhigh : 2 * x < (256 ^ n : Int)) : signedAt bytes i n = x := by
  unfold signedAt fieldAt
  rw [h]
  exact signed_of_beSigned hlow hhigh

theorem fieldAt_of_bytes {bytes : List Byte} {i n x : Nat} (h : bytesAt bytes i n = beBytes n x) (hx : x < 256 ^ n) :
    fieldAt bytes i n = x := by
  rw [fieldAt, h, readBytes_beBytes_of_lt hx]

theorem byteAt_joined {fields : List Field} {i : Nat} {b : Byte} (h : fieldFrom fields i = some (.byte b)) :
    byteAt (joined fields) i = b := by
  have hbytes := bytesAt_joined h
  rw [byteAt_eq_bytesAt, show 1 = (Field.byte b).size from rfl, hbytes]
  rfl

theorem fieldAt_joined {fields : List Field} {i n x : Nat} (h : fieldFrom fields i = some (.number n x)) (hx : x < 256 ^ n) :
    fieldAt (joined fields) i n = x :=
  fieldAt_of_bytes (bytesAt_joined h) hx

theorem signedAt_joined {fields : List Field} {i n : Nat} {x : Int} (h : fieldFrom fields i = some (.signed n x))
    (hlow : -(256 ^ n : Int) ≤ 2 * x) (hhigh : 2 * x < (256 ^ n : Int)) : signedAt (joined fields) i n = x :=
  signedAt_of_bytes (bytesAt_joined h) hlow hhigh

theorem textAt_joined {fields : List Field} {i n : Nat} {bytes : List Byte} {hn : bytes.length = n}
    (h : fieldFrom fields i = some (.text n bytes hn)) : bytesAt (joined fields) i n = bytes :=
  bytesAt_joined h

/-! ### LINE_SETUP -/

theorem boolOfCode_flagByte (b : Bool) : boolOfCode (flagByte b) = some b := by
  cases b <;> rfl

theorem portOfCode_portCode (p : Port) : portOfCode (portCode p) = some p := by
  cases p <;> rfl

/-- The fields of a LINE_SETUP entry, one after the other (Table 12-6). -/
def setupLayout (u : LineSetup) : List Field :=
  [.byte u.coder, .byte u.rejector, .byte u.controller, .byte u.collector, .byte (portCode u.coderPort),
    .byte (portCode u.rejectorPort), .byte (portCode u.controllerPort), .byte (portCode u.collectorPort),
    .number 2 u.statusInterval, .number 2 u.pitch, .number 2 u.phase, .number 2 u.encoderSilence,
    .number 1 u.digitiserSilence, .number 2 u.beltClearSamples, .number 3 u.zeroTrackLimit,
    .number 3 u.zeroCaptureLimit, .number 1 u.valveCount, .number 1 u.headCount, .number 2 u.maxAge,
    .number 1 u.lookahead, .number 1 u.unreadLimit, .number 1 u.syncReads, .number 1 u.codeLength,
    .number 1 u.lotStart, .number 1 u.lotLength, .number 1 u.tagStart, .number 1 u.lotGrace,
    .number 3 u.rejectOffset, .number 2 u.rejectPulse, .number 2 u.confirmWindow, .number 1 u.burstK,
    .number 1 u.burstW, .byte (flagByte u.freezeOnLost), .byte (flagByte u.freezeOnUnconfirmed),
    .byte (flagByte u.holdTrimOnFreeze), .byte (flagByte u.captureWrap), .number 1 u.captureThreshold,
    .byte (flagByte u.upload)]

theorem setupBytes_eq (u : LineSetup) : setupBytes u = joined (setupLayout u) := by
  unfold joined setupLayout setupBytes
  simp only [List.flatMap_cons, List.flatMap_nil, Field.bytes, List.append_assoc, List.append_nil, List.cons_append,
    List.nil_append]

theorem byteAt_setupBytes {u : LineSetup} {i : Nat} {b : Byte} (h : fieldFrom (setupLayout u) i = some (.byte b)) :
    byteAt (setupBytes u) i = b := by
  rw [setupBytes_eq, byteAt_joined h]

theorem fieldAt_setupBytes {u : LineSetup} {i n x : Nat} (h : fieldFrom (setupLayout u) i = some (.number n x))
    (hx : x < 256 ^ n) : fieldAt (setupBytes u) i n = x := by
  rw [setupBytes_eq, fieldAt_joined h hx]

theorem setupBytes_length (u : LineSetup) : (setupBytes u).length = 52 := by
  rw [setupBytes_eq, joined_length]
  simp [setupLayout, Field.size]

/-- The codes of a Line Setup record. -/
def LineSetup.codes (u : LineSetup) : SetupCodes where
  coderPort := u.coderPort
  rejectorPort := u.rejectorPort
  controllerPort := u.controllerPort
  collectorPort := u.collectorPort
  freezeOnLost := u.freezeOnLost
  freezeOnUnconfirmed := u.freezeOnUnconfirmed
  holdTrimOnFreeze := u.holdTrimOnFreeze
  captureWrap := u.captureWrap
  upload := u.upload

theorem setupCodes_setupBytes (u : LineSetup) : setupCodes (setupBytes u) = some u.codes := by
  unfold setupCodes
  rw [byteAt_setupBytes (i := 4) rfl, byteAt_setupBytes (i := 5) rfl, byteAt_setupBytes (i := 6) rfl,
    byteAt_setupBytes (i := 7) rfl, byteAt_setupBytes (i := 46) rfl, byteAt_setupBytes (i := 47) rfl,
    byteAt_setupBytes (i := 48) rfl, byteAt_setupBytes (i := 49) rfl, byteAt_setupBytes (i := 51) rfl]
  simp only [portOfCode_portCode, boolOfCode_flagByte]
  rfl

theorem setupFields_setupBytes {u : LineSetup} (hrange : u.inRange = true) (hrelated : u.related = true)
    (hfits : u.fits) : setupFields (setupBytes u) u.codes = u := by
  simp only [LineSetup.inRange, LineSetup.related, LineSetup.fits, Bool.and_eq_true, decide_eq_true_eq] at hrange hrelated hfits
  unfold setupFields
  rw [byteAt_setupBytes (i := 0) rfl, byteAt_setupBytes (i := 1) rfl, byteAt_setupBytes (i := 2) rfl,
    byteAt_setupBytes (i := 3) rfl, fieldAt_setupBytes (i := 8) rfl (by omega), fieldAt_setupBytes (i := 10) rfl (by omega),
    fieldAt_setupBytes (i := 12) rfl (by omega), fieldAt_setupBytes (i := 14) rfl (by omega),
    fieldAt_setupBytes (i := 16) rfl (by omega), fieldAt_setupBytes (i := 17) rfl (by omega),
    fieldAt_setupBytes (i := 19) rfl (by omega), fieldAt_setupBytes (i := 22) rfl (by omega),
    fieldAt_setupBytes (i := 25) rfl (by omega), fieldAt_setupBytes (i := 26) rfl (by omega),
    fieldAt_setupBytes (i := 27) rfl (by omega), fieldAt_setupBytes (i := 29) rfl (by omega),
    fieldAt_setupBytes (i := 30) rfl (by omega), fieldAt_setupBytes (i := 31) rfl (by omega),
    fieldAt_setupBytes (i := 32) rfl (by omega), fieldAt_setupBytes (i := 33) rfl (by omega),
    fieldAt_setupBytes (i := 34) rfl (by omega), fieldAt_setupBytes (i := 35) rfl (by omega),
    fieldAt_setupBytes (i := 36) rfl (by omega), fieldAt_setupBytes (i := 37) rfl (by omega),
    fieldAt_setupBytes (i := 40) rfl (by omega), fieldAt_setupBytes (i := 42) rfl (by omega),
    fieldAt_setupBytes (i := 44) rfl (by omega), fieldAt_setupBytes (i := 45) rfl (by omega),
    fieldAt_setupBytes (i := 50) rfl (by omega)]
  rfl

theorem setupOf_setupBytes {u : LineSetup} (hrange : u.inRange = true) (hrelated : u.related = true) (hfits : u.fits) :
    setupOf (setupBytes u) = some u := by
  unfold setupOf
  rw [setupCodes_setupBytes]
  dsimp only
  rw [setupFields_setupBytes hrange hrelated hfits, hrange, hrelated]
  rfl

/-! ### PRODUCT -/

theorem flagByte_testBit (b : Bool) : (flagByte b).toNat.testBit 0 = b := by
  cases b <;> decide

/-- The bytes of an optional previous lot (R194). -/
def Product.previousBytes (p : Product) : List Byte :=
  p.previousLot.getD (List.replicate 8 0)

theorem Product.previousBytes_length {p : Product} (h : ∀ l, p.previousLot = some l → l.length = 8) :
    p.previousBytes.length = 8 := by
  unfold Product.previousBytes
  cases hlot : p.previousLot with
  | none => rfl
  | some l => exact h l hlot

/-- The fields of a PRODUCT entry with its valid flag set, one after the other (Table 12-6). -/
def productLayout (p : Product) (hname : p.name.length = 16) (hlot : p.currentLot.length = 8)
    (hprevious : p.previousBytes.length = 8) : List Field :=
  [.byte 1, .text 16 p.name hname, .number 4 p.target, .number 4 p.tare, .signed 4 p.rejectLow, .signed 4 p.warnLow,
    .signed 4 p.warnHigh, .signed 4 p.rejectHigh, .number 2 p.doseMin, .number 2 p.doseMax, .signed 2 p.trimMin,
    .signed 2 p.trimMax, .number 2 p.deadband, .number 1 p.nMin, .number 1 p.k, .number 1 p.g, .number 3 p.gq,
    .number 2 p.maxStep, .number 1 p.settle, .number 1 p.length, .number 1 p.minSamples, .number 3 p.band,
    .text 8 p.currentLot hlot, .byte (flagByte p.previousLot.isSome), .text 8 p.previousBytes hprevious, .byte 0, .byte 0]

section Product

variable {p : Product}

theorem productBytes_eq (hname : p.name.length = 16) (hlot : p.currentLot.length = 8) (hprevious : p.previousBytes.length = 8) :
    productBytes (some p) = joined (productLayout p hname hlot hprevious) := by
  unfold joined productLayout productBytes
  simp only [List.flatMap_cons, List.flatMap_nil, Field.bytes, List.append_assoc, List.append_nil, List.cons_append,
    List.nil_append, Product.previousBytes]

theorem productFields_productBytes (hrange : p.inRange = true) (hrelated : p.related = true) (hfits : p.fits) :
    productFields (productBytes (some p)) = p := by
  obtain ⟨hname, hlot, hprevious, hfits⟩ := hfits
  have hprevious := Product.previousBytes_length hprevious
  simp only [Product.inRange, Product.related, decide_eq_true_eq] at hrange hrelated
  rw [productBytes_eq hname hlot hprevious]
  generalize hl : productLayout p hname hlot hprevious = l
  have hpresent : (byteAt (joined l) 73).toNat.testBit 0 = p.previousLot.isSome := by
    rw [← hl, byteAt_joined (fields := productLayout p hname hlot hprevious) (i := 73) rfl, flagByte_testBit]
  have htext : bytesAt (joined l) 74 8 = p.previousBytes := by
    rw [← hl]
    exact textAt_joined (i := 74) rfl
  have hlast : (if (byteAt (joined l) 73).toNat.testBit 0 then some (bytesAt (joined l) 74 8) else none) = p.previousLot := by
    rw [hpresent, htext, Product.previousBytes]
    cases p.previousLot <;> rfl
  have hbytes {i n : Nat} {bytes : List Byte} {hn : bytes.length = n}
      (h : fieldFrom (productLayout p hname hlot hprevious) i = some (.text n bytes hn)) : bytesAt (joined l) i n = bytes := by
    rw [← hl]
    exact textAt_joined h
  have hfield {i n x : Nat} (h : fieldFrom (productLayout p hname hlot hprevious) i = some (.number n x)) (hx : x < 256 ^ n) :
      fieldAt (joined l) i n = x := by
    rw [← hl]
    exact fieldAt_joined h hx
  have hsigned {i n : Nat} {x : Int} (h : fieldFrom (productLayout p hname hlot hprevious) i = some (.signed n x))
      (hlow : -(256 ^ n : Int) ≤ 2 * x) (hhigh : 2 * x < (256 ^ n : Int)) : signedAt (joined l) i n = x := by
    rw [← hl]
    exact signedAt_joined h hlow hhigh
  unfold productFields
  rw [hlast, hbytes (i := 1) rfl, hfield (i := 17) rfl (by omega), hfield (i := 21) rfl (by omega),
    hsigned (i := 25) rfl (by omega) (by omega), hsigned (i := 29) rfl (by omega) (by omega),
    hsigned (i := 33) rfl (by omega) (by omega), hsigned (i := 37) rfl (by omega) (by omega),
    hfield (i := 41) rfl (by omega), hfield (i := 43) rfl (by omega), hsigned (i := 45) rfl (by omega) (by omega),
    hsigned (i := 47) rfl (by omega) (by omega), hfield (i := 49) rfl (by omega), hfield (i := 51) rfl (by omega),
    hfield (i := 52) rfl (by omega), hfield (i := 53) rfl (by omega), hfield (i := 54) rfl (by omega),
    hfield (i := 57) rfl (by omega), hfield (i := 59) rfl (by omega), hfield (i := 60) rfl (by omega),
    hfield (i := 61) rfl (by omega), hfield (i := 62) rfl (by omega), hbytes (i := 65) rfl]

theorem productOf_productBytes (hrange : p.inRange = true) (hrelated : p.related = true) (hfits : p.fits) :
    productOf (productBytes (some p)) = some (some p) := by
  have hfields := productFields_productBytes hrange hrelated hfits
  obtain ⟨hname, hlot, hprevious, -⟩ := hfits
  have hprevious := Product.previousBytes_length hprevious
  have hvalid : byteAt (productBytes (some p)) 0 = 1 := by
    rw [productBytes_eq hname hlot hprevious]
    exact byteAt_joined (i := 0) rfl
  generalize productBytes (some p) = bytes at hfields hvalid
  unfold productOf
  rw [hvalid, hfields, hrange, hrelated]
  rfl

theorem productBytes_length (hfits : p.fits) : (productBytes (some p)).length = 84 := by
  obtain ⟨hname, hlot, hprevious, -⟩ := hfits
  rw [productBytes_eq hname hlot (Product.previousBytes_length hprevious), joined_length]
  simp [productLayout, Field.size]

end Product

/-! ### VALVE and CALIBRATION -/

theorem valveModeOfCode_valveModeCode (m : ValveMode) : valveModeOfCode (valveModeCode m) = some m := by
  cases m <;> rfl

/-- The fields of a VALVE entry, one after the other (Table 12-6). -/
def valveLayout (e : ValveEntry) : List Field :=
  [.byte (valveModeCode e.mode), .byte 0, .signed 2 e.fixedTrim, .number 2 e.captureInterval]

theorem valveBytes_eq (e : ValveEntry) : valveBytes e = joined (valveLayout e) := by
  simp only [joined, valveLayout, valveBytes, List.flatMap_cons, List.flatMap_nil, Field.bytes, List.append_nil,
    List.cons_append, List.nil_append]

theorem valveOf_valveBytes {e : ValveEntry} (hlow : -2047 ≤ e.fixedTrim) (hhigh : e.fixedTrim ≤ 2047)
    (hinterval : e.captureInterval ≤ 65535) : valveOf (valveBytes e) = some e := by
  unfold valveOf
  rw [valveBytes_eq, byteAt_joined (fields := valveLayout e) (i := 0) rfl, valveModeOfCode_valveModeCode,
    signedAt_joined (fields := valveLayout e) (i := 2) rfl (by omega) (by omega),
    fieldAt_joined (fields := valveLayout e) (i := 4) rfl (by omega)]
  exact if_pos ⟨hlow, hhigh⟩

/-- The fields of a CALIBRATION entry, one after the other (Table 12-6). -/
def calibrationLayout (zero : Int) (span : Nat) : List Field :=
  [.signed 3 zero, .number 3 span]

theorem calibrationBytes_eq (zero : Int) (span : Nat) : calibrationBytes zero span = joined (calibrationLayout zero span) := by
  simp only [joined, calibrationLayout, calibrationBytes, List.flatMap_cons, List.flatMap_nil, Field.bytes, List.append_nil]

theorem calibrationOf_calibrationBytes {zero : Int} {span : Nat} (hlow : -8388608 ≤ zero) (hhigh : zero ≤ 8388607)
    (hspan : span ≤ 16777215) : calibrationOf (calibrationBytes zero span) = (zero, span) := by
  unfold calibrationOf
  rw [calibrationBytes_eq, signedAt_joined (fields := calibrationLayout zero span) (i := 0) rfl (by omega) (by omega),
    fieldAt_joined (fields := calibrationLayout zero span) (i := 3) rfl (by omega)]

theorem policyOf_flagByte {i : Nat} {b : Bool} (h : b = true ∨ 2 ≤ i) : policyOf i [flagByte b] = some b := by
  have hbyte : byteAt [flagByte b] 0 = flagByte b := rfl
  unfold policyOf
  rw [hbyte, boolOfCode_flagByte]
  refine if_neg fun hno => ?_
  rcases h with h | h
  · exact Bool.false_ne_true (hno.1.symm.trans h)
  · omega

/-! ### The layouts -/

/-- The bytes of an optional previous lot with the byte that says whether it stands (Table 12-6). -/
def lotBytes (x : Option (List Byte)) : List Byte :=
  match x with
  | none => List.replicate 9 0
  | some lot => 1 :: lot

theorem lotBytes_eq (x : Option (List Byte)) : flagByte x.isSome :: x.getD (List.replicate 8 0) = lotBytes x := by
  cases x <;> rfl

theorem productBytes_laidOut (p : Product) : productBytes (some p) = [1] ++ p.name ++ laidOut [(4, p.target), (4, p.tare),
    signedField 4 p.rejectLow, signedField 4 p.warnLow, signedField 4 p.warnHigh, signedField 4 p.rejectHigh, (2, p.doseMin),
    (2, p.doseMax), signedField 2 p.trimMin, signedField 2 p.trimMax, (2, p.deadband), (1, p.nMin), (1, p.k), (1, p.g),
    (3, p.gq), (2, p.maxStep), (1, p.settle), (1, p.length), (1, p.minSamples), (3, p.band)] ++ p.currentLot ++
      lotBytes p.previousLot ++ [0, 0] := by
  unfold productBytes
  simp only [laidOut_cons, laidOut_nil, beSigned_eq, ← lotBytes_eq, List.append_assoc, List.append_nil, List.cons_append,
    List.nil_append]

/-- The number of a port (Table 12-1). -/
def portNumber (p : Port) : Nat :=
  match p with
  | .a => 0
  | .b => 1

theorem portCode_eq (p : Port) (rest : List Byte) : portCode p :: rest = beBytes 1 (portNumber p) ++ rest := by
  cases p <;> rfl

theorem flagByte_cons (b : Bool) (rest : List Byte) : flagByte b :: rest = beBytes 1 (if b then 1 else 0) ++ rest := by
  cases b <;> rfl

theorem setupBytes_laidOut (u : LineSetup) : setupBytes u = [u.coder, u.rejector, u.controller, u.collector] ++ laidOut [
    (1, portNumber u.coderPort), (1, portNumber u.rejectorPort), (1, portNumber u.controllerPort),
    (1, portNumber u.collectorPort), (2, u.statusInterval), (2, u.pitch), (2, u.phase), (2, u.encoderSilence),
    (1, u.digitiserSilence), (2, u.beltClearSamples), (3, u.zeroTrackLimit), (3, u.zeroCaptureLimit), (1, u.valveCount),
    (1, u.headCount), (2, u.maxAge), (1, u.lookahead), (1, u.unreadLimit), (1, u.syncReads), (1, u.codeLength),
    (1, u.lotStart), (1, u.lotLength), (1, u.tagStart), (1, u.lotGrace), (3, u.rejectOffset), (2, u.rejectPulse),
    (2, u.confirmWindow), (1, u.burstK), (1, u.burstW), (1, if u.freezeOnLost then 1 else 0),
    (1, if u.freezeOnUnconfirmed then 1 else 0), (1, if u.holdTrimOnFreeze then 1 else 0), (1, if u.captureWrap then 1 else 0),
    (1, u.captureThreshold), (1, if u.upload then 1 else 0)] := by
  unfold setupBytes
  simp only [laidOut_cons, laidOut_nil, portCode_eq, flagByte_cons, List.append_assoc, List.append_nil, List.cons_append,
    List.nil_append]

/-- Settles O59: each entry is written field after field, and each field read at its offset is the one written there. -/
theorem entryRoundTrip : Obligations.EntryRoundTrip := by
  unfold Obligations.EntryRoundTrip
  refine ⟨fun p hrange hrelated hfits => ⟨productOf_productBytes hrange hrelated hfits, productBytes_length hfits⟩,
    ⟨rfl, rfl⟩, fun u hrange hrelated hfits => ⟨setupOf_setupBytes hrange hrelated hfits, setupBytes_length u⟩,
    fun e hlow hhigh hinterval => ⟨valveOf_valveBytes hlow hhigh hinterval, rfl⟩,
    fun zero span hlow hhigh hspan => ⟨calibrationOf_calibrationBytes hlow hhigh hspan, rfl⟩, fun e => ⟨rfl, rfl⟩,
    fun i b h => policyOf_flagByte h, fun e => rfl, fun zero span => ?_, fun e => ?_, productBytes_laidOut, ?_⟩
  · simp only [calibrationBytes, laidOut_cons, laidOut_nil, beSigned_eq, List.append_nil]
  · have hzero : [valveModeCode e.mode, 0] = beBytes 1 (modeNumber e.mode) ++ beBytes 1 0 := by
      cases e.mode <;> rfl
    unfold valveBytes
    rw [hzero, beSigned_eq]
    simp only [laidOut_cons, laidOut_nil, List.append_assoc, List.append_nil]
    rfl
  · rintro u port flag rfl rfl
    exact setupBytes_laidOut u

end Sys2Proof.Machine
end

section
/-!
PROOFS, the commits of the Channel Table, the Calibration record, the Reject Policy and the Product Table (R6, R32, R96, R108,
R159 to R161).
-/

namespace Sys2Proof.Machine

/-! ### Staged entries read in turn -/

section Read

variable {α : Type} {f : Nat → List Byte → Option α}

/-- Entries that are all read: each stands in its place. -/
theorem readEntries_of_read (entries : List (List Byte)) : ∀ index : Nat,
    (∀ i b, entries[i]? = some b → (f (index + i) b).isSome = true) →
    ∃ l, readEntries f index entries = .inr l ∧ l.length = entries.length ∧
      ∀ i b, entries[i]? = some b → l[i]? = f (index + i) b := by
  induction entries with
  | nil => exact fun index _ => ⟨[], rfl, rfl, nofun⟩
  | cons b rest ih =>
    intro index h
    obtain ⟨a, ha⟩ := Option.isSome_iff_exists.mp (h 0 b rfl)
    obtain ⟨l, hl, hlength, hget⟩ := ih (index + 1) fun i x hx => by
      rw [Nat.add_right_comm, Nat.add_assoc]
      exact h (i + 1) x hx
    refine ⟨a :: l, ?_, congrArg (· + 1) hlength, fun i x hx => ?_⟩
    · rw [readEntries, show f index b = some a from ha, hl]
    · cases i with
      | zero =>
        cases hx
        exact ha.symm
      | succ i =>
        have hi := hget i x hx
        rw [Nat.add_right_comm, Nat.add_assoc] at hi
        exact hi

/-- The lowest entry that is not read gives its index. -/
theorem readEntries_of_failing (after : List (List Byte)) {b : List Byte} (before : List (List Byte)) : ∀ index : Nat,
    (∀ i x, before[i]? = some x → (f (index + i) x).isSome = true) → f (index + before.length) b = none →
    readEntries f index (before ++ b :: after) = .inl (index + before.length) := by
  induction before with
  | nil =>
    intro index _ hb
    rw [List.nil_append, readEntries, show f index b = none from hb]
    rfl
  | cons x rest ih =>
    intro index h hb
    obtain ⟨a, ha⟩ := Option.isSome_iff_exists.mp (h 0 x rfl)
    have hlength : index + (x :: rest).length = index + 1 + rest.length := by
      rw [List.length_cons]
      omega
    rw [hlength] at hb ⊢
    have hrest := ih (index + 1) (fun i y hy => by
      rw [Nat.add_right_comm, Nat.add_assoc]
      exact h (i + 1) y hy) hb
    rw [List.cons_append, readEntries, show f index x = some a from ha, hrest]

end Read

theorem find?_finRange_of_first {n : Nat} {p : Fin n → Bool} {i : Fin n} (hi : p i = true) (hbefore : ∀ j < i, p j = false) :
    (List.finRange n).find? p = some i := by
  refine List.find?_eq_some_iff_getElem.mpr ⟨hi, i.val, by simp, by simp, fun j hj => ?_⟩
  simp only [List.getElem_finRange, Bool.not_eq_true']
  exact hbefore _ (by exact hj)

theorem find?_finRange_of_none {n : Nat} {p : Fin n → Bool} (h : ∀ i, p i = false) : (List.finRange n).find? p = none :=
  List.find?_eq_none.mpr fun i _ => Bool.eq_false_iff.mp (h i)

/-! ### The Channel Table (R6) -/

theorem isUsed_iff (e : ChannelEntry) : e.isUsed = true ↔ e.role ≠ 0 := by
  rw [ChannelEntry.isUsed, bne_iff_ne]

theorem channelOffends_iff (t : Vector ChannelEntry 32) (i : Fin 32) : channelOffends t i = true ↔ t[i].role ≠ 0 ∧
    (2 < t[i].port.toNat ∨ 253 < t[i].source.toNat ∨ 239 < t[i].channel.toNat ∨ 7 < t[i].role.toNat ∨ 1 < t[i].consume.toNat ∨
      ∃ j : Fin 32, j < i ∧ t[j].role ≠ 0 ∧
        ((t[j].source = t[i].source ∧ t[j].channel = t[i].channel ∧
            (t[j].port = t[i].port ∨ t[j].port = 2 ∨ t[i].port = 2)) ∨
          (t[j].role = 6 ∧ t[i].role = 6))) := by
  have hclash (j : Fin 32) : (t[j].overlaps t[i] || (t[j].isDose && t[i].isDose)) = true ↔ (t[j].role ≠ 0 ∧ t[i].role ≠ 0 ∧
      t[j].source = t[i].source ∧ t[j].channel = t[i].channel ∧ (t[j].port = t[i].port ∨ t[j].port = 2 ∨ t[i].port = 2)) ∨
      (t[j].role = 6 ∧ t[i].role = 6) := by
    simp only [ChannelEntry.overlaps, ChannelEntry.isDose, Bool.or_eq_true, Bool.and_eq_true, isUsed_iff, beq_iff_eq]
    tauto
  have hsix (e : ChannelEntry) (h : e.role = 6) : e.role ≠ 0 := by
    rw [h]
    decide
  have hrange : (!t[i].inRange) = true ↔ 2 < t[i].port.toNat ∨ 253 < t[i].source.toNat ∨ 239 < t[i].channel.toNat ∨
      7 < t[i].role.toNat ∨ 1 < t[i].consume.toNat := by
    rw [ChannelEntry.inRange, Bool.not_eq_true', decide_eq_false_iff_not]
    omega
  unfold channelOffends
  rw [Bool.and_eq_true, Bool.or_eq_true, isUsed_iff, hrange, List.any_eq_true]
  refine and_congr_right fun hused => ?_
  simp only [Bool.and_eq_true, decide_eq_true_eq, hclash, List.mem_finRange, true_and]
  constructor
  · rintro ((h | h | h | h | h) | ⟨j, hj, hboth | hdose⟩)
    · exact .inl h
    · exact .inr (.inl h)
    · exact .inr (.inr (.inl h))
    · exact .inr (.inr (.inr (.inl h)))
    · exact .inr (.inr (.inr (.inr (.inl h))))
    · exact .inr (.inr (.inr (.inr (.inr ⟨j, hj, hboth.1, .inl hboth.2.2⟩))))
    · exact .inr (.inr (.inr (.inr (.inr ⟨j, hj, hsix _ hdose.1, .inr hdose⟩))))
  · rintro (h | h | h | h | h | ⟨j, hj, hj0, hover | hdose⟩)
    · exact .inl (.inl h)
    · exact .inl (.inr (.inl h))
    · exact .inl (.inr (.inr (.inl h)))
    · exact .inl (.inr (.inr (.inr (.inl h))))
    · exact .inl (.inr (.inr (.inr (.inr h))))
    · exact .inr ⟨j, hj, .inl ⟨hj0, hused, hover⟩⟩
    · exact .inr ⟨j, hj, .inr hdose⟩

/-- An entry of a table after a load, read from the staged bytes. -/
theorem putRange_map_get {α : Type} {n : Nat} (old : Vector α n) (first : Nat) (f : List Byte → α) (entries : List (List Byte))
    (i : Fin n) : (putRange old first (entries.map f))[i] =
      if first ≤ i.val ∧ i.val < first + entries.length then f (entries.getD (i.val - first) []) else old[i] := by
  rw [putRange_get]
  by_cases hfirst : first ≤ i.val
  · rw [if_pos hfirst, List.getElem?_map]
    by_cases hlast : i.val < first + entries.length
    · have hlt : i.val - first < entries.length := by omega
      rw [if_pos ⟨hfirst, hlast⟩, List.getElem?_eq_getElem hlt, List.getD_eq_getElem _ _ hlt]
      rfl
    · rw [if_neg fun h => hlast h.2, List.getElem?_eq_none (by omega)]
      rfl
  · rw [if_neg hfirst, if_neg fun h => hfirst h.1]

/-! ### The Reject Policy (R108) -/

theorem boolOfCode_of_one {b : Byte} (h : b = 1) : boolOfCode b = some true := by
  rw [h]
  rfl

theorem boolOfCode_of_zero {b : Byte} (h : b = 0) : boolOfCode b = some false := by
  rw [h]
  rfl

theorem boolOfCode_of_other {b : Byte} (h0 : b ≠ 0) (h1 : b ≠ 1) : boolOfCode b = none := by
  unfold boolOfCode
  split
  · next h => exact absurd (BitVec.eq_of_toNat_eq h) h0
  · next h => exact absurd (BitVec.eq_of_toNat_eq h) h1
  · rfl

theorem policyOf_of_good {i : Nat} {b : List Byte} (h : byteAt b 0 = 1 ∨ (byteAt b 0 = 0 ∧ 2 ≤ i)) :
    policyOf i b = some (decide (byteAt b 0 = 1)) := by
  unfold policyOf
  rcases h with h | ⟨h, hi⟩
  · rw [boolOfCode_of_one h, h]
    rfl
  · rw [boolOfCode_of_zero h, h]
    exact if_neg fun hno => absurd hno.2 (by omega)

theorem policyOf_of_bad {i : Nat} {b : List Byte} (h : ¬ (byteAt b 0 = 1 ∨ (byteAt b 0 = 0 ∧ 2 ≤ i))) : policyOf i b = none := by
  obtain ⟨hone, hzero⟩ := not_or.mp h
  unfold policyOf
  by_cases h0 : byteAt b 0 = 0
  · rw [boolOfCode_of_zero h0]
    exact if_pos ⟨rfl, Nat.le_of_not_lt fun hi => hzero ⟨h0, hi⟩⟩
  · rw [boolOfCode_of_other h0 hone]

/-! ### The Product Table (R159 to R161) -/

theorem productOf_of_one {b : List Byte} (h : byteAt b 0 = 1) (hrange : (productFields b).inRange = true)
    (hrelated : (productFields b).related = true) : productOf b = some (some (productFields b)) := by
  unfold productOf
  rw [boolOfCode_of_one h]
  exact if_pos (by rw [hrange, hrelated]; rfl)

theorem productOf_of_zero {b : List Byte} (h : byteAt b 0 = 0) : productOf b = some none := by
  unfold productOf
  rw [boolOfCode_of_zero h]

theorem productOf_of_bad {b : List Byte} (h : ¬ (byteAt b 0 = 0 ∨
    (byteAt b 0 = 1 ∧ (productFields b).inRange = true ∧ (productFields b).related = true))) : productOf b = none := by
  obtain ⟨hzero, hone⟩ := not_or.mp h
  unfold productOf
  by_cases h1 : byteAt b 0 = 1
  · rw [boolOfCode_of_one h1]
    exact if_neg fun hall => hone ⟨h1, (Bool.and_eq_true _ _ ▸ hall).1, (Bool.and_eq_true _ _ ▸ hall).2⟩
  · rw [boolOfCode_of_other hzero h1]

theorem inUse_iff (s : State) (k : Fin 16) : s.inUse k = true ↔ s.pu.active = some k ∨ ∃ r ∈ s.tq.queue, r.product = k := by
  simp [State.inUse]

theorem boundariesAfter_of_record {s : State} {first : Nat} {l : List (Option Product)} {k : Fin 16} {p : Product}
    (hfirst : first ≤ k.val) (h : l[k.val - first]? = some (some p)) : (s.boundariesAfter first l)[k] = s.tq.canCounter := by
  unfold State.boundariesAfter
  simp only [Fin.getElem_fin, Vector.getElem_ofFn, if_pos hfirst, h]

theorem boundariesAfter_of_none {s : State} {first : Nat} {l : List (Option Product)} {k : Fin 16}
    (h : first ≤ k.val → l[k.val - first]? = some none ∨ l[k.val - first]? = none) :
    (s.boundariesAfter first l)[k] = s.rm.lotBoundary[k] := by
  unfold State.boundariesAfter
  simp only [Fin.getElem_fin, Vector.getElem_ofFn]
  by_cases hfirst : first ≤ k.val
  · rw [if_pos hfirst]
    rcases h hfirst with h | h <;> simp only [h]
  · rw [if_neg hfirst]

theorem readProducts_of_good (first : Nat) {entries : List (List Byte)} (h : ∀ b ∈ entries, byteAt b 0 = 0 ∨
    (byteAt b 0 = 1 ∧ (productFields b).inRange = true ∧ (productFields b).related = true)) :
    ∃ l : List (Option Product), readEntries (fun _ b => productOf b) first entries = .inr l ∧ l.length = entries.length ∧
      ∀ (i : Nat) (b : List Byte), entries[i]? = some b → l[i]? = productOf b := by
  refine readEntries_of_read entries first fun i b hb => ?_
  rcases h b (List.mem_of_getElem? hb) with hzero | ⟨hone, hrange, hrelated⟩
  · rw [productOf_of_zero hzero]
    rfl
  · rw [productOf_of_one hone hrange hrelated]
    rfl

theorem withProducts_only (s : State) (pu : Products) (rm : Reader) :
    OnlyChanges [.rm, .pu] s { s with pu := pu, rm := rm } :=
  ((OnlyChanges.refl _ s).put_pu pu (by decide)).put_rm rm (by decide)

/-- Settles O54: the staged entries are read in turn, and then put in their range as a whole. -/
theorem tableCommits : Obligations.TableCommits := by
  unfold Obligations.TableCommits
  refine ⟨fun s first entries t offends ht hoffends => ?_, fun s first b more => ?_, fun s first entries good hgood => ?_,
    fun s first entries good inUse hgood hinUse => ?_⟩
  · have htable : putRange s.fp.channels first (entries.map channelOf) = t := by
      refine Vector.ext fun i hi => ?_
      exact (putRange_map_get s.fp.channels first channelOf entries ⟨i, hi⟩).trans (ht ⟨i, hi⟩).symm
    have hbad (i : Fin 32) : channelOffends t i = true ↔ offends i := (channelOffends_iff t i).trans (hoffends i).symm
    refine ⟨fun hnone => ?_, fun i hi hbefore => ?_⟩
    · show commitChannel first entries s = _
      unfold commitChannel
      rw [htable]
      dsimp only
      rw [find?_finRange_of_none fun i => Bool.eq_false_iff.mpr fun h => hnone i ((hbad i).mp h)]
    · show commitChannel first entries s = _
      unfold commitChannel
      rw [htable]
      dsimp only
      rw [find?_finRange_of_first ((hbad i).mpr hi) fun j hj => Bool.eq_false_iff.mpr fun h => hbefore j hj ((hbad j).mp h)]
      rfl
  · exact ⟨_, rfl, ((OnlyChanges.refl [.fp, .fe] s).put_fe _ (by decide)).andThen (setZeroFault_only _ _) (by decide),
      setZeroFault_fe _ _⟩
  · subst hgood
    refine ⟨fun hall => ?_, fun before after b hentries hbefore hb => ?_⟩
    · have hread (i) (b) (hb : entries[i]? = some b) : policyOf (first + i) b = some (decide (byteAt b 0 = 1)) :=
        policyOf_of_good (hall i b hb)
      obtain ⟨l, hl, hlength, hget⟩ := readEntries_of_read (f := policyOf) entries first fun i b hb => by
        rw [hread i b hb]
        rfl
      refine ⟨putRange s.jr.policy first l, ?_, fun i => ?_⟩
      · show commitPolicy first entries s = _
        unfold commitPolicy
        rw [hl]
      · by_cases hrange : first ≤ i.val ∧ i.val < first + entries.length
        · have hlt : i.val - first < entries.length := by omega
          have hentry := List.getElem?_eq_getElem hlt
          rw [if_pos hrange, putRange_get, if_pos hrange.1, hget _ _ hentry, hread _ _ hentry, List.getD_eq_getElem _ _ hlt]
          rfl
        · rw [if_neg hrange, putRange_outside _ _ _ (by rwa [hlength])]
    · show commitPolicy first entries s = _
      unfold commitPolicy
      rw [hentries, readEntries_of_failing after before first
        (fun i x hx => by rw [policyOf_of_good (hbefore i x hx)]; rfl) (policyOf_of_bad hb)]
      rfl
  · subst hgood hinUse
    refine ⟨fun before after b hentries hbefore hb => ?_, fun hall => ?_⟩
    · show commitProduct first entries s = _
      unfold commitProduct
      have hread (x) (hx : x ∈ before) : (productOf x).isSome = true := by
        rcases hbefore x hx with hzero | ⟨hone, hrange, hrelated⟩
        · rw [productOf_of_zero hzero]
          rfl
        · rw [productOf_of_one hone hrange hrelated]
          rfl
      rw [hentries, readEntries_of_failing after before first (fun i x hx => hread x (List.mem_of_getElem? hx))
        (productOf_of_bad hb)]
      rfl
    · obtain ⟨l, hl, hlength, hget⟩ := readProducts_of_good first hall
      have huse (k : Fin 16) : (decide (first ≤ k.val ∧ k.val < first + l.length) && s.inUse k) = true ↔
          (first ≤ k.val ∧ k.val < first + entries.length) ∧ (s.pu.active = some k ∨ ∃ r ∈ s.tq.queue, r.product = k) := by
        rw [Bool.and_eq_true, decide_eq_true_eq, inUse_iff, hlength]
      refine ⟨fun k hk hbefore => ?_, fun hnone => ?_⟩
      · show commitProduct first entries s = _
        unfold commitProduct
        rw [hl]
        dsimp only
        rw [find?_finRange_of_first (p := fun k : Fin 16 => decide (first ≤ k.val ∧ k.val < first + l.length) && s.inUse k)
          ((huse k).mpr hk) fun j hj =>
          Bool.eq_false_iff.mpr fun h => hbefore j hj ((huse j).mp h)]
      · refine ⟨{ s with
          pu := { s.pu with table := putRange s.pu.table first l }
          rm := { s.rm with lotBoundary := s.boundariesAfter first l } }, ?_,
          withProducts_only s _ _, rfl, rfl, fun k => ⟨fun hrange => ?_,
            fun hrange => ?_⟩⟩
        · show commitProduct first entries s = _
          unfold commitProduct
          rw [hl]
          dsimp only
          rw [find?_finRange_of_none (p := fun k : Fin 16 => decide (first ≤ k.val ∧ k.val < first + l.length) && s.inUse k) fun k => Bool.eq_false_iff.mpr fun h => hnone k ((huse k).mp h)]
        · have hlt : k.val - first < entries.length := by omega
          have hentry := List.getElem?_eq_getElem hlt
          have hread := hget _ _ hentry
          rw [List.getD_eq_getElem _ _ hlt]
          show (byteAt entries[k.val - first] 0 = 1 → (putRange s.pu.table first l)[k] = _ ∧ (s.boundariesAfter first l)[k] = _) ∧
            (byteAt entries[k.val - first] 0 = 0 → (putRange s.pu.table first l)[k] = _ ∧ (s.boundariesAfter first l)[k] = _)
          rw [putRange_get, if_pos hrange.1]
          refine ⟨fun hone => ?_, fun hzero => ?_⟩
          · have hrecord : productOf entries[k.val - first] = some (some (productFields entries[k.val - first])) := by
              rcases hall _ (List.getElem_mem hlt) with hzero | ⟨-, hin, hrelated⟩
              · exact absurd (hzero.symm.trans hone) (by decide)
              · exact productOf_of_one hone hin hrelated
            rw [hrecord] at hread
            exact ⟨by rw [hread]; rfl, boundariesAfter_of_record hrange.1 hread⟩
          · rw [productOf_of_zero hzero] at hread
            exact ⟨by rw [hread]; rfl, boundariesAfter_of_none fun _ => .inl hread⟩
        · refine ⟨putRange_outside _ _ _ (by rwa [hlength]), boundariesAfter_of_none fun hfirst => .inr ?_⟩
          exact List.getElem?_eq_none (by omega)

end Sys2Proof.Machine
end

section
/-!
PROOFS, the commit of the Valve Table (R127, R128, R174).
-/

namespace Sys2Proof.Machine

/-! ### One valve through a VALVE commit -/

/-- Whether a committed entry acts on the record of its valve (R128). -/
def valveActs (inRange below : Bool) (old new : ValveEntry) (r : ValveRecord) : Bool :=
  inRange && below && entryApplies old new r

/-- The record of a valve after a VALVE commit (R128, R174). -/
def committedRecord (inRange below : Bool) (old new : ValveEntry) (active : Option Product) (r : ValveRecord) : ValveRecord :=
  if inRange then
    { (if valveActs inRange below old new r then entryRecord new active r else r) with
      countdown := new.captureInterval, armed := false }
  else r

section Commit

variable (old : Vector ValveEntry Config.valves) (first count : Nat) (x : State)

theorem applyValveCommit_te : (applyValveCommit old first count x).te.table = x.te.table ∧
    (applyValveCommit old first count x).te.mode = x.te.mode ∧
    (applyValveCommit old first count x).te.trimHold = x.te.trimHold := by
  unfold applyValveCommit
  dsimp only
  rw [evalAttention_te, clearRequests_te, State.mapValves_te]
  exact ⟨rfl, rfl, rfl⟩

theorem applyValveCommit_valve (v : Fin Config.valves) : (applyValveCommit old first count x).te.valves[v] =
    committedRecord (decide (first ≤ v.val ∧ v.val < first + count)) (decide (v.val < x.ma.setup.valveCount)) old[v]
      x.te.table[v] x.activeProduct x.te.valves[v] := by
  unfold applyValveCommit
  dsimp only
  rw [evalAttention_valves, clearRequests_te, State.mapValves_get]
  unfold committedRecord
  split
  · rfl
  · next hout =>
    refine if_neg fun h => hout ?_
    rw [Bool.and_eq_true, Bool.and_eq_true] at h
    exact h.1.1

theorem applyValveCommit_rw (v : Fin Config.valves) :
    (applyValveCommit old first count x).rw.counters = x.rw.counters ∧
    (applyValveCommit old first count x).rw.expected[v] =
      (if valveActs (decide (first ≤ v.val ∧ v.val < first + count)) (decide (v.val < x.ma.setup.valveCount)) old[v]
          x.te.table[v] x.te.valves[v] && x.te.table[v].mode == .auto then none else x.rw.expected[v]) ∧
    (applyValveCommit old first count x).rw.epoch[v] =
      (if valveActs (decide (first ≤ v.val ∧ v.val < first + count)) (decide (v.val < x.ma.setup.valveCount)) old[v]
          x.te.table[v] x.te.valves[v] && x.te.table[v].mode == .auto then x.rw.epoch[v] + 1 else x.rw.epoch[v]) := by
  unfold applyValveCommit
  dsimp only
  rw [evalAttention_rw, clearRequests_counters, clearRequests_expected, clearRequests_epoch, State.mapValves_rw]
  exact ⟨rfl, rfl, rfl⟩

theorem applyValveCommit_attention : (applyValveCommit old first count x).attentionShown :=
  evalAttention_attention _

end Commit

section Record

variable {old new : ValveEntry} {active : Option Product} {r : ValveRecord}

theorem committedRecord_outside (below : Bool) : committedRecord false below old new active r = r := rfl

theorem valveActs_auto (hmode : new.mode = .auto)
    (h : old.mode ≠ new.mode ∨ old.fixedTrim ≠ new.fixedTrim ∨ r.state = .fault) : valveActs true true old new r = true := by
  unfold valveActs entryApplies
  rw [hmode] at h ⊢
  simp only [Bool.true_and, Bool.or_eq_true, bne_iff_ne, beq_iff_eq]
  tauto

theorem valveActs_of_same {inRange below : Bool} (hmode : old.mode = new.mode) (htrim : old.fixedTrim = new.fixedTrim)
    (hstate : r.state ≠ .fault) : valveActs inRange below old new r = false := by
  have happlies : entryApplies old new r = false := by
    unfold entryApplies
    rw [hmode, htrim]
    cases new.mode <;> simp [hstate]
  rw [valveActs, happlies, Bool.and_false]

theorem committedRecord_of_idle {below : Bool} (h : valveActs true below old new r = false) :
    committedRecord true below old new active r = { r with countdown := new.captureInterval, armed := false } := by
  rw [committedRecord, if_pos rfl, h]
  rfl

theorem committedRecord_of_acts (h : valveActs true true old new r = true) : committedRecord true true old new active r =
    { entryRecord new active r with countdown := new.captureInterval, armed := false } := by
  rw [committedRecord, if_pos rfl, h]
  rfl

end Record

theorem valveModeOfCode_eq {b : Byte} (h : b.toNat ≤ 2) :
    valveModeOfCode b = some (if b = 0 then .auto else if b = 1 then .fixed else .excluded) := by
  unfold valveModeOfCode
  split
  · next h0 =>
    rw [show b = 0 from BitVec.eq_of_toNat_eq h0]
    rfl
  · next h1 =>
    rw [show b = 1 from BitVec.eq_of_toNat_eq h1]
    rfl
  · next h2 =>
    rw [show b = 2 from BitVec.eq_of_toNat_eq h2]
    rfl
  · next h0 h1 h2 =>
    have : b.toNat = 0 ∨ b.toNat = 1 ∨ b.toNat = 2 := by omega
    rcases this with h | h | h
    · exact absurd h h0
    · exact absurd h h1
    · exact absurd h h2

/-- The entry that a good VALVE entry holds (R127). -/
def valveEntryOf (b : List Byte) : ValveEntry :=
  { mode := if byteAt b 0 = 0 then .auto else if byteAt b 0 = 1 then .fixed else .excluded
    fixedTrim := signedAt b 2 2, captureInterval := fieldAt b 4 2 }

theorem valveOf_of_good {b : List Byte} (h : (byteAt b 0).toNat ≤ 2 ∧ -2047 ≤ signedAt b 2 2 ∧ signedAt b 2 2 ≤ 2047) :
    valveOf b = some (valveEntryOf b) := by
  unfold valveOf
  rw [valveModeOfCode_eq h.1]
  exact if_pos h.2

theorem valveOf_of_bad {b : List Byte} (h : ¬ ((byteAt b 0).toNat ≤ 2 ∧ -2047 ≤ signedAt b 2 2 ∧ signedAt b 2 2 ≤ 2047)) :
    valveOf b = none := by
  unfold valveOf
  by_cases hmode : (byteAt b 0).toNat ≤ 2
  · rw [valveModeOfCode_eq hmode]
    exact if_neg fun hall => h ⟨hmode, hall⟩
  · have hnone : valveModeOfCode (byteAt b 0) = none := by
      unfold valveModeOfCode
      split
      · next h0 => omega
      · next h0 => omega
      · next h0 => omega
      · rfl
    rw [hnone]

/-- The state with a Valve Table committed, its records not touched yet (R127). -/
def State.withTable (s : State) (table : Vector ValveEntry Config.valves) : State :=
  { s with te := { s.te with table := table } }

theorem State.withTable_only (s : State) (table : Vector ValveEntry Config.valves) :
    OnlyChanges [.fp, .te, .rw] s (s.withTable table) :=
  (OnlyChanges.refl _ s).put_te _ (by decide)

theorem State.withTable_pu (s : State) (table : Vector ValveEntry Config.valves) : (s.withTable table).pu = s.pu := rfl

theorem State.withTable_ma (s : State) (table : Vector ValveEntry Config.valves) : (s.withTable table).ma = s.ma := rfl

theorem State.withTable_rw (s : State) (table : Vector ValveEntry Config.valves) : (s.withTable table).rw = s.rw := rfl

theorem State.withTable_te (s : State) (table : Vector ValveEntry Config.valves) :
    (s.withTable table).te = { s.te with table := table } := rfl

theorem commitValve_refused {s : State} {first : Nat} {before after : List (List Byte)} {b : List Byte}
    (hbefore : ∀ x ∈ before, (byteAt x 0).toNat ≤ 2 ∧ -2047 ≤ signedAt x 2 2 ∧ signedAt x 2 2 ≤ 2047)
    (hb : ¬ ((byteAt b 0).toNat ≤ 2 ∧ -2047 ≤ signedAt b 2 2 ∧ signedAt b 2 2 ≤ 2047)) :
    commitTable .valve first (before ++ b :: after) s = (s, { status := .badArgument, index := first + before.length }) := by
  show commitValve first (before ++ b :: after) s = _
  unfold commitValve
  rw [readEntries_of_failing after before first
    (fun i x hx => by rw [valveOf_of_good (hbefore x (List.mem_of_getElem? hx))]; rfl) (valveOf_of_bad hb)]
  rfl

theorem commitValve_accepted (s : State) (first : Nat) {entries : List (List Byte)}
    (hall : ∀ b ∈ entries, (byteAt b 0).toNat ≤ 2 ∧ -2047 ≤ signedAt b 2 2 ∧ signedAt b 2 2 ≤ 2047) :
    ∃ l : List ValveEntry, l.length = entries.length ∧
      (∀ (i : Nat) (b : List Byte), entries[i]? = some b → l[i]? = some (valveEntryOf b)) ∧
      commitTable .valve first entries s =
        (applyValveCommit s.te.table first entries.length (s.withTable (putRange s.te.table first l)), {}) := by
  have hread (i : Nat) (b : List Byte) (hb : entries[i]? = some b) : valveOf b = some (valveEntryOf b) :=
    valveOf_of_good (hall b (List.mem_of_getElem? hb))
  obtain ⟨l, hl, hlength, hget⟩ := readEntries_of_read (f := fun _ b => valveOf b) entries first fun i b hb => by
    rw [hread i b hb]
    rfl
  refine ⟨l, hlength, fun i b hb => (hget i b hb).trans (hread i b hb), ?_⟩
  show commitValve first entries s = _
  unfold commitValve
  rw [hl]
  dsimp only
  rw [hlength]
  rfl

section Clauses

variable {b : List Byte} {old : ValveEntry} {active : Option Product} {r : ValveRecord}

theorem valveEntryOf_auto (h : byteAt b 0 = 0) : (valveEntryOf b).mode = .auto := if_pos h

theorem valveEntryOf_fixed (h : byteAt b 0 = 1) : (valveEntryOf b).mode = .fixed := by
  unfold valveEntryOf
  rw [h]
  rfl

theorem valveEntryOf_excluded (h : byteAt b 0 = 2) : (valveEntryOf b).mode = .excluded := by
  unfold valveEntryOf
  rw [h]
  rfl

theorem valveEntryOf_not_auto (h : byteAt b 0 ≠ 0) : (valveEntryOf b).mode ≠ .auto := by
  unfold valveEntryOf
  dsimp only
  rw [if_neg h]
  split <;> exact nofun

theorem committedRecord_auto (h : byteAt b 0 = 0) (hacts : (old.mode ≠ (valveEntryOf b).mode ∨
    old.fixedTrim ≠ (valveEntryOf b).fixedTrim) ∨ r.state = .fault) :
    committedRecord true true old (valveEntryOf b) active r = { r with
      countdown := fieldAt b 4 2, armed := false, state := .settling, n := 0, eAvg := 0, unsettledRun := 0, limit := false } := by
  rw [committedRecord_of_acts (valveActs_auto (valveEntryOf_auto h) (or_assoc.mp hacts))]
  unfold entryRecord
  rw [valveEntryOf_auto h]
  rfl

theorem committedRecord_fixed (h : byteAt b 0 = 1) (hchanged : old.mode ≠ (valveEntryOf b).mode ∨
    old.fixedTrim ≠ (valveEntryOf b).fixedTrim) :
    committedRecord true true old (valveEntryOf b) active r = { r with
      countdown := fieldAt b 4 2, armed := false, state := .fixed, trim := clampTrim active (signedAt b 2 2)
      n := 0, eAvg := 0, unsettledRun := 0, limit := false } := by
  have hacts : valveActs true true old (valveEntryOf b) r = true := by
    unfold valveActs entryApplies
    rw [valveEntryOf_fixed h] at hchanged ⊢
    simpa using hchanged
  rw [committedRecord_of_acts hacts]
  unfold entryRecord
  rw [valveEntryOf_fixed h]
  rfl

theorem committedRecord_excluded (h : byteAt b 0 = 2) (hmode : old.mode ≠ .excluded) :
    committedRecord true true old (valveEntryOf b) active r = { r with
      countdown := fieldAt b 4 2, armed := false, state := .excluded, trim := 0, n := 0, eAvg := 0, unsettledRun := 0
      limit := false } := by
  have hacts : valveActs true true old (valveEntryOf b) r = true := by
    unfold valveActs entryApplies
    rw [valveEntryOf_excluded h]
    simpa using hmode
  rw [committedRecord_of_acts hacts]
  unfold entryRecord
  rw [valveEntryOf_excluded h]
  rfl

end Clauses

end Sys2Proof.Machine
end

section
/-!
PROOFS, the commit of the Line Setup record and what it brings about (R17, R27, R129, R133, R134, R176, R178, R190, R192).
-/

namespace Sys2Proof.Machine

/-! ### The valve count (R129) -/

/-- The record of a valve after a change of the valve count (R129). -/
def countedRecord (leaves joins : Bool) (e : ValveEntry) (active : Option Product) (r : ValveRecord) : ValveRecord :=
  if leaves then { r.afresh with state := .excluded, trim := 0 }
  else if joins && e.mode != .excluded then entryRecord e active r
  else r

section Count

variable (old : Nat) (x : State)

theorem applyValveCount_of_same (h : old = x.ma.setup.valveCount) : applyValveCount old x = x := if_pos h

/-- Whether a clear request goes out for a valve when the valve count changes (R129, R154). -/
def joinsAuto (v : Fin Config.valves) : Bool :=
  decide (old ≤ v.val ∧ v.val < x.ma.setup.valveCount) && x.te.table[v].mode != .excluded && x.te.table[v].mode == .auto

theorem joinsAuto_iff (v : Fin Config.valves) :
    joinsAuto old x v = true ↔ (old ≤ v.val ∧ v.val < x.ma.setup.valveCount) ∧ x.te.table[v].mode = .auto := by
  rw [joinsAuto, Bool.and_eq_true, Bool.and_eq_true, decide_eq_true_eq, bne_iff_ne, beq_iff_eq]
  refine ⟨fun ⟨⟨hin, _⟩, hauto⟩ => ⟨hin, hauto⟩, fun ⟨hin, hauto⟩ => ⟨⟨hin, ?_⟩, hauto⟩⟩
  rw [hauto]
  exact nofun

/-- The records of all valves after a change of the valve count (R129). -/
def counted (v : Fin Config.valves) (r : ValveRecord) : ValveRecord :=
  countedRecord (decide (v.val < old ∧ x.ma.setup.valveCount ≤ v.val)) (decide (old ≤ v.val ∧ v.val < x.ma.setup.valveCount))
    x.te.table[v] x.activeProduct r

theorem applyValveCount_of_changed (h : old ≠ x.ma.setup.valveCount) :
    applyValveCount old x = evalAttention (clearRequests (joinsAuto old x) (x.mapValves (counted old x))) := if_neg h

theorem applyValveCount_te : (applyValveCount old x).te.table = x.te.table ∧ (applyValveCount old x).te.mode = x.te.mode ∧
    (applyValveCount old x).te.trimHold = x.te.trimHold := by
  by_cases h : old = x.ma.setup.valveCount
  · rw [applyValveCount_of_same old x h]
    exact ⟨rfl, rfl, rfl⟩
  · rw [applyValveCount_of_changed old x h, evalAttention_te, clearRequests_te, State.mapValves_te]
    exact ⟨rfl, rfl, rfl⟩

theorem applyValveCount_valve (v : Fin Config.valves) : (applyValveCount old x).te.valves[v] = counted old x v x.te.valves[v] := by
  by_cases h : old = x.ma.setup.valveCount
  · rw [applyValveCount_of_same old x h, counted, decide_eq_false (by omega), decide_eq_false (by omega)]
    rfl
  · rw [applyValveCount_of_changed old x h, evalAttention_valves, clearRequests_te, State.mapValves_get]

theorem applyValveCount_rw (v : Fin Config.valves) :
    (applyValveCount old x).rw.counters = x.rw.counters ∧
    (applyValveCount old x).rw.expected[v] = (if joinsAuto old x v then none else x.rw.expected[v]) ∧
    (applyValveCount old x).rw.epoch[v] = (if joinsAuto old x v then x.rw.epoch[v] + 1 else x.rw.epoch[v]) := by
  by_cases h : old = x.ma.setup.valveCount
  · have hnone : ¬ joinsAuto old x v = true := by
      rw [joinsAuto_iff]
      omega
    rw [applyValveCount_of_same old x h, if_neg hnone, if_neg hnone]
    exact ⟨rfl, rfl, rfl⟩
  · rw [applyValveCount_of_changed old x h, evalAttention_rw, clearRequests_counters, clearRequests_expected,
      clearRequests_epoch, State.mapValves_rw]
    exact ⟨rfl, rfl, rfl⟩

theorem applyValveCount_attention (h : old ≠ x.ma.setup.valveCount) : (applyValveCount old x).attentionShown := by
  rw [applyValveCount_of_changed old x h]
  exact evalAttention_attention _

end Count

/-! ### Collector and threshold (R17, R176, R178) -/

theorem abandonUpload_of_idle {x : State} (h : x.rc.engine = .idle) : abandonUpload x = x := by
  unfold abandonUpload
  rw [h]

/-- A slot whose upload is abandoned (R178). -/
def Slot.abandoned : Slot → Slot
  | .uploading c => .stored c
  | .empty => .empty
  | .stored c => .stored c

theorem abandonUpload_rc {x : State} {i : Fin 4} {next count : Nat} (h : x.rc.engine = .uploading i next count) :
    (abandonUpload x).rc = { x.rc with
      slots := (abandonUpload x).rc.slots, engine := .idle
      captureReady := decide (x.ma.setup.captureThreshold ≤ ((abandonUpload x).rc.slots.toList.filter Slot.isStored).length)
      counters := { x.rc.counters with abandoned := tally x.rc.counters.abandoned 1 } } ∧
    ∀ j : Fin 4, (abandonUpload x).rc.slots[j] = if j = i then x.rc.slots[i].abandoned else x.rc.slots[j] := by
  unfold abandonUpload
  rw [h]
  dsimp only
  rw [evalCaptureReady_rc]
  refine ⟨rfl, fun j => (slots_set _ i j _).trans ?_⟩
  unfold Slot.abandoned
  rfl

/-- The state whose Hold a changed collector has cleared (R17). -/
def collectorCleared (old : LineSetup) (x : State) : State :=
  if old.collector = x.ma.setup.collector then x else clearHold x

theorem collectorCleared_only (old : LineSetup) (x : State) : OnlyChanges [.fp] x (collectorCleared old x) := by
  unfold collectorCleared
  split
  · exact .refl _ _
  · exact withFp_only x _

theorem commitCollector_eq (old : LineSetup) (x : State) : commitCollector old x =
    if old.collector = x.ma.setup.collector ∧ old.collectorPort = x.ma.setup.collectorPort then collectorCleared old x
    else abandonUpload (collectorCleared old x) := rfl

theorem commitCollector_rc_of_kept {old : LineSetup} {x : State} (h : (old.collector = x.ma.setup.collector ∧
    old.collectorPort = x.ma.setup.collectorPort) ∨ x.rc.engine = .idle) : (commitCollector old x).rc = x.rc := by
  have hcleared : (collectorCleared old x).rc = x.rc := (collectorCleared_only old x) .rc (by decide)
  rw [commitCollector_eq]
  by_cases hsame : old.collector = x.ma.setup.collector ∧ old.collectorPort = x.ma.setup.collectorPort
  · rw [if_pos hsame, hcleared]
  · rw [if_neg hsame, abandonUpload_of_idle (by rw [hcleared]; exact h.resolve_left hsame), hcleared]

theorem commitCollector_rc_of_abandoned {old : LineSetup} {x : State} {i : Fin 4} {next count : Nat}
    (h : old.collector ≠ x.ma.setup.collector ∨ old.collectorPort ≠ x.ma.setup.collectorPort)
    (hengine : x.rc.engine = .uploading i next count) :
    (commitCollector old x).rc = { x.rc with
      slots := (commitCollector old x).rc.slots, engine := .idle
      captureReady := decide (x.ma.setup.captureThreshold ≤ ((commitCollector old x).rc.slots.toList.filter Slot.isStored).length)
      counters := { x.rc.counters with abandoned := tally x.rc.counters.abandoned 1 } } ∧
    ∀ j : Fin 4, (commitCollector old x).rc.slots[j] = if j = i then x.rc.slots[i].abandoned else x.rc.slots[j] := by
  have hrc : (collectorCleared old x).rc = x.rc := (collectorCleared_only old x) .rc (by decide)
  have hma : (collectorCleared old x).ma = x.ma := (collectorCleared_only old x) .ma (by decide)
  have habandons := abandonUpload_rc (x := collectorCleared old x) (i := i) (next := next) (count := count) (by rw [hrc, hengine])
  rw [hrc, hma] at habandons
  rw [commitCollector_eq, if_neg fun hsame => h.elim (fun hne => hne hsame.1) fun hne => hne hsame.2]
  exact habandons

theorem commitCollector_hold (old : LineSetup) (x : State) :
    (commitCollector old x).fp.holdStanding = (if old.collector = x.ma.setup.collector then x.fp.holdStanding else false) ∧
    (commitCollector old x).fp.holdTimer = (if old.collector = x.ma.setup.collector then x.fp.holdTimer else none) := by
  have hgrows : (collectorCleared old x).fp.Grows [] (commitCollector old x).fp := by
    rw [commitCollector_eq]
    split
    · exact .refl _ _
    · exact (abandonUpload_tells (.refl _)).grows
  rw [hgrows.holdStanding, hgrows.holdTimer]
  unfold collectorCleared
  split
  · exact ⟨rfl, rfl⟩
  · exact ⟨rfl, rfl⟩

theorem commitThreshold_rc (old : LineSetup) (x : State) : (commitThreshold old x).rc = { x.rc with
    captureReady := if old.captureThreshold = x.ma.setup.captureThreshold then x.rc.captureReady
      else decide (x.ma.setup.captureThreshold ≤ (x.rc.slots.toList.filter Slot.isStored).length) } := by
  unfold commitThreshold
  split
  · rfl
  · rw [evalCaptureReady_rc]

theorem commitThreshold_grows (old : LineSetup) (x : State) : x.fp.Grows [] (commitThreshold old x).fp := by
  unfold commitThreshold
  split
  · exact .refl _ _
  · exact (evalCaptureReady_tells (.refl x)).grows

theorem commitInterval_ma (old : LineSetup) (x : State) : (commitInterval old x).ma = { x.ma with
    statusTimer := if x.ma.setup.statusInterval = 0 ∧ old.statusInterval ≠ 0 then none
      else if old.statusInterval = 0 ∧ x.ma.setup.statusInterval ≠ 0 then some x.ma.setup.statusInterval
      else x.ma.statusTimer } := by
  unfold commitInterval
  dsimp only
  split
  · rfl
  · split <;> rfl

/-! ### Trim Hold (R133, R134) -/

section TrimHold

variable (old : LineSetup) (x : State)

theorem commitTrimHold_of_same (h : old.holdTrimOnFreeze = x.ma.setup.holdTrimOnFreeze) : commitTrimHold old x = x := if_pos h

theorem commitTrimHold_of_changed (h : old.holdTrimOnFreeze ≠ x.ma.setup.holdTrimOnFreeze) :
    commitTrimHold old x = evalTrimHold x := if_neg h

theorem commitTrimHold_frame : (commitTrimHold old x).te.table = x.te.table ∧ (commitTrimHold old x).te.mode = x.te.mode ∧
    (commitTrimHold old x).te.attention = x.te.attention := by
  unfold commitTrimHold
  split
  · exact ⟨rfl, rfl, rfl⟩
  · rw [evalTrimHold_te_eq]
    exact ⟨rfl, rfl, rfl⟩

theorem commitTrimHold_attention (h : x.attentionShown) : (commitTrimHold old x).attentionShown := by
  unfold commitTrimHold
  split
  · exact h
  · exact evalTrimHold_attention h

/-- The records after a change of hold trim on freeze (R134). -/
theorem commitTrimHold_valve (v : Fin Config.valves) : (commitTrimHold old x).te.valves[v] =
    if x.te.trimHold = true ∧ (commitTrimHold old x).te.trimHold = false ∧ x.te.mode = .auto ∧ x.isAuto v = true then
      { x.te.valves[v] with n := 0, eAvg := 0 }
    else x.te.valves[v] := by
  by_cases h : old.holdTrimOnFreeze = x.ma.setup.holdTrimOnFreeze
  · rw [commitTrimHold_of_same old x h]
    refine (if_neg fun hall => ?_).symm
    exact Bool.false_ne_true (hall.2.1.symm.trans hall.1)
  · rw [commitTrimHold_of_changed old x h, evalTrimHold_valve_eq, evalTrimHold_te_eq]

end TrimHold

/-! ### The delivery of a record (R190) -/

section Deliver

variable (old : LineSetup) (x : State)

/-- The delivery as far as the Trim Engine (R129, R133). -/
def trimDelivered : State := commitTrimHold old (applyValveCount old.valveCount (commitGrid old x))

/-- The delivery as far as the capture threshold. -/
def ringDelivered : State := commitThreshold old (commitCollector old (trimDelivered old x))

theorem deliverSetup_eq : deliverSetup old x = commitInterval old (ringDelivered old x) := rfl

theorem trimDelivered_only : OnlyChanges [.fp, .pos, .te, .rw] x (trimDelivered old x) :=
  (((commitGrid_only old x).mono (by decide)).andThen (applyValveCount_only _ _) (by decide)).andThen
    (commitTrimHold_only _ _) (by decide)

theorem trimDelivered_grows : x.fp.Grows [] (trimDelivered old x).fp :=
  (commitTrimHold_tells (l := []) old (applyValveCount_tells old.valveCount (commitGrid_tells old (.refl x)))).grows

theorem ringDelivered_after : OnlyChanges [.fp, .rc] (trimDelivered old x) (ringDelivered old x) :=
  (commitCollector_only old _).andThen (commitThreshold_only old _) (by decide)

theorem deliverSetup_after : OnlyChanges [.fp, .rc, .ma] (trimDelivered old x) (deliverSetup old x) :=
  ((ringDelivered_after old x).mono (by decide)).andThen (commitInterval_only old _) (by decide)

theorem trimDelivered_ma : (trimDelivered old x).ma = x.ma := (trimDelivered_only old x).keep .ma (by decide)

theorem trimDelivered_rc : (trimDelivered old x).rc = x.rc := (trimDelivered_only old x).keep .rc (by decide)

theorem deliverSetup_agent : (deliverSetup old x).ma = { x.ma with
    statusTimer := if x.ma.setup.statusInterval = 0 ∧ old.statusInterval ≠ 0 then none
      else if old.statusInterval = 0 ∧ x.ma.setup.statusInterval ≠ 0 then some x.ma.setup.statusInterval
      else x.ma.statusTimer } := by
  have hma : (ringDelivered old x).ma = x.ma :=
    ((ringDelivered_after old x).keep .ma (by decide)).trans (trimDelivered_ma old x)
  rw [deliverSetup_eq, commitInterval_ma, hma]

theorem deliverSetup_hold :
    (deliverSetup old x).fp.holdStanding = (if old.collector = x.ma.setup.collector then x.fp.holdStanding else false) ∧
    (deliverSetup old x).fp.holdTimer = (if old.collector = x.ma.setup.collector then x.fp.holdTimer else none) := by
  have hfp : (deliverSetup old x).fp = (ringDelivered old x).fp := (commitInterval_only old _) .fp (by decide)
  have hgrows := commitThreshold_grows old (commitCollector old (trimDelivered old x))
  obtain ⟨hstanding, htimer⟩ := commitCollector_hold old (trimDelivered old x)
  have hbefore := trimDelivered_grows old x
  rw [hfp, show ringDelivered old x = commitThreshold old (commitCollector old (trimDelivered old x)) from rfl,
    hgrows.holdStanding, hgrows.holdTimer, hstanding, htimer, hbefore.holdStanding, hbefore.holdTimer, trimDelivered_ma]
  exact ⟨rfl, rfl⟩

theorem deliverSetup_rc : (deliverSetup old x).rc = { (commitCollector old (trimDelivered old x)).rc with
    captureReady := if old.captureThreshold = x.ma.setup.captureThreshold then
        (commitCollector old (trimDelivered old x)).rc.captureReady
      else decide (x.ma.setup.captureThreshold ≤
        ((commitCollector old (trimDelivered old x)).rc.slots.toList.filter Slot.isStored).length) } := by
  have hrc : (deliverSetup old x).rc = (ringDelivered old x).rc := (commitInterval_only old _) .rc (by decide)
  have hma : (commitCollector old (trimDelivered old x)).ma = x.ma :=
    ((commitCollector_only old _) .ma (by decide)).trans (trimDelivered_ma old x)
  rw [hrc, show ringDelivered old x = commitThreshold old (commitCollector old (trimDelivered old x)) from rfl,
    commitThreshold_rc, hma]

theorem deliverSetup_rc_of_kept (h : (old.collector = x.ma.setup.collector ∧ old.collectorPort = x.ma.setup.collectorPort) ∨
    x.rc.engine = .idle) : (deliverSetup old x).rc = { x.rc with
      captureReady := if old.captureThreshold = x.ma.setup.captureThreshold then x.rc.captureReady
        else decide (x.ma.setup.captureThreshold ≤ ((deliverSetup old x).rc.slots.toList.filter Slot.isStored).length) } := by
  have hkept : (commitCollector old (trimDelivered old x)).rc = x.rc := by
    rw [commitCollector_rc_of_kept (by rw [trimDelivered_ma, trimDelivered_rc]; exact h), trimDelivered_rc]
  rw [deliverSetup_rc, hkept]

theorem deliverSetup_rc_of_abandoned {i : Fin 4} {next count : Nat}
    (h : old.collector ≠ x.ma.setup.collector ∨ old.collectorPort ≠ x.ma.setup.collectorPort)
    (hengine : x.rc.engine = .uploading i next count) :
    (deliverSetup old x).rc = { x.rc with
      slots := (deliverSetup old x).rc.slots, engine := .idle
      captureReady := decide (x.ma.setup.captureThreshold ≤ ((deliverSetup old x).rc.slots.toList.filter Slot.isStored).length)
      counters := { x.rc.counters with abandoned := tally x.rc.counters.abandoned 1 } } ∧
    ∀ j : Fin 4, (deliverSetup old x).rc.slots[j] = if j = i then x.rc.slots[i].abandoned else x.rc.slots[j] := by
  have habandons := commitCollector_rc_of_abandoned (old := old) (x := trimDelivered old x) (i := i) (next := next)
    (count := count) (by rw [trimDelivered_ma]; exact h) (by rw [trimDelivered_rc]; exact hengine)
  rw [trimDelivered_ma, trimDelivered_rc] at habandons
  obtain ⟨hrc, hslots⟩ := habandons
  have hdelivered := deliverSetup_rc old x
  generalize (commitCollector old (trimDelivered old x)).rc = rc at hrc hslots hdelivered
  rw [hdelivered]
  refine ⟨?_, hslots⟩
  rw [hrc]
  dsimp only
  rw [ite_self]

theorem trimDelivered_te : (trimDelivered old x).te.table = x.te.table ∧ (trimDelivered old x).te.mode = x.te.mode := by
  obtain ⟨htable, hmode, -⟩ := applyValveCount_te old.valveCount (commitGrid old x)
  obtain ⟨htable', hmode', -⟩ := commitTrimHold_frame old (applyValveCount old.valveCount (commitGrid old x))
  have hgrid : (commitGrid old x).te = x.te := (commitGrid_only old x) .te (by decide)
  rw [hgrid] at htable hmode
  exact ⟨htable'.trans htable, hmode'.trans hmode⟩

/-- The state that the valve count is applied to. -/
theorem commitGrid_seen : (commitGrid old x).te = x.te ∧ (commitGrid old x).ma = x.ma ∧ (commitGrid old x).rw = x.rw ∧
    (commitGrid old x).activeProduct = x.activeProduct := by
  have honly := commitGrid_only old x
  exact ⟨honly .te (by decide), honly .ma (by decide), honly .rw (by decide),
    State.activeProduct_congr (honly .pu (by decide))⟩

theorem trimDelivered_valve (v : Fin Config.valves) : (trimDelivered old x).te.valves[v] =
    if x.te.trimHold = true ∧ (trimDelivered old x).te.trimHold = false ∧ x.te.mode = .auto ∧ x.isAuto v = true then
      { counted old.valveCount x v x.te.valves[v] with n := 0, eAvg := 0 }
    else counted old.valveCount x v x.te.valves[v] := by
  obtain ⟨hte, hma, -, hactive⟩ := commitGrid_seen old x
  obtain ⟨htable, hmode, htrim⟩ := applyValveCount_te old.valveCount (commitGrid old x)
  have hvalve := applyValveCount_valve old.valveCount (commitGrid old x) v
  have hcounted : counted old.valveCount (commitGrid old x) v = counted old.valveCount x v := by
    unfold counted
    rw [hte, hma, hactive]
  have hagent : (applyValveCount old.valveCount (commitGrid old x)).ma = x.ma :=
    ((applyValveCount_only _ _) .ma (by decide)).trans hma
  have hauto : (applyValveCount old.valveCount (commitGrid old x)).isAuto v = x.isAuto v := by
    unfold State.isAuto
    rw [htable, hagent, hte]
  rw [hcounted, hte] at hvalve
  rw [hte] at hmode htrim
  unfold trimDelivered
  rw [commitTrimHold_valve, hvalve, hmode, htrim, hauto]

theorem trimDelivered_rw (v : Fin Config.valves) : (trimDelivered old x).rw.counters = x.rw.counters ∧
    (trimDelivered old x).rw.expected[v] = (if joinsAuto old.valveCount x v then none else x.rw.expected[v]) ∧
    (trimDelivered old x).rw.epoch[v] = (if joinsAuto old.valveCount x v then x.rw.epoch[v] + 1 else x.rw.epoch[v]) := by
  obtain ⟨hte, hma, hrw, -⟩ := commitGrid_seen old x
  have hjoins : joinsAuto old.valveCount (commitGrid old x) v = joinsAuto old.valveCount x v := by
    unfold joinsAuto
    rw [hte, hma]
  have hcounts := applyValveCount_rw old.valveCount (commitGrid old x) v
  have hheld : (trimDelivered old x).rw = (applyValveCount old.valveCount (commitGrid old x)).rw :=
    (commitTrimHold_only _ _) .rw (by decide)
  rw [hjoins, hrw] at hcounts
  rw [hheld]
  exact hcounts

theorem trimDelivered_attention_of_same (h : old.valveCount = x.ma.setup.valveCount) :
    (trimDelivered old x).te.attention = x.te.attention := by
  obtain ⟨hte, hma, -, -⟩ := commitGrid_seen old x
  obtain ⟨-, -, hattention⟩ := commitTrimHold_frame old (applyValveCount old.valveCount (commitGrid old x))
  rw [trimDelivered, hattention, applyValveCount_of_same _ _ (by rw [hma]; exact h), hte]

theorem trimDelivered_attention_of_changed (h : old.valveCount ≠ x.ma.setup.valveCount) :
    (trimDelivered old x).attentionShown := by
  obtain ⟨-, hma, -, -⟩ := commitGrid_seen old x
  exact commitTrimHold_attention old _ (applyValveCount_attention _ _ (by rw [hma]; exact h))

theorem trimDelivered_trim_of_same (h : old.holdTrimOnFreeze = x.ma.setup.holdTrimOnFreeze) :
    (trimDelivered old x).te.trimHold = x.te.trimHold := by
  obtain ⟨hte, hma, -, -⟩ := commitGrid_seen old x
  obtain ⟨-, -, htrim⟩ := applyValveCount_te old.valveCount (commitGrid old x)
  have hagent : (applyValveCount old.valveCount (commitGrid old x)).ma = x.ma :=
    ((applyValveCount_only _ _) .ma (by decide)).trans hma
  rw [trimDelivered, commitTrimHold_of_same _ _ (by rw [hagent]; exact h), htrim, hte]

theorem trimDelivered_trim_of_changed (h : old.holdTrimOnFreeze ≠ x.ma.setup.holdTrimOnFreeze) :
    (trimDelivered old x).trimShown := by
  obtain ⟨-, hma, -, -⟩ := commitGrid_seen old x
  have hagent : (applyValveCount old.valveCount (commitGrid old x)).ma = x.ma :=
    ((applyValveCount_only _ _) .ma (by decide)).trans hma
  rw [trimDelivered, commitTrimHold_of_changed _ _ (by rw [hagent]; exact h)]
  exact evalTrimHold_trim _

/-- What Trim Hold depends on stands through the rest of the delivery. -/
theorem deliverSetup_freeze : (deliverSetup old x).rc.freeze = x.rc.freeze := by
  rw [deliverSetup_rc]
  by_cases h : (old.collector = x.ma.setup.collector ∧ old.collectorPort = x.ma.setup.collectorPort) ∨ x.rc.engine = .idle
  · rw [commitCollector_rc_of_kept (by rw [trimDelivered_ma, trimDelivered_rc]; exact h), trimDelivered_rc]
  · obtain ⟨hchanged, hbusy⟩ := not_or.mp h
    cases hengine : x.rc.engine with
    | idle => exact absurd hengine hbusy
    | uploading i next count =>
      rw [(commitCollector_rc_of_abandoned (old := old) (x := trimDelivered old x) (i := i) (next := next) (count := count)
        (by rw [trimDelivered_ma]; exact Decidable.not_and_iff_or_not.mp hchanged)
        (by rw [trimDelivered_rc]; exact hengine)).1, trimDelivered_rc]

theorem deliverSetup_holdsTrim : (deliverSetup old x).holdsTrim = (trimDelivered old x).holdsTrim := by
  have hafter := deliverSetup_after old x
  have hfreeze : (deliverSetup old x).rc.freeze = (trimDelivered old x).rc.freeze := by
    rw [deliverSetup_freeze, trimDelivered_rc]
  have hsetup : (deliverSetup old x).ma.setup = (trimDelivered old x).ma.setup := by
    rw [deliverSetup_agent, trimDelivered_ma]
  unfold State.holdsTrim
  rw [hafter.keep .te (by decide), hafter.keep .rm (by decide), hafter.keep .pu (by decide), hfreeze, hsetup]

end Deliver

section Counted

variable {old : Nat} {x : State} {v : Fin Config.valves}

theorem counted_leaves (r : ValveRecord) (hlow : v.val < old) (hhigh : x.ma.setup.valveCount ≤ v.val) : counted old x v r =
    { r with state := .excluded, trim := 0, n := 0, eAvg := 0, unsettledRun := 0, limit := false } := by
  rw [counted, countedRecord, if_pos (decide_eq_true ⟨hlow, hhigh⟩)]
  rfl

theorem counted_stays (r : ValveRecord) (h : v.val < old ↔ v.val < x.ma.setup.valveCount) : counted old x v r = r := by
  rw [counted, countedRecord, decide_eq_false (by omega), decide_eq_false (by omega)]
  rfl

theorem counted_joins (r : ValveRecord) (hlow : old ≤ v.val) (hhigh : v.val < x.ma.setup.valveCount) : counted old x v r =
    if x.te.table[v].mode != .excluded then entryRecord x.te.table[v] x.activeProduct r else r := by
  rw [counted, countedRecord, decide_eq_false (by omega), decide_eq_true (by omega)]
  rfl

theorem counted_joins_fixed (r : ValveRecord) (hlow : old ≤ v.val) (hhigh : v.val < x.ma.setup.valveCount)
    (hmode : x.te.table[v].mode = .fixed) : counted old x v r = { r with
      state := .fixed, trim := clampTrim x.activeProduct x.te.table[v].fixedTrim, n := 0, eAvg := 0, unsettledRun := 0
      limit := false } := by
  rw [counted_joins r hlow hhigh, entryRecord, hmode]
  rfl

theorem counted_joins_excluded (r : ValveRecord) (hlow : old ≤ v.val) (hhigh : v.val < x.ma.setup.valveCount)
    (hmode : x.te.table[v].mode = .excluded) : counted old x v r = r := by
  rw [counted_joins r hlow hhigh, hmode]
  rfl

theorem counted_joins_auto (r : ValveRecord) (hlow : old ≤ v.val) (hhigh : v.val < x.ma.setup.valveCount)
    (hmode : x.te.table[v].mode = .auto) : counted old x v r = { r with
      state := .settling, n := 0, eAvg := 0, unsettledRun := 0, limit := false } := by
  rw [counted_joins r hlow hhigh, entryRecord, hmode]
  rfl

end Counted

theorem commitLineSetup_refused {s : State} (first : Nat) {b : List Byte} (more : List (List Byte)) (h : setupOf b = none) :
    commitTable .lineSetup first (b :: more) s = (s, { status := .badArgument, index := 0 }) := by
  show commitLineSetup (b :: more) s = _
  unfold commitLineSetup
  rw [List.headD_cons, h]
  rfl

theorem commitLineSetup_accepted {s : State} (first : Nat) {b : List Byte} (more : List (List Byte)) {new : LineSetup}
    (h : setupOf b = some new) :
    commitTable .lineSetup first (b :: more) s = (deliverSetup s.ma.setup (s.withSetup new), {}) := by
  show commitLineSetup (b :: more) s = _
  unfold commitLineSetup
  rw [List.headD_cons, h]
  rfl

/-- The record in force delivered again changes nothing (R190). -/
theorem deliverSetup_of_same (s : State) : deliverSetup s.ma.setup s = s := by
  have htrim : trimDelivered s.ma.setup s = s := by
    have hgrid : commitGrid s.ma.setup s = s := if_pos ⟨rfl, rfl⟩
    rw [trimDelivered, hgrid, applyValveCount_of_same _ _ rfl, commitTrimHold_of_same _ _ rfl]
  have hcollector : commitCollector s.ma.setup s = s := by
    rw [commitCollector_eq, if_pos ⟨rfl, rfl⟩, collectorCleared, if_pos rfl]
  have hthreshold : commitThreshold s.ma.setup s = s := if_pos rfl
  rw [deliverSetup_eq, ringDelivered, htrim, hcollector, hthreshold, commitInterval]
  dsimp only
  rw [if_neg fun h => h.2 h.1, if_neg fun h => h.2 h.1]

/-- Settles O55: a Valve Table commit acts valve by valve, and a Line Setup record is delivered to one block after the other. -/
theorem valveAndSetupCommits : Obligations.ValveAndSetupCommits := by
  unfold Obligations.ValveAndSetupCommits
  refine ⟨fun s first entries good hgood => ?_, ?_⟩
  swap
  · intro s first b more
    refine ⟨commitLineSetup_refused first more, fun hsame => ?_, fun new old hnew hold => ?_⟩
    · rw [commitLineSetup_accepted first more hsame]
      exact congrArg (·, ({} : Reply)) (deliverSetup_of_same s)
    · subst hold
      have honly : OnlyChanges [.fp, .pos, .te, .rw, .rc, .ma] s (s.withSetup new) := (OnlyChanges.refl _ s).put_ma _ (by decide)
      have hafter := deliverSetup_after s.ma.setup (s.withSetup new)
      have hte := hafter.keep .te (by decide)
      have hrw := hafter.keep .rw (by decide)
      obtain ⟨htable, hmode⟩ := trimDelivered_te s.ma.setup (s.withSetup new)
      obtain ⟨hstanding, htimer⟩ := deliverSetup_hold s.ma.setup (s.withSetup new)
      refine ⟨_, commitLineSetup_accepted first more hnew, honly.trans (deliverSetup_only s.ma.setup (s.withSetup new)),
        deliverSetup_agent _ _, deliverSetup_pos _ _, hstanding, htimer, deliverSetup_rc_of_kept s.ma.setup (s.withSetup new),
        fun i next count hchanged hengine => ?_, ?_⟩
      · obtain ⟨hrc, hslots⟩ := deliverSetup_rc_of_abandoned s.ma.setup (s.withSetup new) hchanged hengine
        refine ⟨hrc, fun cap hcap => ?_, fun j hj => ?_⟩
        · rw [hslots, if_pos rfl]
          exact congrArg Slot.abandoned hcap
        · rw [hslots, if_neg hj]
          rfl
      · have hvalve := trimDelivered_valve s.ma.setup (s.withSetup new)
        have hrws := trimDelivered_rw s.ma.setup (s.withSetup new)
        have hsameAttention := trimDelivered_attention_of_same s.ma.setup (s.withSetup new)
        have hattention := trimDelivered_attention_of_changed s.ma.setup (s.withSetup new)
        have hsameTrim := trimDelivered_trim_of_same s.ma.setup (s.withSetup new)
        have htrim := trimDelivered_trim_of_changed s.ma.setup (s.withSetup new)
        have hholds := deliverSetup_holdsTrim s.ma.setup (s.withSetup new)
        generalize deliverSetup s.ma.setup (s.withSetup new) = u at *
        generalize trimDelivered s.ma.setup (s.withSetup new) = d at *
        rw [hte, hrw, hholds]
        refine ⟨htable, hmode, (hrws ⟨0, by decide⟩).1, hsameAttention, fun h => hattention h, hsameTrim, fun h => htrim h,
          fun v => ?_⟩
        have hv := hvalve v
        obtain ⟨-, hexpected, hepoch⟩ := hrws v
        have hauto : (s.withSetup new).isAuto v = true ↔ v.val < new.valveCount ∧ s.te.table[v].mode = .auto := by
          rw [State.isAuto, Bool.and_eq_true, decide_eq_true_eq, beq_iff_eq]
          rfl
        have hstill (h : ¬ (v.val < new.valveCount ∧ s.te.table[v].mode = .auto)) :
            d.te.valves[v] = counted s.ma.setup.valveCount (s.withSetup new) v s.te.valves[v] :=
          hv.trans (if_neg fun hall => h (hauto.mp hall.2.2.2))
        refine ⟨fun hlow hhigh => ?_, fun hsame => ?_, fun hlow hhigh hfixed => ?_, fun hlow hhigh hexcluded => ?_,
          fun hlow hhigh hisAuto => ?_, fun hnot => ?_⟩
        · rw [hstill fun h => absurd h.1 (not_lt.mpr hhigh)]
          exact counted_leaves _ hlow hhigh
        · rw [hv, counted_stays _ (by exact hsame)]
          exact if_congr (by rw [hauto]; rfl) rfl rfl
        · rw [hstill fun h => absurd (hfixed.symm.trans h.2) nofun]
          exact counted_joins_fixed _ hlow hhigh hfixed
        · rw [hstill fun h => absurd (hexcluded.symm.trans h.2) nofun]
          exact counted_joins_excluded _ hlow hhigh hexcluded
        · have hjoins : joinsAuto s.ma.setup.valveCount (s.withSetup new) v = true :=
            (joinsAuto_iff _ _ v).mpr ⟨⟨hlow, hhigh⟩, hisAuto⟩
          rw [counted_joins_auto _ hlow (by exact hhigh) (by exact hisAuto)] at hv
          rw [hjoins] at hexpected hepoch
          refine ⟨hv.trans ?_, hexpected, hepoch⟩
          split <;> rfl
        · have hjoins : ¬ joinsAuto s.ma.setup.valveCount (s.withSetup new) v = true := fun h =>
            hnot (by
              obtain ⟨⟨hlow, hhigh⟩, hmode⟩ := (joinsAuto_iff _ _ v).mp h
              exact ⟨hlow, hhigh, hmode⟩)
          rw [if_neg hjoins] at hexpected hepoch
          exact ⟨hexpected, hepoch⟩
  subst hgood
  refine ⟨fun before after b hentries hbefore hb => hentries ▸ commitValve_refused hbefore hb, fun hall => ?_⟩
  obtain ⟨l, hlength, hget, hcommit⟩ := commitValve_accepted s first hall
  have honly := applyValveCommit_only s.te.table first entries.length (s.withTable (putRange s.te.table first l))
  obtain ⟨htable, hmode, htrim⟩ := applyValveCommit_te s.te.table first entries.length (s.withTable (putRange s.te.table first l))
  have hvalve := applyValveCommit_valve s.te.table first entries.length (s.withTable (putRange s.te.table first l))
  have hrw := applyValveCommit_rw s.te.table first entries.length (s.withTable (putRange s.te.table first l))
  have hattention := applyValveCommit_attention s.te.table first entries.length (s.withTable (putRange s.te.table first l))
  generalize applyValveCommit s.te.table first entries.length (s.withTable (putRange s.te.table first l)) = u at *
  have hactive : (s.withTable (putRange s.te.table first l)).activeProduct = s.activeProduct :=
    State.activeProduct_congr (State.withTable_pu ..)
  rw [State.withTable_te] at htable hmode htrim
  refine ⟨u, hcommit, (State.withTable_only s _).andThen honly (by decide), hmode, htrim, (hrw ⟨0, by decide⟩).1, hattention,
    fun v => ?_⟩
  have hv := hvalve v
  obtain ⟨-, hexpected, hepoch⟩ := hrw v
  rw [hactive, State.withTable_te, State.withTable_ma] at hv
  rw [State.withTable_te, State.withTable_ma, State.withTable_rw] at hexpected hepoch
  dsimp only at htable hv hexpected hepoch
  rw [← htable] at hv hexpected hepoch
  have hentry : u.te.table[v] = (putRange s.te.table first l)[v] := by rw [htable]
  refine ⟨fun hout => ?_, fun b changed kept hfirst hb hchanged hkept => ?_⟩
  · rw [decide_eq_false hout] at hv hexpected hepoch
    exact ⟨hentry.trans (putRange_outside _ _ _ (by rwa [hlength])), hv, hexpected, hepoch⟩
  · have hin : first ≤ v.val ∧ v.val < first + entries.length := by
      have := (List.getElem?_eq_some_iff.mp hb).1
      omega
    have hnew : u.te.table[v] = valveEntryOf b := by
      rw [hentry, putRange_get, if_pos hfirst, hget _ _ hb]
      rfl
    rw [decide_eq_true hin, hnew] at hv hexpected hepoch
    rw [hnew] at hchanged ⊢
    subst hchanged hkept
    have hbelow (h : v.val < s.ma.setup.valveCount) : decide (v.val < s.ma.setup.valveCount) = true := decide_eq_true h
    have hidle (h : s.ma.setup.valveCount ≤ v.val ∨ (¬ (s.te.table[v].mode ≠ (valveEntryOf b).mode ∨
        s.te.table[v].fixedTrim ≠ (valveEntryOf b).fixedTrim) ∧ s.te.valves[v].state ≠ .fault)) :
        valveActs true (decide (v.val < s.ma.setup.valveCount)) s.te.table[v] (valveEntryOf b) s.te.valves[v] = false := by
      rcases h with hcount | ⟨hsame, hstate⟩
      · rw [decide_eq_false (not_lt.mpr hcount)]
        rfl
      · obtain ⟨hsameMode, hsameTrim⟩ := not_or.mp hsame
        exact valveActs_of_same (not_not.mp hsameMode) (not_not.mp hsameTrim) hstate
    refine ⟨rfl, rfl, rfl, fun hcount hzero hacts => ?_, fun hcount hone hacts => ?_, fun hcount htwo hacts => ?_,
      fun h => ?_, fun h => ?_⟩
    · rw [hbelow hcount] at hv hexpected hepoch
      rw [valveActs_auto (valveEntryOf_auto hzero) (or_assoc.mp hacts), valveEntryOf_auto hzero] at hexpected hepoch
      exact ⟨hv.trans (committedRecord_auto hzero hacts), hexpected, hepoch⟩
    · rw [hbelow hcount] at hv
      exact hv.trans (committedRecord_fixed hone hacts)
    · rw [hbelow hcount] at hv
      exact hv.trans (committedRecord_excluded htwo hacts)
    · exact hv.trans (committedRecord_of_idle (hidle h))
    · have hnot : (valveActs true (decide (v.val < s.ma.setup.valveCount)) s.te.table[v] (valveEntryOf b) s.te.valves[v] &&
          (valveEntryOf b).mode == .auto) = false := by
        rcases h with hcount | hmode | hsame
        · rw [hidle (.inl hcount)]
          rfl
        · rw [Bool.and_eq_false_imp]
          intro _
          rw [beq_eq_false_iff_ne]
          exact valveEntryOf_not_auto hmode
        · rw [hidle (.inr hsame)]
          rfl
      rw [hnot] at hexpected hepoch
      exact ⟨hexpected, hepoch⟩

end Sys2Proof.Machine
end

section
/-!
PROOFS, the scopes of RESET (R193 and Table 11-7), with the status frames that changes of the status word build (R191).
-/

namespace Sys2Proof.Machine

/-! ### The status word and its flags (R191) -/

/-- The flags of the status word, bit 0 first (section 12.4). -/
def State.statusFlags (s : State) : List Bool :=
  [s.jr.lineStop, decide (s.rm.tracking = .synced), decide (s.rm.tracking = .lost), s.te.trimHold, s.fe.zeroFault,
    s.fe.weigherSilent, s.pos.fault, s.rc.captureReady, decide (s.rc.freeze ≠ .notFrozen), s.ma.load.isSome, s.ma.overrun,
    s.te.attention, s.jr.unexpected, s.fe.zeroDone]

theorem bitsOf_inj : ∀ {l m : List Bool}, l.length = m.length → bitsOf l = bitsOf m → l = m
  | [], [], _, _ => rfl
  | a :: l, b :: m, hlength, h => by
    have ha := Bool.toNat_lt a
    have hb := Bool.toNat_lt b
    rw [bitsOf, bitsOf] at h
    have hhead : a.toNat = b.toNat := by omega
    have htail : bitsOf l = bitsOf m := by omega
    have hab : a = b := by
      revert hhead
      cases a <;> cases b <;> decide
    rw [hab, bitsOf_inj (Nat.succ.inj hlength) htail]

theorem statusWord_eq_iff (s t : State) : s.statusWord = t.statusWord ↔ s.statusFlags = t.statusFlags := by
  have hword (x : State) : x.statusWord.toNat = bitsOf x.statusFlags := statusWord_toNat x
  constructor
  · exact fun h => bitsOf_inj rfl (by rw [← hword, ← hword, h])
  · exact fun h => BitVec.eq_of_toNat_eq (by rw [hword, hword, h])

/-! ### Status frames built one after the other (R14, R191) -/

/-- The Frame Path after status frames with the payloads (R191). -/
def State.statusBuilt (s : State) (payloads : List (List Byte)) : FramePath :=
  { s.fp.setPort s.ma.setup.controllerPort (s.statusPort payloads) with
    seqMgmt := s.fp.seqMgmt + BitVec.ofNat 8 (if (s.fp.port s.ma.setup.controllerPort).linkUp then payloads.length else 0) }

theorem statusBuilt_nil (s : State) : s.statusBuilt [] = s.fp := by
  have hport : s.statusPort [] = s.fp.port s.ma.setup.controllerPort := by
    unfold State.statusPort
    simp [tally_zero]
  unfold State.statusBuilt
  rw [hport, FramePath.setPort_port]
  simp

/-- The queue after one more offer: a full one loses its oldest frame (R14). -/
theorem statusQueue_snoc (l : List Frame) (frames : List Frame) (f : Frame) (n : Nat) (hn : frames.length = n) :
    (if ((l ++ frames).drop (n - (2 - l.length))).length < 2 then (l ++ frames).drop (n - (2 - l.length))
      else ((l ++ frames).drop (n - (2 - l.length))).drop 1) ++ [f] =
    (l ++ (frames ++ [f])).drop (n + 1 - (2 - l.length)) := by
  subst hn
  rw [← List.append_assoc]
  have hlength : ((l ++ frames).drop (frames.length - (2 - l.length))).length =
      l.length + frames.length - (frames.length - (2 - l.length)) := by
    rw [List.length_drop, List.length_append]
  by_cases hfits : l.length + frames.length < 2
  · have hnone : frames.length - (2 - l.length) = 0 := by omega
    have hnone' : frames.length + 1 - (2 - l.length) = 0 := by omega
    rw [if_pos (by omega), hnone, hnone', List.drop_zero, List.drop_zero]
  · have hone : frames.length + 1 - (2 - l.length) = frames.length - (2 - l.length) + 1 := by omega
    rw [if_neg (by omega), List.drop_drop, hone, List.drop_append_of_le_length (l₁ := l ++ frames) (by rw [List.length_append]; omega)]

/-- The frames lost so far and by one more offer. -/
theorem statusDropped_snoc (l : List Frame) (frames : List Frame) (n : Nat) (hn : frames.length = n) :
    n - (2 - l.length) + (if ((l ++ frames).drop (n - (2 - l.length))).length < 2 then 0 else 1) = n + 1 - (2 - l.length) := by
  subst hn
  rw [List.length_drop, List.length_append]
  split <;> omega

/-- A port after one offer to its STATUS queue (R14). -/
def PortState.afterStatus (ps : PortState) (frame : Frame) : PortState :=
  if ps.linkUp then
    { ps with
      status := (if ps.status.length < 2 then ps.status else ps.status.drop 1) ++ [frame]
      counters := { ps.counters with dropped := tally ps.counters.dropped (if ps.status.length < 2 then 0 else 1) } }
  else ps.countDropped 1

theorem offerStatus_eq (fp : FramePath) (p : Port) (dest : Byte) (payload : List Byte) : fp.offerStatus p dest payload =
    { fp.setPort p ((fp.port p).afterStatus (insertedFrame fp.station dest 240 fp.seqMgmt payload)) with
      seqMgmt := fp.seqMgmt + BitVec.ofNat 8 (if (fp.port p).linkUp then 1 else 0) } := by
  unfold FramePath.offerStatus PortState.afterStatus
  dsimp only
  by_cases hup : (fp.port p).linkUp = true
  · rw [if_pos hup, if_pos hup, if_pos hup]
    by_cases hroom : (fp.port p).status.length < 2
    · rw [if_pos (by exact hroom), if_pos hroom, if_pos hroom, tally_zero]
      cases p <;> rfl
    · rw [if_neg (by exact hroom), if_neg hroom, if_neg hroom]
      cases p <;> rfl
  · rw [if_neg hup, if_neg hup, if_neg hup, BitVec.add_zero]
    cases p <;> rfl

theorem statusPort_linkUp (s : State) (payloads : List (List Byte)) :
    (s.statusPort payloads).linkUp = (s.fp.port s.ma.setup.controllerPort).linkUp := by
  unfold State.statusPort
  dsimp only
  split <;> rfl

/-- One more status frame on the controller port (R14). -/
theorem afterStatus_statusPort (s : State) (payloads : List (List Byte)) (payload : List Byte) :
    (s.statusPort payloads).afterStatus (insertedFrame s.fp.station s.ma.setup.controller 240
      (s.fp.seqMgmt + BitVec.ofNat 8 payloads.length) payload) = s.statusPort (payloads ++ [payload]) := by
  unfold PortState.afterStatus
  rw [statusPort_linkUp]
  unfold State.statusPort
  dsimp only
  by_cases hup : (s.fp.port s.ma.setup.controllerPort).linkUp = true
  · simp only [if_pos hup]
    have hqueue := statusQueue_snoc (s.fp.port s.ma.setup.controllerPort).status
      (payloads.mapIdx fun i payload => insertedFrame s.fp.station s.ma.setup.controller 240 (s.fp.seqMgmt + BitVec.ofNat 8 i) payload)
      (insertedFrame s.fp.station s.ma.setup.controller 240 (s.fp.seqMgmt + BitVec.ofNat 8 payloads.length) payload)
      payloads.length (by simp)
    have hdropped := statusDropped_snoc (s.fp.port s.ma.setup.controllerPort).status
      (payloads.mapIdx fun i payload => insertedFrame s.fp.station s.ma.setup.controller 240 (s.fp.seqMgmt + BitVec.ofNat 8 i) payload)
      payloads.length (by simp)
    rw [hqueue, List.mapIdx_concat, tally_tally, hdropped, List.length_append, List.length_singleton]
  · simp only [if_neg hup]
    unfold PortState.countDropped
    simp only [tally_tally, List.length_append, List.length_singleton]

theorem statusBuilt_seqMgmt (s : State) (payloads : List (List Byte)) : (s.statusBuilt payloads).seqMgmt =
    s.fp.seqMgmt + BitVec.ofNat 8 (if (s.fp.port s.ma.setup.controllerPort).linkUp then payloads.length else 0) := rfl

theorem offerStatus_statusBuilt (s : State) (payloads : List (List Byte)) (payload : List Byte) :
    (s.statusBuilt payloads).offerStatus s.ma.setup.controllerPort s.ma.setup.controller payload =
      s.statusBuilt (payloads ++ [payload]) := by
  have hport : (s.statusBuilt payloads).port s.ma.setup.controllerPort = s.statusPort payloads :=
    (FramePath.port_seqMgmt _ _ _).trans ((FramePath.setPort_get _ _ _ _).trans (if_pos rfl))
  have hstation : (s.statusBuilt payloads).station = s.fp.station := by
    unfold State.statusBuilt
    cases s.ma.setup.controllerPort <;> rfl
  rw [offerStatus_eq, hport, statusPort_linkUp, hstation]
  have hframe (frame frame' : Frame) (h : (s.fp.port s.ma.setup.controllerPort).linkUp = true → frame = frame') :
      (s.statusPort payloads).afterStatus frame = (s.statusPort payloads).afterStatus frame' := by
    unfold PortState.afterStatus
    rw [statusPort_linkUp]
    by_cases hup : (s.fp.port s.ma.setup.controllerPort).linkUp = true
    · rw [h hup]
    · rw [if_neg hup, if_neg hup]
  rw [hframe _ (insertedFrame s.fp.station s.ma.setup.controller 240 (s.fp.seqMgmt + BitVec.ofNat 8 payloads.length) payload)
    fun hup => by rw [statusBuilt_seqMgmt, if_pos hup], afterStatus_statusPort]
  have hseq : (s.statusBuilt payloads).seqMgmt +
      BitVec.ofNat 8 (if (s.fp.port s.ma.setup.controllerPort).linkUp then 1 else 0) =
      s.fp.seqMgmt + BitVec.ofNat 8 (if (s.fp.port s.ma.setup.controllerPort).linkUp then (payloads ++ [payload]).length else 0) := by
    rw [statusBuilt_seqMgmt, BitVec.add_assoc, ← BitVec.ofNat_add, List.length_append, List.length_singleton]
    split <;> rfl
  rw [hseq]
  unfold State.statusBuilt
  cases s.ma.setup.controllerPort <;> rfl

theorem State.buildsStatus_zero (s : State) : s.buildsStatus 0 s.fp :=
  ⟨[], by simp, (statusBuilt_nil s).symm⟩

theorem buildsStatus_build {s t : State} {n : Nat} (h : s.buildsStatus n t.fp) (hsetup : t.ma.setup = s.ma.setup) :
    s.buildsStatus (n + 1) (buildStatus t).fp := by
  obtain ⟨payloads, hlength, hfp⟩ := h
  change t.fp = s.statusBuilt payloads at hfp
  unfold buildStatus
  rw [hsetup]
  by_cases hnone : s.ma.setup.controller = 255
  · rw [if_pos hnone]
    exact ⟨payloads, by rw [hlength, if_pos hnone, if_pos hnone], hfp⟩
  · rw [if_neg hnone]
    refine ⟨payloads ++ [t.statusPayload], ?_, ?_⟩
    · rw [List.length_append, hlength, if_neg hnone, if_neg hnone]
      rfl
    · rw [State.withFp_fp, hfp]
      exact offerStatus_statusBuilt s payloads _

/-- A change that is reported builds one status frame when it changes the status word (R191). -/
theorem buildsStatus_report {s old t : State} {n : Nat} {changes : Bool} (h : s.buildsStatus n t.fp)
    (hsetup : t.ma.setup = s.ma.setup) (hchanges : changes = true ↔ t.statusFlags ≠ old.statusFlags) :
    s.buildsStatus (n + changes.toNat) (report old t).fp := by
  unfold report
  by_cases hsame : t.statusWord = old.statusWord
  · have hno : changes = false := by
      rw [Bool.eq_false_iff, Ne, hchanges]
      exact not_not.mpr ((statusWord_eq_iff _ _).mp hsame)
    rw [if_pos hsame, hno]
    exact h
  · rw [if_neg hsame, hchanges.mpr (mt (statusWord_eq_iff _ _).mpr hsame)]
    exact buildsStatus_build h hsetup

/-- Trim Hold evaluated builds one status frame when it changes (R133, R191). -/
theorem buildsStatus_evalTrimHold {s t : State} {n : Nat} (h : s.buildsStatus n t.fp) (hsetup : t.ma.setup = s.ma.setup) :
    s.buildsStatus (n + (t.te.trimHold != (evalTrimHold t).te.trimHold).toNat) (evalTrimHold t).fp := by
  have htrim : (evalTrimHold t).te.trimHold = t.holdsTrim := by rw [evalTrimHold_te_eq]
  rw [htrim]
  by_cases hsame : t.holdsTrim = t.te.trimHold
  · rw [evalTrimHold_of_eq hsame, hsame, bne_self_eq_false]
    exact h
  · have hchanges : (t.te.trimHold != t.holdsTrim) = true ↔
        State.statusFlags { t with te := { t.te with trimHold := t.holdsTrim } } ≠ t.statusFlags := by
      rw [bne_iff_ne, Ne, Ne, eq_comm, not_iff_not]
      simp [State.statusFlags]
    have hreport := buildsStatus_report (old := t) (t := { t with te := { t.te with trimHold := t.holdsTrim } }) h hsetup hchanges
    have hfp : (evalTrimHold t).fp = (report t { t with te := { t.te with trimHold := t.holdsTrim } }).fp := by
      unfold evalTrimHold
      rw [if_neg hsame]
      dsimp only
      split
      · exact State.mapValves_fp ..
      · rfl
    rw [hfp]
    exact hreport

/-- CAPTURE_READY evaluated builds one status frame when it changes (R176, R191). -/
theorem buildsStatus_evalCaptureReady {s t : State} {n : Nat} (h : s.buildsStatus n t.fp) (hsetup : t.ma.setup = s.ma.setup) :
    s.buildsStatus (n + (t.rc.captureReady != (evalCaptureReady t).rc.captureReady).toNat) (evalCaptureReady t).fp := by
  have hready : (evalCaptureReady t).rc.captureReady =
      decide (t.ma.setup.captureThreshold ≤ (t.rc.slots.toList.filter Slot.isStored).length) := by rw [evalCaptureReady_rc]
  rw [hready]
  unfold evalCaptureReady
  generalize decide (t.ma.setup.captureThreshold ≤ (t.rc.slots.toList.filter Slot.isStored).length) = ready
  refine buildsStatus_report (old := t) (by exact h) (by exact hsetup) ?_
  rw [bne_iff_ne, Ne, Ne, eq_comm, not_iff_not]
  simp [State.statusFlags]

/-! ### FULL (R193) -/

section Full

variable (fp : FramePath)

theorem keep_released_port (p : Port) : (fp.keep.released.port p) = { (fp.port p).keep with
    reply := (fp.keep.releases.filter fun x => x.1 == p).map Prod.snd
    counters := { dropped := tally 0 ((fp.held.filter fun h => h.2 == p).length -
      (fp.keep.releases.filter fun x => x.1 == p).length) } } := by
  cases p <;> rfl

/-- The first station held gets the first RELEASE, where its port has a link (R19, R20). -/
theorem keep_releases_first {station : Byte} {p : Port} {others : List (Byte × Port)} (hheld : fp.held = (station, p) :: others)
    (hup : (fp.port p).linkUp = true) :
    ∃ later, fp.keep.releases = (p, insertedFrame fp.station station 241 0 [2]) :: later := by
  have hroom : (fp.keep.port p).replyRoom ≠ 0 := by
    rw [Ne, PortState.replyRoom_eq_zero_iff]
    rintro (hdown | hfull)
    · cases p <;> exact Bool.false_ne_true (hdown.symm.trans hup)
    · cases p <;> exact Nat.not_succ_le_zero 3 hfull
  have hreleases : fp.keep.releases = fp.keep.framesFor fp.held := rfl
  rw [hreleases, hheld, FramePath.framesFor_of_room _ _ _ _ hroom]
  exact ⟨_, rfl⟩

end Full

/-! ### TRACKING (R56, R81, R102) -/

theorem setTracking_of_ne {st : TrackingState} {x : State} (hlost : st ≠ .lost) (h : x.rm.tracking ≠ st) :
    setTracking st x = evalTrimHold (report x { x with rm := { x.rm with tracking := st } }) := by
  unfold setTracking
  rw [if_neg h]
  dsimp only
  rw [if_neg fun hall => hlost hall.1]

/-- The state before the tracking is lost to a TRACKING reset: queue flushed, expectations and runs gone. -/
def trackingForgotten (s : State) : State :=
  { forgetSequences (flushRecords s) with
    rm := { (forgetSequences (flushRecords s)).rm with cleanRun := 0, unreadRun := 0 } }

theorem trackingReset_eq (s : State) : trackingReset s = abandonWindow (setTracking .notSynced (trackingForgotten s)) := rfl

theorem trackingForgotten_only (s : State) : OnlyChanges [.tq, .rm, .rc] s (trackingForgotten s) := by
  have hforgets (x : State) : OnlyChanges [.tq, .rm, .rc] x
      { forgetSequences x with rm := { (forgetSequences x).rm with cleanRun := 0, unreadRun := 0 } } :=
    ((OnlyChanges.refl _ x).put_tq { x.tq with dischargeExp := none, seamExp := none } (by decide)).put_rm
      { x.rm with expectation := none, cleanRun := 0, unreadRun := 0 } (by decide)
  exact ((flushRecords_only s).mono (by decide)).trans (hforgets (flushRecords s))

theorem trackingForgotten_tq (s : State) : (trackingForgotten s).tq = { s.tq with
    queue := [], dischargeExp := none, seamExp := none
    counters := { s.tq.counters with flushed := tally s.tq.counters.flushed s.tq.queue.length } } := by
  show { (flushRecords s).tq with dischargeExp := none, seamExp := none } = _
  rw [flushRecords_tq]

theorem trackingForgotten_rm (s : State) : (trackingForgotten s).rm =
    { s.rm with expectation := none, cleanRun := 0, unreadRun := 0 } := by
  show { (flushRecords s).rm with expectation := none, cleanRun := 0, unreadRun := 0 } = _
  rw [flushRecords_rm]

theorem trackingForgotten_rc {s : State} (h : s.rc.ring.length ≤ 32) : (trackingForgotten s).rc = { s.rc with
    ring := s.rc.ringAfter (s.tq.queue.map fun r => removalEntry r .flushed s.pos.linePos) } := by
  show (flushRecords s).rc = _
  rw [flushRecords]
  dsimp only
  rw [handRemoved_eq _ _ _ (by exact h)]
  rfl

section NotSynced

variable (x : State)

theorem setTracking_notSynced_te : (setTracking .notSynced x).te = { x.te with
    trimHold := if x.rm.tracking = .notSynced then x.te.trimHold else decide (x.te.mode = .auto) } := by
  by_cases h : x.rm.tracking = .notSynced
  · rw [setTracking, if_pos h, if_pos h]
  · have hholds : (report x { x with rm := { x.rm with tracking := .notSynced } }).holdsTrim = decide (x.te.mode = .auto) := by
      unfold State.holdsTrim
      rw [report_te, report_rm, beq_eq_decide]
      exact Bool.and_true _
    have hends : ¬ (x.te.trimHold = true ∧ decide (x.te.mode = .auto) = false ∧ x.te.mode = .auto) := fun hall =>
      Bool.false_ne_true (hall.2.1.symm.trans (decide_eq_true hall.2.2))
    rw [setTracking_of_ne (by decide) h, if_neg h, evalTrimHold_te_eq, hholds, report_te]
    dsimp only
    rw [if_neg hends]

/-- The end of the tracking builds one status frame when it was SYNCED or LOST, and one when Trim Hold changes (R191). -/
theorem setTracking_notSynced_status {s : State} (h : s.buildsStatus 0 x.fp) (hsetup : x.ma.setup = s.ma.setup) :
    s.buildsStatus ([decide (x.rm.tracking ≠ .notSynced), x.te.trimHold != (setTracking .notSynced x).te.trimHold].count true)
      (setTracking .notSynced x).fp := by
  by_cases hsame : x.rm.tracking = .notSynced
  · have heq : setTracking .notSynced x = x := if_pos hsame
    rw [heq, hsame, bne_self_eq_false]
    exact h
  · have hchanges : true = true ↔ State.statusFlags { x with rm := { x.rm with tracking := .notSynced } } ≠ x.statusFlags := by
      simp only [true_iff, Ne, State.statusFlags]
      cases htracking : x.rm.tracking with
      | notSynced => exact absurd htracking hsame
      | synced => simp
      | lost => simp
    have hreport := buildsStatus_report (old := x) (t := { x with rm := { x.rm with tracking := .notSynced } }) h hsetup hchanges
    have hheld := buildsStatus_evalTrimHold hreport (by rw [report_ma]; exact hsetup)
    rw [report_te] at hheld
    rw [setTracking_of_ne (by decide) hsame, decide_eq_true hsame]
    dsimp only at hheld
    generalize evalTrimHold (report x { x with rm := { x.rm with tracking := .notSynced } }) = u at hheld ⊢
    have hcount (b : Bool) : [true, b].count true = 0 + true.toNat + b.toNat := by cases b <;> rfl
    rw [hcount]
    exact hheld

end NotSynced

theorem abandonWindow_fe (x : State) : (abandonWindow x).fe = if x.fe.mode = .settle ∨ x.fe.mode = .window then
    { x.fe with window := none, buffer := [], mode := .occupied, beltClear := 0 } else x.fe := by
  unfold abandonWindow
  cases hmode : x.fe.mode <;> simp [State.withFe]

/-! ### LOAD and CAPTURE (R20, R179, R193) -/

theorem endLoad_status {s : State} (h : s.ma.load ≠ none) : s.buildsStatus 1 (endLoad s).fp := by
  have hchanges : true = true ↔
      State.statusFlags (s.withMa { s.ma with load := none, staging := [], loadTimer := none }) ≠ s.statusFlags := by
    simp only [true_iff, Ne, State.statusFlags]
    simp [Option.isSome_iff_ne_none.mpr h]
  exact buildsStatus_report (old := s) (t := s.withMa { s.ma with load := none, staging := [], loadTimer := none })
    s.buildsStatus_zero rfl hchanges

/-- The state with Ring and Capture replaced. -/
def State.withRing (s : State) (rc : RingCapture) : State := { s with rc := rc }

/-- Ring and Capture thawed and emptied, before Trim Hold is evaluated (R179). -/
def ringEmptied (s : State) : State :=
  report s (s.withRing { s.rc with ring := [], burst := [], freeze := .notFrozen, cause := none })

/-- The captures gone, before CAPTURE_READY is evaluated (R179, R180). -/
def capturesGone (t : State) : State :=
  { t with rc := { t.rc with
    engine := .idle
    slots := Vector.replicate 4 .empty
    order := []
    counters := if t.rc.engine = .idle then t.rc.counters
      else { t.rc.counters with abandoned := tally t.rc.counters.abandoned 1 } } }

theorem resetCaptureState_eq (s : State) :
    resetCaptureState s = evalCaptureReady (capturesGone (evalTrimHold (ringEmptied s))) := by
  unfold resetCaptureState ringEmptied capturesGone State.withRing
  dsimp only

theorem ringEmptied_rc (s : State) : (ringEmptied s).rc =
    { s.rc with ring := [], burst := [], freeze := .notFrozen, cause := none } := report_rc ..

theorem ringEmptied_te (s : State) : (ringEmptied s).te = s.te := report_te ..

theorem ringEmptied_ma (s : State) : (ringEmptied s).ma = s.ma := report_ma ..

theorem ringEmptied_status (s : State) : s.buildsStatus (decide (s.rc.freeze ≠ .notFrozen)).toNat (ringEmptied s).fp := by
  have hchanges (rc : RingCapture) (hfreeze : rc.freeze = .notFrozen) (hready : rc.captureReady = s.rc.captureReady) :
      decide (s.rc.freeze ≠ .notFrozen) = true ↔ (s.withRing rc).statusFlags ≠ s.statusFlags := by
    simp only [State.statusFlags, State.withRing, hfreeze, hready]
    by_cases h : s.rc.freeze = .notFrozen
    · rw [h]
      simp only [ne_eq, not_true_eq_false, decide_false, Bool.false_eq_true]
      exact iff_of_false id (not_not.mpr rfl)
    · simp [h]
  rw [← Nat.zero_add (Bool.toNat _)]
  exact buildsStatus_report (old := s) s.buildsStatus_zero rfl (hchanges _ rfl rfl)

theorem capturesGone_ready {t : State} (h : 1 ≤ t.ma.setup.captureThreshold) :
    (evalCaptureReady (capturesGone t)).rc = { (capturesGone t).rc with captureReady := false } := by
  rw [evalCaptureReady_rc]
  have hnone : ((capturesGone t).rc.slots.toList.filter Slot.isStored).length = 0 := rfl
  rw [hnone]
  have hlow : decide ((capturesGone t).ma.setup.captureThreshold ≤ 0) = false :=
    decide_eq_false (not_le.mpr (by exact h))
  rw [hlow]

theorem capturesGone_only (t : State) : OnlyChanges [.rc] t (capturesGone t) :=
  (OnlyChanges.refl _ t).put_rc _ (by decide)

theorem keep_port_plain (fp : FramePath) (p : Port) : (fp.port p).keep.linkUp = (fp.port p).linkUp ∧
    (fp.port p).keep.forward = (fp.port p).forward ∧ (fp.port p).keep.transmitting = (fp.port p).transmitting ∧
    (fp.port p).keep.reject = [] ∧ (fp.port p).keep.printTag = [] ∧ (fp.port p).keep.status = [] ∧
    (fp.port p).keep.capture = [] :=
  ⟨rfl, rfl, rfl, rfl, rfl, rfl, rfl⟩

theorem trackingReset_of (s : State) : (trackingReset s).tq = (trackingForgotten s).tq ∧
    (trackingReset s).rm = { (trackingForgotten s).rm with tracking := .notSynced } ∧
    (trackingReset s).te = (setTracking .notSynced (trackingForgotten s)).te ∧
    (trackingReset s).fp = (setTracking .notSynced (trackingForgotten s)).fp ∧
    (trackingReset s).rc = (trackingForgotten s).rc := by
  have hwindow := abandonWindow_only (setTracking .notSynced (trackingForgotten s))
  have htracking := setTracking_only .notSynced (trackingForgotten s)
  rw [trackingReset_eq]
  refine ⟨(hwindow.keep .tq (by decide)).trans (htracking.keep .tq (by decide)), ?_, hwindow.keep .te (by decide),
    hwindow.keep .fp (by decide), ?_⟩
  · rw [hwindow.keep .rm (by decide), setTracking_rm]
  · rw [hwindow.keep .rc (by decide), setTracking_rc, if_neg fun hall => nomatch hall.2.1]

theorem trackingReset_fe_eq (s : State) : (trackingReset s).fe = if s.fe.mode = .settle ∨ s.fe.mode = .window then
    { s.fe with window := none, buffer := [], mode := .occupied, beltClear := 0 } else s.fe := by
  have hfe : (setTracking .notSynced (trackingForgotten s)).fe = s.fe :=
    ((setTracking_only _ _).keep .fe (by decide)).trans ((trackingForgotten_only s).keep .fe (by decide))
  rw [trackingReset_eq, abandonWindow_fe, hfe]

theorem statisticsReset_eq (s : State) : (statisticsReset s).tq = { s.tq with counters := {} } ∧
    (statisticsReset s).rm = { s.rm with counters := {} } ∧
    (statisticsReset s).jr = { s.jr with classes := Vector.replicate 12 0, rejectTotal := 0 } ∧
    (statisticsReset s).te = { s.te with valves := (statisticsReset s).te.valves } :=
  ⟨rfl, rfl, rfl, rfl⟩

theorem statisticsReset_valve (s : State) (v : Fin Config.valves) :
    (statisticsReset s).te.valves[v] = s.te.valves[v].clearStatistics := by
  unfold statisticsReset
  rw [State.mapValves_get]

/-- The state of a LOAD reset before the held stations are released (R193). -/
theorem loadReset_eq (s : State) : (loadReset s).fp = (abortLoad s).fp.released ∧
    (loadReset s).ma = { (abortLoad s).ma with fifo := [] } :=
  ⟨FramePath.releaseHeld_eq _, rfl⟩

theorem abortLoad_of_none {s : State} (h : s.ma.load = none) : abortLoad s = s := by
  unfold abortLoad
  rw [h]
  rfl

theorem abortLoad_of_some {s : State} (h : s.ma.load ≠ none) : abortLoad s = endLoad s :=
  if_pos (Option.isSome_iff_ne_none.mpr h)

theorem Mgmt.unloaded_of_idle {m : Mgmt} (hload : m.load = none) (hstaging : m.staging = []) (htimer : m.loadTimer = none) :
    m.unloaded = m := by
  cases m
  cases hload
  cases hstaging
  cases htimer
  rfl

/-- Ring and Capture after a CAPTURE reset (R179, R180). -/
theorem resetCaptureState_rc {s : State} (h : 1 ≤ s.ma.setup.captureThreshold) : (resetCaptureState s).rc = { s.rc with
    ring := [], burst := [], freeze := .notFrozen, cause := none, engine := .idle, slots := Vector.replicate 4 .empty
    order := [], captureReady := false
    counters := if s.rc.engine = .idle then s.rc.counters
      else { s.rc.counters with abandoned := tally s.rc.counters.abandoned 1 } } := by
  have hma : (evalTrimHold (ringEmptied s)).ma = s.ma := by rw [evalTrimHold_ma, ringEmptied_ma]
  have hrc : (evalTrimHold (ringEmptied s)).rc = { s.rc with ring := [], burst := [], freeze := .notFrozen, cause := none } := by
    rw [evalTrimHold_rc, ringEmptied_rc]
  rw [resetCaptureState_eq, capturesGone_ready (by rw [hma]; exact h)]
  generalize evalTrimHold (ringEmptied s) = t at hrc
  unfold capturesGone
  rw [hrc]

theorem capturesGone_te (t : State) : (capturesGone t).te = t.te := rfl

theorem resetCaptureState_te (s : State) : (resetCaptureState s).te = (evalTrimHold (ringEmptied s)).te := by
  rw [resetCaptureState_eq, evalCaptureReady_te, capturesGone_te]

/-- One status frame for the freeze, one for Trim Hold and one for CAPTURE_READY, where they change (R191). -/
theorem resetCaptureState_status {s : State} (h : 1 ≤ s.ma.setup.captureThreshold) :
    s.buildsStatus ([decide (s.rc.freeze ≠ .notFrozen), s.te.trimHold != (resetCaptureState s).te.trimHold,
      s.rc.captureReady].count true) (resetCaptureState s).fp := by
  have hready : (resetCaptureState s).rc.captureReady = false := by rw [resetCaptureState_rc h]
  have hfreeze := buildsStatus_evalTrimHold (ringEmptied_status s) (by rw [ringEmptied_ma])
  have hwas : (evalTrimHold (ringEmptied s)).rc.captureReady = s.rc.captureReady := by rw [evalTrimHold_rc, ringEmptied_rc]
  have hma : (evalTrimHold (ringEmptied s)).ma = s.ma := by rw [evalTrimHold_ma, ringEmptied_ma]
  have hte := resetCaptureState_te s
  rw [ringEmptied_te] at hfreeze
  rw [hte]
  rw [resetCaptureState_eq] at hready ⊢
  generalize evalTrimHold (ringEmptied s) = t at *
  have hlast := buildsStatus_evalCaptureReady (t := capturesGone t) hfreeze (congrArg Mgmt.setup hma)
  rw [hready, show (capturesGone t).rc.captureReady = s.rc.captureReady from hwas] at hlast
  have hcount (a b d : Bool) : [a, b, d].count true = a.toNat + b.toNat + (d != false).toNat := by
    cases a <;> cases b <;> cases d <;> rfl
  rw [hcount]
  exact hlast

/-- The Trim Engine after a CAPTURE reset: Trim Hold as its conditions other than the freeze say (R133). -/
theorem emptied_holdsTrim (s : State) : (ringEmptied s).holdsTrim =
    decide (s.te.mode = .auto ∧ (s.rm.tracking ≠ .synced ∨ s.pu.active = none)) := by
  have hrm : (ringEmptied s).rm = s.rm := report_rm ..
  have hpu : (ringEmptied s).pu = s.pu := report_pu ..
  have hfreeze : (ringEmptied s).rc.freeze = .notFrozen := by rw [ringEmptied_rc]
  unfold State.holdsTrim
  rw [ringEmptied_te, hrm, hpu, hfreeze, Bool.eq_iff_iff]
  simp

/-- The end of Trim Hold under AUTO restarts the collection of AUTO valves (R134). -/
theorem ringEmptied_valve (s : State) (v : Fin Config.valves) : (evalTrimHold (ringEmptied s)).te.valves[v] =
    if s.te.mode = .auto ∧ s.te.trimHold = true ∧ (evalTrimHold (ringEmptied s)).te.trimHold = false ∧
        v.val < s.ma.setup.valveCount ∧ s.te.table[v].mode = .auto then
      { s.te.valves[v] with n := 0, eAvg := 0 }
    else s.te.valves[v] := by
  have hauto : (ringEmptied s).isAuto v = true ↔ v.val < s.ma.setup.valveCount ∧ s.te.table[v].mode = .auto := by
    rw [State.isAuto_iff, ringEmptied_ma, ringEmptied_te]
  have htrim : (evalTrimHold (ringEmptied s)).te.trimHold = (ringEmptied s).holdsTrim := by rw [evalTrimHold_te_eq]
  have hvalve := evalTrimHold_valve_eq (ringEmptied s) v
  rw [ringEmptied_te] at hvalve
  refine hvalve.trans (if_congr ?_ rfl rfl)
  rw [hauto, htrim]
  exact ⟨fun ⟨hstood, hends, hmode, hv⟩ => ⟨hmode, hstood, hends, hv⟩, fun ⟨hmode, hstood, hends, hv⟩ => ⟨hstood, hends, hmode, hv⟩⟩

/-- Settles O57: block by block, with one status frame for each flag that a reset changes. -/
theorem resetScopes : Obligations.ResetScopes := by
  unfold Obligations.ResetScopes
  refine ⟨fun s c h => ?_, fun s c h hring => ?_, fun s c h => ?_, fun s c h hload => ?_, fun s c h hthreshold => ?_⟩
  · have hexec := exec_row_of_body (k := .resetFull) (t := fullReset s) (r := {}) h (Nat.zero_le _) id rfl
    have hfp : (fullReset s).fp = s.fp.keep.released := FramePath.releaseHeld_eq _
    have hexecuting : s.ma.executing = some c := h.1
    refine ⟨fullReset s, hexec, rfl, rfl, rfl, ?_, rfl, rfl, rfl, rfl, rfl, rfl, rfl, ?_, ?_⟩
    · rw [hfp]
      rfl
    · rw [← hexecuting]
      rfl
    · rw [hfp]
      refine ⟨rfl, rfl, rfl, rfl, rfl, rfl, rfl, rfl, BitVec.zero_add _, fun p => ?_⟩
      rw [keep_released_port]
      obtain ⟨hup, hforward, htransmitting, hreject, hprintTag, hstatus, hcapture⟩ := keep_port_plain s.fp p
      refine ⟨hup, hforward, htransmitting, hreject, hprintTag, hstatus, hcapture, rfl, fun refused hrefused => ?_,
        fun station others hheld hup => ?_⟩
      · rw [hrefused]
      · obtain ⟨later, hlater⟩ := keep_releases_first s.fp hheld hup
        refine ⟨((later.filter fun x => x.1 == p).map Prod.snd), ?_⟩
        rw [hlater, List.filter_cons_of_pos (by exact beq_self_eq_true p)]
        rfl
  · have hexec := exec_row_of_body (k := .resetTracking) (t := trackingReset s) (r := {}) h (Nat.zero_le _) id rfl
    obtain ⟨htq, hrm, hte, hfp, hrc⟩ := trackingReset_of s
    have honly := trackingForgotten_only s
    have hstatus := setTracking_notSynced_status (trackingForgotten s) (s := s)
      (by rw [honly.keep .fp (by decide)]; exact s.buildsStatus_zero) (by rw [honly.keep .ma (by decide)])
    have hstate := setTracking_notSynced_te (trackingForgotten s)
    rw [trackingForgotten_rm, honly.keep .te (by decide)] at hstatus hstate
    refine ⟨trackingReset s, hexec, trackingReset_only s, htq.trans (trackingForgotten_tq s), ?_, trackingReset_fe_eq s,
      hte.trans hstate, ?_, hrc.trans (trackingForgotten_rc hring)⟩
    · rw [hrm, trackingForgotten_rm]
    · rw [hfp, hte]
      exact hstatus
  · have hexec := exec_row_of_body (k := .resetStatistics) (t := statisticsReset s) (r := {}) h (Nat.zero_le _) id rfl
    obtain ⟨htq, hrm, hjr, hte⟩ := statisticsReset_eq s
    refine ⟨statisticsReset s, hexec, statisticsReset_only s, htq, hrm, ?_, fun i => ?_, hte, fun v => statisticsReset_valve s v⟩
    · rw [hjr]
    · rw [hjr]
      simp
  · have hexec := exec_row_of_body (k := .resetLoad) (t := loadReset s) (r := {}) h (Nat.zero_le _) id rfl
    obtain ⟨hfp, hma⟩ := loadReset_eq s
    refine ⟨loadReset s, (abortLoad s).fp, hexec, loadReset_only s, hma.trans ?_, ?_, hfp⟩
    · by_cases hnone : s.ma.load = none
      · obtain ⟨htimer, hstaging⟩ := hload
        rw [hnone] at htimer hstaging
        have htimer : s.ma.loadTimer = none := Option.isSome_eq_false_iff.mp htimer |> Option.isNone_iff_eq_none.mp
        rw [abortLoad_of_none hnone]
        exact congrArg (fun m : Mgmt => { m with fifo := [] }) (Mgmt.unloaded_of_idle hnone hstaging htimer).symm
      · rw [abortLoad_of_some hnone, endLoad_ma]
        rfl
    · by_cases hnone : s.ma.load = none
      · rw [abortLoad_of_none hnone, if_pos hnone]
        exact s.buildsStatus_zero
      · rw [abortLoad_of_some hnone, if_neg hnone]
        exact endLoad_status hnone
  · have hexec := exec_row_of_body (k := .resetCapture) (t := resetCaptureState s) (r := {}) h (Nat.zero_le _) id rfl
    have hrc := resetCaptureState_rc hthreshold
    have hte := resetCaptureState_te s
    have htrim : (evalTrimHold (ringEmptied s)).te.trimHold =
        decide (s.te.mode = .auto ∧ (s.rm.tracking ≠ .synced ∨ s.pu.active = none)) := by
      rw [evalTrimHold_te_eq, emptied_holdsTrim]
    refine ⟨resetCaptureState s, hexec, resetCaptureState_only s, congrArg RingCapture.ring hrc, congrArg RingCapture.burst hrc,
      congrArg RingCapture.freeze hrc, congrArg RingCapture.cause hrc, congrArg RingCapture.engine hrc, fun i => ?_,
      congrArg RingCapture.order hrc, congrArg RingCapture.captureReady hrc, (congrArg RingCapture.captureNumber hrc :),
      congrArg RingCapture.counters hrc, ?_, fun v => ?_, resetCaptureState_status hthreshold⟩
    · rw [hrc]
      simp
    · rw [hte, ← htrim, evalTrimHold_te_eq, ringEmptied_te]
    · rw [hte]
      exact ringEmptied_valve s v

end Sys2Proof.Machine
end

section
/-!
PROOFS, the Rewriter: bytes replaced in place, the set-points of a dose frame, and what the entries processed so far leave of the
Rewriter, the valves and the frame (sections 8.1 and 8.2).
-/

namespace Sys2Proof.Machine

/-! ### Bytes replaced in place -/

theorem overwriteAt_eq {b new : List Byte} {i : Nat} (h : i + new.length ≤ b.length) :
    overwriteAt b i new = b.take i ++ (new ++ b.drop (i + new.length)) := by
  rw [overwriteAt, List.append_assoc, List.take_of_length_le]
  simp only [List.length_append, List.length_take, List.length_drop]
  omega

theorem overwriteAt_length {b new : List Byte} {i : Nat} (h : i + new.length ≤ b.length) :
    (overwriteAt b i new).length = b.length := by
  rw [overwriteAt_eq h]
  simp only [List.length_append, List.length_take, List.length_drop]
  omega

theorem byteAt_take {b : List Byte} {n k : Nat} (h : k < n) : byteAt (b.take n) k = byteAt b k := by
  rw [byteAt, byteAt, List.getD_eq_getElem?_getD, List.getD_eq_getElem?_getD, List.getElem?_take_of_lt h]

theorem byteAt_drop (b : List Byte) (n k : Nat) : byteAt (b.drop n) k = byteAt b (n + k) := by
  rw [byteAt, byteAt, List.getD_eq_getElem?_getD, List.getD_eq_getElem?_getD, List.getElem?_drop]

theorem byteAt_overwriteAt_of_outside {b new : List Byte} {i k : Nat} (h : i + new.length ≤ b.length)
    (hk : k < i ∨ i + new.length ≤ k) : byteAt (overwriteAt b i new) k = byteAt b k := by
  have htake : (b.take i).length = i := by
    rw [List.length_take]
    omega
  rw [overwriteAt_eq h]
  rcases hk with hk | hk
  · rw [byteAt_append_left (by omega), byteAt_take hk]
  · rw [byteAt_append_right (by omega), byteAt_append_right (by omega), byteAt_drop]
    congr 1
    omega

theorem bytesAt_overwriteAt {b new : List Byte} {i n : Nat} (h : i + new.length ≤ b.length) (hn : new.length = n) :
    bytesAt (overwriteAt b i new) i n = new := by
  have htake : (b.take i).length = i := by
    rw [List.length_take]
    omega
  rw [overwriteAt_eq h, bytesAt_append_right (by omega), htake, Nat.sub_self, bytesAt_append_left (by omega), bytesAt_all hn]

theorem byteAt_overwriteAt_one {b : List Byte} {i : Nat} (x : Byte) (h : i < b.length) :
    byteAt (overwriteAt b i [x]) i = x := by
  have htake : (b.take i).length = i := by
    rw [List.length_take]
    omega
  rw [overwriteAt_eq (by simpa using h), byteAt_append_right (by omega), htake, Nat.sub_self]
  rfl

/-- A field is that of another list of bytes where their bytes are the same. -/
theorem fieldAt_congr {a b : List Byte} {i n : Nat} (ha : i + n ≤ a.length) (hb : i + n ≤ b.length)
    (h : ∀ k, i ≤ k → k < i + n → byteAt a k = byteAt b k) : fieldAt a i n = fieldAt b i n := by
  have hbytes : bytesAt a i n = bytesAt b i n := by
    refine List.ext_getElem (by simp only [bytesAt, List.length_take, List.length_drop]; omega) fun k hka _ => ?_
    have hk : k < n := by
      simp only [bytesAt, List.length_take] at hka
      omega
    have hsame := h (i + k) (by omega) (by omega)
    rw [byteAt, byteAt, List.getD_eq_getElem _ _ (by omega), List.getD_eq_getElem _ _ (by omega)] at hsame
    simpa only [bytesAt, List.getElem_take, List.getElem_drop] using hsame
  rw [fieldAt, fieldAt, hbytes]

theorem withFcs_length {b : List Byte} (h : 4 ≤ b.length) : (withFcs b).length = b.length := by
  rw [withFcs, List.length_append, List.length_take, fcsOf_length]
  omega

theorem byteAt_withFcs {b : List Byte} {k : Nat} (h : k + 4 < b.length) : byteAt (withFcs b) k = byteAt b k := by
  rw [withFcs, byteAt_append_left (by rw [List.length_take]; omega), byteAt_take (by omega)]

theorem fcsOk_withFcs {b : List Byte} (h : 4 ≤ b.length) : fcsOk (withFcs b) = true := by
  have hbody : (b.take (b.length - 4)).length = b.length - 4 := by
    rw [List.length_take]
    omega
  have hlength : (withFcs b).length - 4 = (b.take (b.length - 4)).length := by
    rw [withFcs_length h, hbody]
  rw [fcsOk, hlength, withFcs_length h]
  unfold withFcs
  rw [List.drop_left, List.take_left, beq_self_eq_true, Bool.and_true, decide_eq_true h]

/-! ### A completed dose frame (R152) -/

theorem completeDose_length {b : Frame} (h : 24 ≤ b.length) : (completeDose b).length = b.length := by
  have hover := overwriteAt_length (b := b) (i := 19) (new := [byteAt b 19 ||| 1]) (by simp only [List.length_singleton]; omega)
  rw [completeDose, withFcs_length (by omega), hover]

theorem byteAt_completeDose {b : Frame} {k : Nat} (h : 24 ≤ b.length) (hk : k + 4 < b.length) (hflags : k ≠ 19) :
    byteAt (completeDose b) k = byteAt b k := by
  have hfits : 19 + [byteAt b 19 ||| 1].length ≤ b.length := by
    simp only [List.length_singleton]
    omega
  rw [completeDose, byteAt_withFcs (by rw [overwriteAt_length hfits]; exact hk),
    byteAt_overwriteAt_of_outside hfits (by simp only [List.length_singleton]; omega)]

theorem completeDose_flags {b : Frame} (h : 24 ≤ b.length) : byteAt (completeDose b) 19 = byteAt b 19 ||| 1 := by
  have hfits : 19 + [byteAt b 19 ||| 1].length ≤ b.length := by
    simp only [List.length_singleton]
    omega
  rw [completeDose, byteAt_withFcs (by rw [overwriteAt_length hfits]; omega), byteAt_overwriteAt_one _ (by omega)]

theorem completeDose_fcs {b : Frame} (h : 24 ≤ b.length) : fcsOk (completeDose b) = true := by
  have hover := overwriteAt_length (b := b) (i := 19) (new := [byteAt b 19 ||| 1]) (by simp only [List.length_singleton]; omega)
  exact fcsOk_withFcs (by omega)

/-! ### The dose written for a valve (R151) -/

theorem doseOut_eq {p : Product} (h : p.doseMin ≤ p.doseMax) (base : Nat) (trim : Int) :
    (doseOut p base trim : Int) = max (p.doseMin : Int) (min ((base : Int) + trim) p.doseMax) := by
  unfold doseOut
  dsimp only
  split
  · omega
  · split <;> omega

theorem doseOut_le {p : Product} (h : p.doseMin ≤ p.doseMax) (base : Nat) (trim : Int) : doseOut p base trim ≤ p.doseMax := by
  have := doseOut_eq h base trim
  omega

/-- The first `n` entries of a dose frame from valve `first` on write the set-point of valve `v` (R151). -/
def State.doses (s : State) (first n : Nat) (v : Fin Config.valves) : Bool :=
  decide (first ≤ v.val ∧ v.val < first + n ∧ v.val < s.ma.setup.valveCount ∧ s.te.valves[v].state ≠ .excluded)

theorem State.doses_iff {s : State} {first n : Nat} {v : Fin Config.valves} : s.doses first n v = true ↔
    first ≤ v.val ∧ v.val < first + n ∧ v.val < s.ma.setup.valveCount ∧ s.te.valves[v].state ≠ .excluded :=
  decide_eq_true_iff

theorem State.writtenValve_eq_some_iff {s : State} {k : Nat} {v : Fin Config.valves} : s.writtenValve k = some v ↔
    k = v.val ∧ v.val < s.ma.setup.valveCount ∧ s.te.valves[v].state ≠ .excluded := by
  unfold State.writtenValve State.valveInRange
  constructor
  · intro h
    split at h
    case h_1 => cases h
    case h_2 w hw =>
      split at hw
      · split at hw
        · obtain rfl := Option.some.inj hw
          split at h
          · cases h
          · obtain rfl := Option.some.inj h
            exact ⟨rfl, ‹_›, ‹_›⟩
        · cases hw
      · cases hw
  · rintro ⟨rfl, hcount, hexcluded⟩
    simp only [dif_pos v.isLt, if_pos hcount, Fin.eta, if_neg hexcluded]

theorem State.writtenValve_eq_none_iff {s : State} {k : Nat} : s.writtenValve k = none ↔
    ∀ v : Fin Config.valves, k = v.val → s.ma.setup.valveCount ≤ v.val ∨ s.te.valves[v].state = .excluded := by
  rw [Option.eq_none_iff_forall_ne_some]
  refine forall_congr' fun v => ?_
  rw [Ne, State.writtenValve_eq_some_iff]
  constructor
  · intro h hk
    by_cases hcount : v.val < s.ma.setup.valveCount
    · exact .inr (Classical.byContradiction fun hne => h ⟨hk, hcount, hne⟩)
    · exact .inl (not_lt.mp hcount)
  · rintro h ⟨hk, hcount, hne⟩
    exact (h hk).elim (not_le.mpr hcount) hne

theorem State.doses_succ_of_none {s : State} {first n : Nat} (h : s.writtenValve (first + n) = none) (v : Fin Config.valves) :
    s.doses first (n + 1) v = s.doses first n v := by
  rw [Bool.eq_iff_iff, State.doses_iff, State.doses_iff]
  have hv := State.writtenValve_eq_none_iff.mp h v
  constructor
  · rintro ⟨hlow, hhigh, hcount, hne⟩
    exact ⟨hlow, Nat.lt_of_le_of_ne (by omega) fun heq => (hv heq.symm).elim (not_le.mpr hcount) hne, hcount, hne⟩
  · rintro ⟨hlow, hhigh, hcount, hne⟩
    exact ⟨hlow, by omega, hcount, hne⟩

theorem State.doses_succ_of_some {s : State} {first n : Nat} {w : Fin Config.valves} (h : s.writtenValve (first + n) = some w) :
    s.doses first (n + 1) w = true ∧ s.doses first n w = false ∧
      ∀ v : Fin Config.valves, v ≠ w → s.doses first (n + 1) v = s.doses first n v := by
  obtain ⟨hw, hcount, hne⟩ := State.writtenValve_eq_some_iff.mp h
  refine ⟨State.doses_iff.mpr ⟨by omega, by omega, hcount, hne⟩, ?_, fun v hv => ?_⟩
  · rw [← Bool.not_eq_true, State.doses_iff]
    omega
  · have hval : v.val ≠ w.val := fun heq => hv (Fin.ext heq)
    rw [Bool.eq_iff_iff, State.doses_iff, State.doses_iff]
    exact ⟨fun ⟨hlow, hhigh, hrest⟩ => ⟨hlow, by omega, hrest⟩, fun ⟨hlow, hhigh, hrest⟩ => ⟨hlow, by omega, hrest⟩⟩

/-- The base of valve `v` in a dose frame whose first entry is that of valve `first` (Table 12-3). -/
def doseBase (frame : Frame) (first : Nat) (v : Fin Config.valves) : Nat :=
  fieldAt frame (24 + 2 * (v.val - first)) 2

/-- The set-point that a dose frame gives valve `v` (R151). -/
def State.dose (s : State) (p : Product) (first : Nat) (frame : Frame) (v : Fin Config.valves) : Nat :=
  doseOut p (doseBase frame first v) s.te.valves[v].trim

/-- The set-point that a dose frame gives valve `v` is a new one (R153). -/
def State.doseIsNew (s : State) (p : Product) (first : Nat) (frame : Frame) (v : Fin Config.valves) : Bool :=
  decide (s.rw.expected[v] ≠ some (BitVec.ofNat 16 (s.dose p first frame v)))

/-- The sum of valve `v` was held at a dose limit (R151 step 3). -/
def State.doseIsClamped (s : State) (p : Product) (first : Nat) (frame : Frame) (v : Fin Config.valves) : Bool :=
  doseClamped p (doseBase frame first v) s.te.valves[v].trim

/-- The record of a valve whose set-point changed (R138). -/
def State.resettled (s : State) (v : Fin Config.valves) : ValveRecord :=
  if s.isAuto v && s.te.valves[v].follows then { s.te.valves[v].restart with state := .settling } else s.te.valves[v]

/-! ### Counting over the valves -/

theorem countP_of_one_more {α : Type} {p q : α → Bool} {l : List α} (a : α) (hl : l.Nodup) (ha : a ∈ l) (hp : p a = false)
    (hsame : ∀ b, b ≠ a → q b = p b) : l.countP q = l.countP p + (q a).toNat := by
  induction l with
  | nil => cases ha
  | cons b rest ih =>
    obtain ⟨hfresh, hrest⟩ := List.nodup_cons.mp hl
    by_cases hb : b = a
    · subst hb
      have htail : rest.countP q = rest.countP p :=
        List.countP_congr fun c hc => by rw [hsame c fun heq => hfresh (heq ▸ hc)]
      rw [List.countP_cons, List.countP_cons, htail, hp]
      cases q b <;> rfl
    · rw [List.countP_cons, List.countP_cons, hsame b hb, ih hrest ((List.mem_cons.mp ha).resolve_left (Ne.symm hb))]
      omega

/-- How many of the valves written by the first `n` entries satisfy `f`. -/
def State.countDosed (s : State) (first n : Nat) (f : Fin Config.valves → Bool) : Nat :=
  ((List.finRange Config.valves).filter (s.doses first n)).countP f

theorem State.countDosed_zero (s : State) (first : Nat) (f : Fin Config.valves → Bool) : s.countDosed first 0 f = 0 := by
  unfold State.countDosed
  rw [List.filter_eq_nil_iff.mpr fun v _ => ?_, List.countP_nil]
  rw [State.doses_iff]
  omega

theorem State.countDosed_succ_of_none {s : State} {first n : Nat} (f : Fin Config.valves → Bool)
    (h : s.writtenValve (first + n) = none) : s.countDosed first (n + 1) f = s.countDosed first n f := by
  rw [State.countDosed, State.countDosed, funext (State.doses_succ_of_none h)]

theorem State.countDosed_succ_of_some {s : State} {first n : Nat} {w : Fin Config.valves} (f : Fin Config.valves → Bool)
    (h : s.writtenValve (first + n) = some w) :
    s.countDosed first (n + 1) f = s.countDosed first n f + (f w).toNat := by
  obtain ⟨hnow, hbefore, hsame⟩ := State.doses_succ_of_some h
  unfold State.countDosed
  rw [List.countP_filter, List.countP_filter,
    countP_of_one_more (p := fun v => f v && s.doses first n v) w (List.nodup_finRange _) (List.mem_finRange w)
      (by rw [hbefore, Bool.and_false]) fun v hv => by rw [hsame v hv], hnow, Bool.and_true]

/-! ### One entry (R151, R153, R138) -/

theorem setPointChanged_eq (v : Fin Config.valves) (s : State) :
    setPointChanged v s = s.setValve v (s.resettled v) := by
  unfold setPointChanged State.resettled
  dsimp only
  split
  · rfl
  · unfold State.setValve
    rw [show s.te.valves.set v.val s.te.valves[v] v.isLt = s.te.valves from Vector.set_getElem_self _]

theorem noteWritten_of_old {v : Fin Config.valves} {out : Word16} {s : State} (h : s.rw.expected[v] = some out) :
    noteWritten v out s = s := by
  rw [noteWritten, if_pos h]

theorem noteWritten_of_new {v : Fin Config.valves} {out : Word16} {s : State} (h : s.rw.expected[v] ≠ some out) :
    noteWritten v out s = (s.withRw {
      expected := s.rw.expected.set v.val (some out) v.isLt
      epoch := s.rw.epoch.set v.val (s.rw.epoch[v] + 1) v.isLt
      counters := { s.rw.counters with changes := tally s.rw.counters.changes 1 } }).setValve v (s.resettled v) := by
  rw [noteWritten, if_neg h, setPointChanged_eq]
  rfl

theorem fin_set_get {α : Type} {n : Nat} (l : Vector α n) (v w : Fin n) (a : α) :
    (l.set v.val a v.isLt)[w] = if w = v then a else l[w] := by
  rw [Fin.getElem_fin, Vector.getElem_set]
  by_cases h : w = v
  · rw [if_pos h, if_pos (congrArg Fin.val h.symm)]
  · rw [if_neg h, if_neg fun heq => h (Fin.ext heq.symm)]
    rfl

section Noted

variable (v : Fin Config.valves) (out : Word16) (s : State)

theorem noteWritten_table : (noteWritten v out s).te.table = s.te.table := by
  by_cases h : s.rw.expected[v] = some out
  · rw [noteWritten_of_old h]
  · rw [noteWritten_of_new h]
    rfl

theorem noteWritten_expected (w : Fin Config.valves) :
    (noteWritten v out s).rw.expected[w] = if w = v then some out else s.rw.expected[w] := by
  by_cases h : s.rw.expected[v] = some out
  · rw [noteWritten_of_old h]
    split
    · subst w
      exact h
    · rfl
  · rw [noteWritten_of_new h]
    exact fin_set_get ..

theorem noteWritten_epoch (w : Fin Config.valves) : (noteWritten v out s).rw.epoch[w] =
    if w = v ∧ s.rw.expected[v] ≠ some out then s.rw.epoch[v] + 1 else s.rw.epoch[w] := by
  by_cases h : s.rw.expected[v] = some out
  · rw [noteWritten_of_old h, if_neg fun hw => hw.2 h]
  · rw [noteWritten_of_new h]
    simp only [h, ne_eq, not_false_eq_true, and_true]
    exact fin_set_get ..

theorem noteWritten_valves (w : Fin Config.valves) : (noteWritten v out s).te.valves[w] =
    if w = v ∧ s.rw.expected[v] ≠ some out then s.resettled v else s.te.valves[w] := by
  by_cases h : s.rw.expected[v] = some out
  · rw [noteWritten_of_old h, if_neg fun hw => hw.2 h]
  · rw [noteWritten_of_new h]
    simp only [h, ne_eq, not_false_eq_true, and_true]
    exact fin_set_get ..

theorem noteWritten_counters : (noteWritten v out s).rw.counters =
    { s.rw.counters with
      changes := tally s.rw.counters.changes (decide (s.rw.expected[v] ≠ some out)).toNat } := by
  by_cases h : s.rw.expected[v] = some out
  · rw [noteWritten_of_old h, decide_eq_false fun hne => hne h]
    simp only [Bool.toNat_false, tally_zero]
  · rw [noteWritten_of_new h, decide_eq_true h]
    rfl

variable (clamped : Bool)

theorem countClamp_te : (countClamp clamped s).te = s.te :=
  (countClamp_only clamped s) .te (by decide)

theorem countClamp_ma : (countClamp clamped s).ma = s.ma :=
  (countClamp_only clamped s) .ma (by decide)

theorem countClamp_rw : (countClamp clamped s).rw =
    { s.rw with counters := { s.rw.counters with clamps := tally s.rw.counters.clamps clamped.toNat } } := by
  cases clamped
  · simp only [Bool.toNat_false, tally_zero]
    rfl
  · rfl

end Noted

/-! ### The entries of a dose frame in turn -/

/-- What the first `n` entries of a dose frame leave: the state, the frame and whether an entry was written (R151). -/
structure State.Dosed (s : State) (p : Product) (first : Nat) (frame : Frame) (n : Nat) (r : Rewrite) : Prop where
  only : OnlyChanges doseBlocks s r.state
  table : r.state.te.table = s.te.table
  valves : ∀ v : Fin Config.valves, r.state.te.valves[v] =
    if s.doses first n v && s.doseIsNew p first frame v then s.resettled v else s.te.valves[v]
  expected : ∀ v : Fin Config.valves, r.state.rw.expected[v] =
    if s.doses first n v then some (BitVec.ofNat 16 (s.dose p first frame v)) else s.rw.expected[v]
  epoch : ∀ v : Fin Config.valves, r.state.rw.epoch[v] =
    if s.doses first n v && s.doseIsNew p first frame v then s.rw.epoch[v] + 1 else s.rw.epoch[v]
  counters : r.state.rw.counters = { s.rw.counters with
    changes := tally s.rw.counters.changes (s.countDosed first n (s.doseIsNew p first frame))
    clamps := tally s.rw.counters.clamps (s.countDosed first n (s.doseIsClamped p first frame)) }
  written : r.written = true ↔ ∃ v, s.doses first n v = true
  length : r.frame.length = frame.length
  bytes : ∀ k, k < 24 ∨ 24 + 2 * n ≤ k → byteAt r.frame k = byteAt frame k
  entries : ∀ j, j < n → fieldAt r.frame (24 + 2 * j) 2 =
    (s.writtenValve (first + j)).elim (fieldAt frame (24 + 2 * j) 2) (s.dose p first frame)

theorem State.dosed_zero (s : State) (p : Product) (first : Nat) (frame : Frame) :
    s.Dosed p first frame 0 { state := s, frame := frame, written := false } := by
  have hnone (v : Fin Config.valves) : s.doses first 0 v = false := by
    rw [← Bool.not_eq_true, State.doses_iff]
    omega
  constructor
  case only => exact OnlyChanges.refl _ s
  case table | length => rfl
  case valves | expected | epoch =>
    intro v
    rw [hnone]
    rfl
  case counters =>
    rw [State.countDosed_zero, State.countDosed_zero, tally_zero, tally_zero]
  case written =>
    refine ⟨nofun, fun ⟨v, hv⟩ => ?_⟩
    rw [hnone] at hv
    cases hv
  case bytes => exact fun _ _ => rfl
  case entries => exact fun j hj => absurd hj (Nat.not_lt_zero j)

section Entry

variable {s : State} {p : Product} {first n : Nat} {frame : Frame} {r : Rewrite}

theorem State.Dosed.writtenValve_eq (h : s.Dosed p first frame n r) :
    r.state.writtenValve (first + n) = s.writtenValve (first + n) := by
  have hma : r.state.ma = s.ma := h.only .ma (by decide)
  refine Option.ext fun v => ?_
  rw [State.writtenValve_eq_some_iff, State.writtenValve_eq_some_iff, hma]
  refine and_congr_right fun hv => ?_
  have hfresh : s.doses first n v = false := by
    rw [← Bool.not_eq_true, State.doses_iff]
    omega
  rw [h.valves, hfresh, Bool.false_and, if_neg Bool.false_ne_true]

theorem State.Dosed.skip (h : s.Dosed p first frame n r) (hskip : s.writtenValve (first + n) = none)
    (hfits : 28 + 2 * n ≤ frame.length) : s.Dosed p first frame (n + 1) r := by
  have hdoses := State.doses_succ_of_none hskip
  constructor
  case only => exact h.only
  case table => exact h.table
  case length => exact h.length
  case valves => simpa only [hdoses] using h.valves
  case expected => simpa only [hdoses] using h.expected
  case epoch => simpa only [hdoses] using h.epoch
  case counters =>
    rw [State.countDosed_succ_of_none _ hskip, State.countDosed_succ_of_none _ hskip]
    exact h.counters
  case written => simpa only [hdoses] using h.written
  case bytes => exact fun k hk => h.bytes k (by omega)
  case entries =>
    intro j hj
    rcases Nat.lt_succ_iff_lt_or_eq.mp hj with hj | rfl
    · exact h.entries j hj
    · rw [hskip]
      exact fieldAt_congr (by rw [h.length]; omega) (by omega) fun k hlow hhigh => h.bytes k (by omega)

theorem State.Dosed.write {w : Fin Config.valves} (h : s.Dosed p first frame n r)
    (hwrite : s.writtenValve (first + n) = some w) (hfits : 28 + 2 * n ≤ frame.length) (hlimits : p.doseMin ≤ p.doseMax)
    (hmax : p.doseMax ≤ 65535) :
    s.Dosed p first frame (n + 1) {
      state := noteWritten w (BitVec.ofNat 16 (s.dose p first frame w))
        (countClamp (s.doseIsClamped p first frame w) r.state)
      frame := overwriteAt r.frame (24 + 2 * n) (beBytes 2 (s.dose p first frame w))
      written := true } := by
  obtain ⟨hnow, hbefore, hsame⟩ := State.doses_succ_of_some hwrite
  have hma : r.state.ma = s.ma := h.only .ma (by decide)
  have hdose : s.dose p first frame w ≤ 65535 := (doseOut_le hlimits _ _).trans hmax
  have hold : r.state.te.valves[w] = s.te.valves[w] := by
    rw [h.valves, hbefore, Bool.false_and, if_neg Bool.false_ne_true]
  have hexpected : r.state.rw.expected[w] = s.rw.expected[w] := by
    rw [h.expected, hbefore, if_neg Bool.false_ne_true]
  have hepoch : r.state.rw.epoch[w] = s.rw.epoch[w] := by
    rw [h.epoch, hbefore, Bool.false_and, if_neg Bool.false_ne_true]
  have hresettled : (countClamp (s.doseIsClamped p first frame w) r.state).resettled w = s.resettled w := by
    unfold State.resettled State.isAuto
    rw [countClamp_te, countClamp_ma, hold, h.table, hma]
  have hnew : (r.state.rw.expected[w] ≠ some (BitVec.ofNat 16 (s.dose p first frame w))) ↔
      s.doseIsNew p first frame w = true := by
    rw [hexpected]
    exact decide_eq_true_iff.symm
  have hroom : 24 + 2 * n + (beBytes 2 (s.dose p first frame w)).length ≤ r.frame.length := by
    rw [beBytes_length, h.length]
    omega
  constructor
  case only =>
    exact (h.only.trans ((countClamp_only _ _).mono (by decide))).trans (noteWritten_only _ _ _)
  case table => rw [noteWritten_table, countClamp_te, h.table]
  case valves =>
    intro v
    rw [noteWritten_valves, countClamp_rw, hresettled, countClamp_te]
    by_cases hv : v = w
    · subst hv
      rw [hnow, Bool.true_and, hold]
      simp only [true_and, hnew]
    · rw [if_neg fun hw => hv hw.1, hsame v hv, h.valves]
  case expected =>
    intro v
    rw [noteWritten_expected, countClamp_rw]
    by_cases hv : v = w
    · subst hv
      rw [if_pos rfl, if_pos hnow]
    · rw [if_neg hv, hsame v hv, h.expected]
  case epoch =>
    intro v
    rw [noteWritten_epoch, countClamp_rw]
    by_cases hv : v = w
    · subst hv
      rw [hnow, Bool.true_and, hepoch]
      simp only [true_and, hnew]
    · rw [if_neg fun hw => hv hw.1, hsame v hv, h.epoch]
  case counters =>
    have hbit : decide (r.state.rw.expected[w] ≠ some (BitVec.ofNat 16 (s.dose p first frame w))) =
        s.doseIsNew p first frame w := by
      rw [hexpected]
      rfl
    rw [noteWritten_counters, countClamp_rw]
    dsimp only
    rw [hbit, h.counters, State.countDosed_succ_of_some _ hwrite, State.countDosed_succ_of_some _ hwrite, tally_tally, tally_tally]
  case written => exact ⟨fun _ => ⟨w, hnow⟩, fun _ => rfl⟩
  case length => rw [overwriteAt_length hroom, h.length]
  case bytes =>
    intro k hk
    rw [byteAt_overwriteAt_of_outside hroom (by rw [beBytes_length]; omega), h.bytes k (by omega)]
  case entries =>
    intro j hj
    rcases Nat.lt_succ_iff_lt_or_eq.mp hj with hj | rfl
    · rw [← h.entries j hj]
      refine fieldAt_congr (by rw [overwriteAt_length hroom, h.length]; omega) (by rw [h.length]; omega) fun k _ hhigh => ?_
      exact byteAt_overwriteAt_of_outside hroom (by omega)
    · rw [hwrite, fieldAt, bytesAt_overwriteAt hroom (beBytes_length ..), readBytes_beBytes_of_lt (by omega)]
      rfl

/-- One entry carries the entries before it one further (R151). -/
theorem State.Dosed.entry (h : s.Dosed p first frame n r) (hfits : 28 + 2 * n ≤ frame.length)
    (hlimits : p.doseMin ≤ p.doseMax) (hmax : p.doseMax ≤ 65535) :
    s.Dosed p first frame (n + 1) (rewriteEntry p first r n) := by
  unfold rewriteEntry
  rw [h.writtenValve_eq]
  cases hw : s.writtenValve (first + n) with
  | none => exact h.skip hw hfits
  | some w =>
    obtain ⟨hval, -, -⟩ := State.writtenValve_eq_some_iff.mp hw
    obtain ⟨-, hbefore, -⟩ := State.doses_succ_of_some hw
    have hold : r.state.te.valves[w] = s.te.valves[w] := by
      rw [h.valves, hbefore, Bool.false_and, if_neg Bool.false_ne_true]
    have hoffset : 24 + 2 * (w.val - first) = doseOffset n := by
      unfold doseOffset
      omega
    have hbase : fieldAt r.frame (doseOffset n) 2 = doseBase frame first w := by
      rw [doseBase, hoffset]
      unfold doseOffset
      exact fieldAt_congr (by rw [h.length]; omega) (by omega) fun k hlow _ => h.bytes k (by omega)
    dsimp only
    rw [hold, hbase]
    exact h.write hw hfits hlimits hmax

theorem State.dosed_range (hlimits : p.doseMin ≤ p.doseMax) (hmax : p.doseMax ≤ 65535) (hfits : 26 + 2 * n ≤ frame.length) :
    s.Dosed p first frame n ((List.range n).foldl (rewriteEntry p first) { state := s, frame := frame, written := false }) := by
  induction n with
  | zero => exact s.dosed_zero p first frame
  | succ n ih =>
    rw [List.range_succ, List.foldl_append]
    exact (ih (by omega)).entry (by omega) hlimits hmax

/-- Entries that write no valve leave all as it is. -/
theorem rewriteFold_of_none (h : ∀ j, j < n → s.writtenValve (first + j) = none) :
    (List.range n).foldl (rewriteEntry p first) { state := s, frame := frame, written := false } =
      { state := s, frame := frame, written := false } := by
  induction n with
  | zero => rfl
  | succ n ih =>
    rw [List.range_succ, List.foldl_append, ih fun j hj => h j (by omega)]
    change rewriteEntry p first _ n = _
    unfold rewriteEntry
    rw [h n (Nat.lt_succ_self n)]

end Entry

/-! ### The frame completed (R152) -/

/-- A processed frame completed when one of its entries was written, and counted (R152, R157). -/
def Rewrite.finished (r : Rewrite) : State × Frame :=
  if r.written then (countRewritten r.state, completeDose r.frame) else (r.state, r.frame)

theorem rewriteEntries_eq_finished (p : Product) (payload : List Byte) (frame : Frame) (s : State) :
    rewriteEntries p payload frame s = ((List.range (byteAt payload 1).toNat).foldl (rewriteEntry p (byteAt payload 0).toNat)
      { state := s, frame := frame, written := false }).finished :=
  rfl

section Finished

variable {r : Rewrite}

theorem Rewrite.finished_of_written (h : r.written = true) :
    r.finished = (countRewritten r.state, completeDose r.frame) := by
  rw [Rewrite.finished, if_pos h]

theorem Rewrite.finished_of_not_written (h : r.written = false) : r.finished = (r.state, r.frame) := by
  rw [Rewrite.finished, h, if_neg Bool.false_ne_true]

theorem Rewrite.finished_te : r.finished.1.te = r.state.te := by
  unfold Rewrite.finished
  split <;> rfl

theorem Rewrite.finished_expected : r.finished.1.rw.expected = r.state.rw.expected := by
  unfold Rewrite.finished
  split <;> rfl

theorem Rewrite.finished_epoch : r.finished.1.rw.epoch = r.state.rw.epoch := by
  unfold Rewrite.finished
  split <;> rfl

theorem Rewrite.finished_changes : r.finished.1.rw.counters.changes = r.state.rw.counters.changes := by
  unfold Rewrite.finished
  split <;> rfl

theorem Rewrite.finished_clamps : r.finished.1.rw.counters.clamps = r.state.rw.counters.clamps := by
  unfold Rewrite.finished
  split <;> rfl

theorem Rewrite.finished_length (h : 24 ≤ r.frame.length) : r.finished.2.length = r.frame.length := by
  unfold Rewrite.finished
  split
  · exact completeDose_length h
  · rfl

theorem Rewrite.finished_byteAt (h : 24 ≤ r.frame.length) {k : Nat} (hk : k + 4 < r.frame.length) (hflags : k ≠ 19) :
    byteAt r.finished.2 k = byteAt r.frame k := by
  unfold Rewrite.finished
  split
  · exact byteAt_completeDose h hk hflags
  · rfl

theorem Rewrite.finished_fieldAt {k : Nat} (hlow : 24 ≤ k) (hhigh : k + 6 ≤ r.frame.length) :
    fieldAt r.finished.2 k 2 = fieldAt r.frame k 2 :=
  fieldAt_congr (by rw [Rewrite.finished_length (by omega)]; omega) (by omega) fun i hi hi' =>
    Rewrite.finished_byteAt (by omega) (by omega) (by omega)

end Finished

end Sys2Proof.Machine
end

section
/-!
PROOFS, dose frames: what a dose frame under HOLD or AUTO with a product active leaves of the frame, the Rewriter and the valves
(sections 8.1 and 8.2).
-/

namespace Sys2Proof.Machine

section Outcome

variable {s : State} {pr : Product} {first count : Nat} {frame : Frame} {r : Rewrite}

theorem State.doses_eq_false {v : Fin Config.valves} (h : v.val < first ∨ first + count ≤ v.val ∨
    s.ma.setup.valveCount ≤ v.val ∨ s.te.valves[v].state = .excluded) : s.doses first count v = false := by
  rw [← Bool.not_eq_true, State.doses_iff]
  rintro ⟨hlow, hhigh, hcount, hne⟩
  rcases h with h | h | h | h
  · omega
  · omega
  · omega
  · exact hne h

theorem State.resettled_of_below {v : Fin Config.valves} (h : v.val < s.ma.setup.valveCount) : s.resettled v =
    if s.te.table[v].mode = .auto ∧ (s.te.valves[v].state = .settling ∨ s.te.valves[v].state = .collecting) then
      { s.te.valves[v] with state := .settling, n := 0, eAvg := 0 }
    else s.te.valves[v] := by
  unfold State.resettled State.isAuto ValveRecord.follows
  simp only [decide_eq_true h, Bool.true_and, Bool.and_eq_true, Bool.or_eq_true, beq_iff_eq]
  rfl

theorem State.Dosed.written_valve (h : s.Dosed pr first frame count r) (hlimits : pr.doseMin ≤ pr.doseMax)
    (hfits : 28 + 2 * count ≤ frame.length) {j : Nat} {v : Fin Config.valves} (hj : j < count) (hv : first + j = v.val)
    (hcount : v.val < s.ma.setup.valveCount) (hne : s.te.valves[v].state ≠ .excluded) :
    (fieldAt r.finished.2 (24 + 2 * j) 2 : Int) =
      max (pr.doseMin : Int) (min ((fieldAt frame (24 + 2 * j) 2 : Int) + s.te.valves[v].trim) pr.doseMax) ∧
    r.finished.1.rw.expected[v] = some (BitVec.ofNat 16 (fieldAt r.finished.2 (24 + 2 * j) 2)) ∧
    (s.rw.expected[v] = r.finished.1.rw.expected[v] →
      r.finished.1.rw.epoch[v] = s.rw.epoch[v] ∧ r.finished.1.te.valves[v] = s.te.valves[v]) ∧
    (s.rw.expected[v] ≠ r.finished.1.rw.expected[v] → r.finished.1.rw.epoch[v] = s.rw.epoch[v] + 1 ∧
      r.finished.1.te.valves[v] =
        if s.te.table[v].mode = .auto ∧ (s.te.valves[v].state = .settling ∨ s.te.valves[v].state = .collecting) then
          { s.te.valves[v] with state := .settling, n := 0, eAvg := 0 }
        else s.te.valves[v]) := by
  have hdoses : s.doses first count v = true := State.doses_iff.mpr ⟨by omega, by omega, hcount, hne⟩
  have hbase : doseBase frame first v = fieldAt frame (24 + 2 * j) 2 := by
    rw [doseBase, ← hv, Nat.add_sub_cancel_left]
  have hfield : fieldAt r.finished.2 (24 + 2 * j) 2 = s.dose pr first frame v := by
    rw [Rewrite.finished_fieldAt (by omega) (by rw [h.length]; omega), h.entries j hj,
      State.writtenValve_eq_some_iff.mpr ⟨hv, hcount, hne⟩]
    rfl
  have hexpected : r.finished.1.rw.expected[v] = some (BitVec.ofNat 16 (s.dose pr first frame v)) := by
    rw [Rewrite.finished_expected, h.expected, if_pos hdoses]
  rw [hfield, hexpected, Rewrite.finished_epoch, Rewrite.finished_te, h.epoch, h.valves, hdoses, Bool.true_and,
    ← State.resettled_of_below hcount]
  refine ⟨by rw [State.dose, doseOut_eq hlimits, hbase], rfl, fun hsame => ?_, fun hnew => ?_⟩
  · have hold : ¬ s.doseIsNew pr first frame v = true := fun hnew => of_decide_eq_true hnew hsame
    rw [if_neg hold, if_neg hold]
    exact ⟨rfl, rfl⟩
  · have hisNew : s.doseIsNew pr first frame v = true := decide_eq_true hnew
    rw [if_pos hisNew, if_pos hisNew]
    exact ⟨rfl, rfl⟩

theorem State.Dosed.other_entry (h : s.Dosed pr first frame count r) (hfits : 28 + 2 * count ≤ frame.length) {j : Nat}
    (hj : j < count) (hnone : ∀ v : Fin Config.valves, first + j = v.val →
      s.ma.setup.valveCount ≤ v.val ∨ s.te.valves[v].state = .excluded) :
    fieldAt r.finished.2 (24 + 2 * j) 2 = fieldAt frame (24 + 2 * j) 2 := by
  rw [Rewrite.finished_fieldAt (by omega) (by rw [h.length]; omega), h.entries j hj, State.writtenValve_eq_none_iff.mpr hnone]
  rfl

theorem State.Dosed.other_valve (h : s.Dosed pr first frame count r) {v : Fin Config.valves} (hother : v.val < first ∨
      first + count ≤ v.val ∨ s.ma.setup.valveCount ≤ v.val ∨ s.te.valves[v].state = .excluded) :
    r.finished.1.rw.expected[v] = s.rw.expected[v] ∧ r.finished.1.rw.epoch[v] = s.rw.epoch[v] ∧
      r.finished.1.te.valves[v] = s.te.valves[v] := by
  have hnot := State.doses_eq_false hother
  rw [Rewrite.finished_expected, Rewrite.finished_epoch, Rewrite.finished_te, h.expected, h.epoch, h.valves, hnot,
    Bool.false_and, if_neg Bool.false_ne_true, if_neg Bool.false_ne_true, if_neg Bool.false_ne_true]
  exact ⟨rfl, rfl, rfl⟩

theorem State.Dosed.completed (h : s.Dosed pr first frame count r) (hfits : 28 + 2 * count ≤ frame.length)
    (hsome : ∃ v, s.doses first count v = true) : byteAt r.finished.2 19 = byteAt frame 19 ||| 1 ∧ fcsOk r.finished.2 = true ∧
      r.finished.1.rw.counters.framesRewritten = tally s.rw.counters.framesRewritten 1 := by
  have hlong : 24 ≤ r.frame.length := by
    rw [h.length]
    omega
  rw [Rewrite.finished_of_written (h.written.mpr hsome)]
  refine ⟨by rw [completeDose_flags hlong, h.bytes 19 (.inl (by decide))], completeDose_fcs hlong, ?_⟩
  change tally r.state.rw.counters.framesRewritten 1 = _
  rw [h.counters]

theorem State.Dosed.counted (h : s.Dosed pr first frame count r) {written : List (Fin Config.valves)}
    (hwritten : written = (List.finRange Config.valves).filter (s.doses first count)) :
    r.finished.1.rw.counters.changes = tally s.rw.counters.changes
      (written.countP fun v => decide (s.rw.expected[v] ≠ r.finished.1.rw.expected[v])) ∧
    r.finished.1.rw.counters.clamps = tally s.rw.counters.clamps (written.countP (s.doseIsClamped pr first frame)) := by
  rw [Rewrite.finished_changes, Rewrite.finished_clamps, h.counters]
  refine ⟨congrArg (tally s.rw.counters.changes) ?_, by rw [hwritten]; rfl⟩
  rw [hwritten]
  refine List.countP_congr fun v hv => ?_
  have hdoses : s.doses first count v = true := (List.mem_filter.mp hv).2
  rw [Rewrite.finished_expected, h.expected, if_pos hdoses]
  exact Iff.rfl

theorem lineFrame_fits {p : Port} {frame : Frame} {c : Copy} (h : lineFrame p frame = some c) :
    26 + c.payload.length ≤ frame.length := by
  unfold lineFrame at h
  dsimp only at h
  split at h
  case isTrue hline =>
    obtain ⟨-, -, -, -, hsize⟩ := hline
    rw [← Option.some.inj h]
    simp only [bytesAt, List.length_take, List.length_drop]
    omega
  case isFalse => cases h

end Outcome

/-- Settles O15: the entries of the frame in turn, then the frame completed. -/
theorem doseFramesRewritten : Obligations.DoseFramesRewritten := by
  intro s p frame c i k pr first count haccepts hline hsource hchannel hmatch hone hrole hwell hfirst hcount hmode hactive hpr
    hlimits hmax
  have hport := lineFrame_port hline
  obtain ⟨hlow, hhigh, hsize⟩ : 1 ≤ count ∧ count ≤ 24 ∧ 2 + 2 * count ≤ c.payload.length := hcount ▸ hwell
  have hfits : 28 + 2 * count ≤ frame.length := by
    have hsized := lineFrame_fits hline
    omega
  have hmatched : exec (.frameReceived p true frame) s =
      .next (matchedFrame s.fp.channels[i] c frame (s.received p)) := by
    rw [exec_frameReceived_of_accepts haccepts, acceptFrame_of_lineFrame hline,
      classifyFrame_station (by rwa [State.received_station]) hchannel]
    unfold stationFrame
    rw [State.received_channels, matchEntry_eq_some hmatch hone]
  have hactive' : (s.received p).activeProduct = some pr := by
    unfold State.activeProduct
    rw [State.received_pu, hactive]
    exact hpr
  have hrewrite : rewriteDose c.payload frame (s.received p) = rewriteEntries pr c.payload frame (s.received p) := by
    unfold rewriteDose
    rw [if_neg (show ¬ (s.received p).te.mode = .off from hmode), hactive']
  have hdosed : (s.received p).Dosed pr first frame count _ := State.dosed_range hlimits hmax (by omega)
  have hnothing := rewriteFold_of_none (s := s.received p) (p := pr) (first := first) (n := count) (frame := frame)
  have heq := rewriteEntries_eq_finished pr c.payload frame (s.received p)
  have honly := rewriteEntries_only pr c.payload frame (s.received p)
  rw [← hfirst, ← hcount] at heq
  generalize (List.range count).foldl (rewriteEntry pr first) { state := s.received p, frame := frame, written := false } = r
    at hdosed hnothing heq
  rw [heq] at honly hrewrite
  refine ⟨r.finished.1, r.finished.2, ?_, ?_, honly .fp (by decide), ?_, ?_, ?_, ?_, ?_, ?_, ?_, ?_⟩
  · rw [hmatched]
    unfold matchedFrame
    dsimp only
    rw [if_neg (by rw [hrole, (malformedFor_eq_false_iff _ _).mpr hwell]; exact Bool.false_ne_true), if_pos hrole, hport, hrewrite,
      forwardFrame_eq]
  · exact OnlyChanges.trans ((withFp_only s _).mono (by decide)) (honly.mono (by decide))
  · rw [Rewrite.finished_length (by rw [hdosed.length]; omega), hdosed.length]
  · exact fun j v hj hv hbelow hne => hdosed.written_valve hlimits hfits hj hv hbelow hne
  · exact fun j hj hnone => hdosed.other_entry hfits hj hnone
  · exact fun v hother => hdosed.other_valve hother
  · intro n hn hflags houtside
    rw [Rewrite.finished_byteAt (by rw [hdosed.length]; omega) (by rw [hdosed.length]; exact hn) hflags, hdosed.bytes n houtside]
  · rintro ⟨v, hv⟩
    exact hdosed.completed hfits ⟨v, State.doses_iff.mpr hv⟩
  · exact fun written hwritten => hdosed.counted hwritten
  · intro hall
    have hnone : ∀ j, j < count → (s.received p).writtenValve (first + j) = none := fun j hj =>
      State.writtenValve_eq_none_iff.mpr fun v hv => hall v (by omega) (by omega)
    rw [hnothing hnone, Rewrite.finished_of_not_written rfl]
    exact ⟨rfl, rfl, rfl⟩

end Sys2Proof.Machine
end

section
/-!
PROOFS, scheduling: what a judged can leaves of the Reject Schedule, of its counters and of Line Stop Request (sections 6.3, 6.4 and
6.7).
-/

namespace Sys2Proof.Machine

theorem insertEntry_splits (e : RejectEntry) (l : List RejectEntry) : ∃ before after : List RejectEntry,
    l = before ++ after ∧ insertEntry e l = before ++ e :: after ∧
      (∀ x ∈ before, isBefore e.firePos x.firePos = false) ∧
      ∀ x, after.head? = some x → isBefore e.firePos x.firePos = true := by
  induction l with
  | nil => exact ⟨[], [], rfl, rfl, nofun, nofun⟩
  | cons y rest ih =>
    unfold insertEntry
    by_cases hy : isBefore e.firePos y.firePos = true
    · rw [if_pos hy]
      exact ⟨[], y :: rest, rfl, rfl, nofun, fun x hx => Option.some.inj hx ▸ hy⟩
    · rw [if_neg hy]
      obtain ⟨before, after, hl, hinsert, hbefore, hafter⟩ := ih
      refine ⟨y :: before, after, by rw [hl]; rfl, by rw [hinsert]; rfl, fun x hx => ?_, hafter⟩
      rcases List.mem_cons.mp hx with rfl | hx
      · exact Bool.eq_false_iff.mpr hy
      · exact hbefore x hx

theorem raiseAfterScheduling_jr (s : State) : (raiseAfterScheduling s).jr =
    { s.jr with lineStop := s.jr.lineStop || s.pos.fault } := by
  unfold raiseAfterScheduling
  cases hfault : s.pos.fault
  · rw [if_neg Bool.false_ne_true, Bool.or_false]
  · rw [if_pos rfl, raiseLineStop_jr, Bool.or_true]

theorem raiseAfterScheduling_grows (s : State) : s.fp.Grows [] (raiseAfterScheduling s).fp := by
  unfold raiseAfterScheduling
  split
  · exact (raiseLineStop_tells (.refl s)).grows
  · exact .refl _ _

theorem FramePath.Grows.rejects {fp gp : FramePath} (h : fp.Grows [] gp) (p : Port) : (gp.port p).reject = (fp.port p).reject :=
  (h.port p).queue .reject (by simp) (by decide)

/-- The frame of a reject command (R11, R114). -/
def State.rejectFrame (s : State) (number : Option Word32) (cls : CanClass) : Frame :=
  insertedFrame s.fp.station s.ma.setup.rejector 240 s.fp.seqMgmt (rejectPayload number cls s.ma.setup.rejectPulse)

theorem rejectSent_rejects (number : Option Word32) (cls : CanClass) (s : State) (p : Port) :
    ((rejectSent number cls s).port p).reject = (s.fp.port p).reject ++
      (if p = s.ma.setup.rejectorPort then [s.rejectFrame number cls] else []) := by
  have hport : ((rejectSent number cls s).port p) = (s.fp.setPort s.ma.setup.rejectorPort _).port p :=
    FramePath.port_seqMgmt _ (s.fp.seqMgmt + 1) p
  rw [hport, FramePath.setPort_get]
  by_cases hp : p = s.ma.setup.rejectorPort
  · subst hp
    rw [if_pos rfl, if_pos rfl]
    rfl
  · rw [if_neg hp, if_neg hp, List.append_nil]

/-- The counts of a judgement (R109). -/
theorem countClass_jr (cls : CanClass) (s : State) : (countClass cls s).jr = { s.jr with
    classes := s.jr.classes.set (classIndex cls).val (tally s.jr.classes[classIndex cls] 1) (classIndex cls).isLt
    rejectTotal := if s.jr.policy[classIndex cls] then tally s.jr.rejectTotal 1 else s.jr.rejectTotal } :=
  rfl

section Scheduling

variable {s t : State} {number : Option Word32} {cls : CanClass} {entryPos : Word32}

/-- What scheduling leaves once the Judgement and Reject Unit is known. -/
theorem schedulesInto_of_jr {rejected late scheduled : Bool} {l : List RejectEntry} {stop : Bool} {counters : RejectCounters}
    (hjr : t.jr = { (countClass cls s).jr with schedule := l, lineStop := stop, counters := counters })
    (hrejected : rejected = s.jr.policy[classIndex cls])
    (hstop : stop = (s.jr.lineStop || (rejected && (!scheduled || s.pos.fault))))
    (hcounters : counters = { s.jr.counters with
      late := if late then tally s.jr.counters.late 1 else s.jr.counters.late
      fired := if late && scheduled then tally s.jr.counters.fired 1 else s.jr.counters.fired
      lost := if rejected && !scheduled then tally s.jr.counters.lost 1 else s.jr.counters.lost })
    (hstays : scheduled = false → l = s.jr.schedule)
    (hjoins : scheduled = true → l = insertEntry {
      number := number, cls := cls, late := late, fired := late
      firePos := if late then s.pos.linePos else firePosition s.pos s.ma.setup.rejectOffset entryPos
      deadline := if late then some (s.pos.linePos + BitVec.ofNat 32 s.ma.setup.confirmWindow) else none } s.jr.schedule)
    (hfp : ∀ p : Port, (t.fp.port p).reject = (s.fp.port p).reject ++
      (if late = true ∧ scheduled = true ∧ p = s.ma.setup.rejectorPort then [s.rejectFrame number cls] else [])) :
    s.schedulesInto t number cls entryPos rejected late scheduled := by
  refine ⟨?_, fun i => ?_, fun hno => ?_, fun hyes => ?_, fun p => ?_⟩
  · rw [hjr, countClass_jr, ← hrejected, hstop, hcounters]
  · rw [hjr, countClass_jr]
    dsimp only
    rw [fin_set_get]
    by_cases hi : i = classIndex cls
    · rw [if_pos hi, if_pos hi, hi]
    · rw [if_neg hi, if_neg hi]
  · rw [hjr]
    exact hstays hno
  · obtain ⟨before, after, hl, hinsert, hbefore, hafter⟩ := insertEntry_splits {
      number := number, cls := cls, late := late, fired := late
      firePos := if late then s.pos.linePos else firePosition s.pos s.ma.setup.rejectOffset entryPos
      deadline := if late then some (s.pos.linePos + BitVec.ofNat 32 s.ma.setup.confirmWindow) else none } s.jr.schedule
    refine ⟨before, after, _, hl, ?_, rfl, hbefore, hafter⟩
    rw [hjr, ← hinsert]
    exact hjoins hyes
  · rw [hfp p, State.rejectFrame, rejectPayload_eq] <;> rfl

/-- What comes after the scheduling leaves it as it was, where the unit stands and no frame joins or leaves but STATUS. -/
theorem State.schedulesInto.later {u : State} {rejected late scheduled : Bool}
    (h : s.schedulesInto t number cls entryPos rejected late scheduled) (hjr : u.jr = t.jr) (hfp : t.fp.Grows [] u.fp) :
    s.schedulesInto u number cls entryPos rejected late scheduled := by
  obtain ⟨hunit, hclasses, hstays, hjoins, hrejects⟩ := h
  unfold State.schedulesInto
  rw [hjr]
  exact ⟨hunit, hclasses, hstays, hjoins, fun p => by rw [hfp.rejects]; exact hrejects p⟩

/-- Scheduling is the same of a state that differs from the first one elsewhere. -/
theorem State.schedulesInto.congr {s' : State} {rejected late scheduled : Bool}
    (h : s'.schedulesInto t number cls entryPos rejected late scheduled) (hjr : s'.jr = s.jr) (hfp : s'.fp = s.fp)
    (hpos : s'.pos = s.pos) (hma : s'.ma = s.ma) : s.schedulesInto t number cls entryPos rejected late scheduled := by
  unfold State.schedulesInto at h ⊢
  rw [hjr, hfp, hpos, hma] at h
  exact h

/-- The outcome of the reject of a class (R103 step 4, R112). -/
structure State.Asks (s : State) (number : Option Word32) (cls : CanClass) (entryPos : Word32) (rejected late scheduled : Bool)
    (o : Scheduled) : Prop where
  isJoined : o.joined = scheduled
  isLate : o.late = late
  schedules : s.schedulesInto o.state number cls entryPos rejected late scheduled

theorem asks_accepted (h : s.jr.policy[classIndex cls] = false) :
    s.Asks number cls entryPos false false false (rejectIfAsked number cls entryPos (countClass cls s)) := by
  have hfree : (countClass cls s).rejects cls = false := h
  unfold rejectIfAsked
  rw [hfree, if_neg Bool.false_ne_true]
  refine ⟨rfl, rfl, schedulesInto_of_jr (t := countClass cls s) (l := s.jr.schedule) (stop := s.jr.lineStop)
    (counters := s.jr.counters) rfl h.symm ?_ rfl (fun _ => rfl) nofun fun p => ?_⟩
  · rw [Bool.false_and, Bool.or_false]
  · rw [if_neg (by simp), List.append_nil]
    rfl

theorem rejectIfAsked_of_rejected (h : s.jr.policy[classIndex cls] = true) :
    rejectIfAsked number cls entryPos (countClass cls s) = scheduleReject number cls entryPos (countClass cls s) := by
  have hasked : (countClass cls s).rejects cls = true := h
  unfold rejectIfAsked
  rw [if_pos hasked]

theorem asks_full (h : s.jr.policy[classIndex cls] = true) (hfull : 32 ≤ s.jr.schedule.length) :
    s.Asks number cls entryPos true false false (rejectIfAsked number cls entryPos (countClass cls s)) := by
  rw [rejectIfAsked_of_rejected h]
  unfold scheduleReject
  rw [if_pos (show Config.scheduleCapacity ≤ (countClass cls s).jr.schedule.length from hfull)]
  refine ⟨rfl, rfl, schedulesInto_of_jr (l := s.jr.schedule) (stop := true)
    (counters := { s.jr.counters with lost := tally s.jr.counters.lost 1 }) ?_ h.symm ?_ rfl (fun _ => rfl) nofun fun p => ?_⟩
  · dsimp only
    rw [loseReject_jr]
    rfl
  · rw [Bool.not_false, Bool.true_or, Bool.true_and, Bool.or_true]
  · rw [if_neg (by simp), List.append_nil, (loseReject_grows _).rejects]
    rfl

theorem asks_pending (h : s.jr.policy[classIndex cls] = true) (hroom : s.jr.schedule.length < 32)
    (hahead : atOrAfter s.pos.linePos (firePosition s.pos s.ma.setup.rejectOffset entryPos) = false) :
    s.Asks number cls entryPos true false true (rejectIfAsked number cls entryPos (countClass cls s)) := by
  have hlater : ¬ atOrAfter (countClass cls s).pos.linePos
      (firePosition (countClass cls s).pos (countClass cls s).ma.setup.rejectOffset entryPos) = true :=
    Bool.eq_false_iff.mp hahead
  rw [rejectIfAsked_of_rejected h]
  unfold scheduleReject
  rw [if_neg (show ¬ Config.scheduleCapacity ≤ (countClass cls s).jr.schedule.length from not_le.mpr hroom)]
  dsimp only
  rw [if_neg hlater]
  refine ⟨rfl, rfl, schedulesInto_of_jr (l := insertEntry {
      number := number, cls := cls, late := false, fired := false
      firePos := firePosition s.pos s.ma.setup.rejectOffset entryPos, deadline := none } s.jr.schedule)
    (stop := s.jr.lineStop || s.pos.fault) (counters := s.jr.counters) ?_ h.symm ?_ rfl nofun (fun _ => rfl) fun p => ?_⟩
  · dsimp only
    rw [raiseAfterScheduling_jr]
    rfl
  · rw [Bool.not_true, Bool.false_or, Bool.true_and]
  · rw [if_neg (by simp), List.append_nil, (raiseAfterScheduling_grows _).rejects]
    rfl

/-- A late can that is counted, before its command is offered (R112 step 4). -/
def State.lateCounted (s : State) (cls : CanClass) : State :=
  (countClass cls s).withRejectCounters { (countClass cls s).jr.counters with
    late := tally (countClass cls s).jr.counters.late 1 }

theorem rejectIfAsked_of_late (h : s.jr.policy[classIndex cls] = true) (hroom : s.jr.schedule.length < 32)
    (hlate : atOrAfter s.pos.linePos (firePosition s.pos s.ma.setup.rejectOffset entryPos) = true) :
    rejectIfAsked number cls entryPos (countClass cls s) = scheduleLate number cls (countClass cls s) := by
  have hreached : atOrAfter (countClass cls s).pos.linePos
      (firePosition (countClass cls s).pos (countClass cls s).ma.setup.rejectOffset entryPos) = true := hlate
  rw [rejectIfAsked_of_rejected h]
  unfold scheduleReject
  rw [if_neg (show ¬ Config.scheduleCapacity ≤ (countClass cls s).jr.schedule.length from not_le.mpr hroom)]
  dsimp only
  rw [if_pos hreached]

theorem asks_late (h : s.jr.policy[classIndex cls] = true) (hroom : s.jr.schedule.length < 32)
    (hlate : atOrAfter s.pos.linePos (firePosition s.pos s.ma.setup.rejectOffset entryPos) = true) (htaken : s.rejectTaken) :
    s.Asks number cls entryPos true true true (rejectIfAsked number cls entryPos (countClass cls s)) := by
  have hoffer : offerReject number cls (s.lateCounted cls) =
      ((s.lateCounted cls).withFp (rejectSent number cls (s.lateCounted cls)), true) :=
    offerReject_of_taken number cls htaken
  rw [rejectIfAsked_of_late h hroom hlate]
  unfold State.lateCounted at hoffer
  unfold scheduleLate
  dsimp only at hoffer ⊢
  rw [hoffer]
  dsimp only
  rw [if_pos rfl]
  refine ⟨rfl, rfl, schedulesInto_of_jr (l := insertEntry {
      number := number, cls := cls, late := true, fired := true, firePos := s.pos.linePos
      deadline := some (s.pos.linePos + BitVec.ofNat 32 s.ma.setup.confirmWindow) } s.jr.schedule)
    (stop := s.jr.lineStop || s.pos.fault) (counters := { s.jr.counters with
      late := tally s.jr.counters.late 1, fired := tally s.jr.counters.fired 1 }) ?_ h.symm ?_ rfl nofun (fun _ => rfl) fun p => ?_⟩
  · dsimp only
    rw [raiseAfterScheduling_jr]
    rfl
  · rw [Bool.not_true, Bool.false_or, Bool.true_and]
  · simp only [true_and]
    rw [(raiseAfterScheduling_grows _).rejects]
    exact rejectSent_rejects number cls (s.lateCounted cls) p

theorem asks_late_refused (h : s.jr.policy[classIndex cls] = true) (hroom : s.jr.schedule.length < 32)
    (hlate : atOrAfter s.pos.linePos (firePosition s.pos s.ma.setup.rejectOffset entryPos) = true) (hrefused : ¬ s.rejectTaken) :
    s.Asks number cls entryPos true true false (rejectIfAsked number cls entryPos (countClass cls s)) := by
  obtain ⟨fp, hoffer, hgrows⟩ := offerReject_of_refused number cls (s := s.lateCounted cls) (rejectTaken_or.resolve_left hrefused)
  have hjr : (s.lateCounted cls).jr = { (countClass cls s).jr with
      counters := { s.jr.counters with late := tally s.jr.counters.late 1 } } := rfl
  have hfp : s.fp.Grows [] fp := hgrows
  have hstate : rejectIfAsked number cls entryPos (countClass cls s) =
      { state := raiseAfterScheduling (loseReject ((s.lateCounted cls).withFp fp)), joined := false, late := true } := by
    rw [rejectIfAsked_of_late h hroom hlate]
    unfold scheduleLate
    unfold State.lateCounted at hoffer ⊢
    dsimp only at hoffer ⊢
    rw [hoffer]
    dsimp only
    rw [if_neg Bool.false_ne_true]
  rw [hstate]
  generalize s.lateCounted cls = u at hjr
  have hlosing : fp.Grows [] (loseReject (u.withFp fp)).fp := loseReject_grows (u.withFp fp)
  have hlost := loseReject_jr (u.withFp fp)
  generalize loseReject (u.withFp fp) = v at hlosing hlost
  have hraised := raiseAfterScheduling_jr v
  have hraising := raiseAfterScheduling_grows v
  refine ⟨rfl, rfl, schedulesInto_of_jr (l := s.jr.schedule) (stop := true) (counters := { s.jr.counters with
    late := tally s.jr.counters.late 1, lost := tally s.jr.counters.lost 1 }) ?_ h.symm ?_ rfl (fun _ => rfl) nofun fun p => ?_⟩
  · rw [hraised, hlost, show (u.withFp fp).jr = u.jr from rfl, hjr]
    rfl
  · rw [Bool.not_false, Bool.true_or, Bool.true_and, Bool.or_true]
  · rw [if_neg (by simp), List.append_nil]
    exact ((hfp.trans hlosing).trans hraising).rejects p

/-- The five ways of a judged can (R103 step 4, R112, R115). -/
theorem asks_of {rejected late scheduled : Bool} (hrejected : rejected = s.jr.policy[classIndex cls])
    (hlate : late = decide (rejected = true ∧ s.jr.schedule.length < 32 ∧
      atOrAfter s.pos.linePos (firePosition s.pos s.ma.setup.rejectOffset entryPos) = true))
    (hscheduled : scheduled = decide (rejected = true ∧ s.jr.schedule.length < 32 ∧ (late = false ∨
      (s.ma.setup.rejector ≠ 255 ∧ (s.fp.port s.ma.setup.rejectorPort).linkUp = true ∧
        (s.fp.port s.ma.setup.rejectorPort).reject.length < 4)))) :
    s.Asks number cls entryPos rejected late scheduled (rejectIfAsked number cls entryPos (countClass cls s)) := by
  cases hpolicy : s.jr.policy[classIndex cls]
  · rw [hpolicy] at hrejected
    subst hrejected
    obtain rfl : late = false := by rw [hlate]; exact decide_eq_false fun hall => Bool.false_ne_true hall.1
    obtain rfl : scheduled = false := by rw [hscheduled]; exact decide_eq_false fun hall => Bool.false_ne_true hall.1
    exact asks_accepted hpolicy
  · rw [hpolicy] at hrejected
    subst hrejected
    by_cases hroom : s.jr.schedule.length < 32
    · cases hreached : atOrAfter s.pos.linePos (firePosition s.pos s.ma.setup.rejectOffset entryPos)
      · obtain rfl : late = false := by
          rw [hlate]
          exact decide_eq_false fun hall => Bool.false_ne_true (hreached.symm.trans hall.2.2)
        obtain rfl : scheduled = true := by
          rw [hscheduled]
          exact decide_eq_true ⟨rfl, hroom, .inl rfl⟩
        exact asks_pending hpolicy hroom hreached
      · obtain rfl : late = true := by
          rw [hlate]
          exact decide_eq_true ⟨rfl, hroom, hreached⟩
        by_cases htaken : s.rejectTaken
        · obtain rfl : scheduled = true := by
            rw [hscheduled]
            exact decide_eq_true ⟨rfl, hroom, .inr htaken⟩
          exact asks_late hpolicy hroom hreached htaken
        · obtain rfl : scheduled = false := by
            rw [hscheduled]
            exact decide_eq_false fun hall => htaken (hall.2.2.resolve_left nofun)
          exact asks_late_refused hpolicy hroom hreached htaken
    · obtain rfl : late = false := by
        rw [hlate]
        exact decide_eq_false fun hall => hroom hall.2.1
      obtain rfl : scheduled = false := by
        rw [hscheduled]
        exact decide_eq_false fun hall => hroom hall.2.1
      exact asks_full hpolicy (not_lt.mp hroom)

end Scheduling

end Sys2Proof.Machine
end

section
/-!
PROOFS, the judged can handed on: the valve weighed and decided, its can captured, and the JUDGED entry in the ring (sections 7.5, 7.6,
10.1 to 10.4).
-/

namespace Sys2Proof.Machine

/-! ### The valve weighed (R140 to R145) -/

/-- The record of a valve whose can was judged (R140). -/
def ValveRecord.judged (r : ValveRecord) (rejected : Bool) : ValveRecord :=
  { r with
    weighed := tally r.weighed 1
    rejected := if rejected then tally r.rejected 1 else r.rejected }

theorem fedRecord_countdown (p : Product) (net : Int) (r : ValveRecord) :
    (fedRecord p net r).countdown = r.countdown ∧ (fedRecord p net r).armed = r.armed :=
  ⟨rfl, rfl⟩

theorem trimDecision_countdown (p : Product) (can : Word32) (r : ValveRecord) :
    (trimDecision p can r).1.countdown = r.countdown ∧ (trimDecision p can r).1.armed = r.armed := by
  unfold trimDecision ValveRecord.restart
  dsimp only
  repeat' split
  all_goals exact ⟨rfl, rfl⟩

/-- A state in which one valve's record is another and its request is cleared or not (R140 to R145, R154). -/
structure State.Weighed (s t : State) (v : Fin Config.valves) (x : ValveRecord) (clear : Bool) : Prop where
  te : t.te = { s.te with valves := s.te.valves.set v.val x v.isLt }
  expected : ∀ u : Fin Config.valves, t.rw.expected[u] = if u = v ∧ clear = true then none else s.rw.expected[u]
  epoch : ∀ u : Fin Config.valves, t.rw.epoch[u] = if u = v ∧ clear = true then s.rw.epoch[u] + 1 else s.rw.epoch[u]
  counters : t.rw.counters = s.rw.counters
  stays : clear = false → t.rw = s.rw

theorem countJudged_weighed (v : Fin Config.valves) (j : Judged) (s : State) :
    s.Weighed (countJudged v j s) v (s.te.valves[v].judged j.rejected) false where
  te := rfl
  expected u := by rw [if_neg (by simp)]; rfl
  epoch u := by rw [if_neg (by simp)]; rfl
  counters := rfl
  stays _ := rfl

theorem set_set {α : Type} {n : Nat} (l : Vector α n) (v : Fin n) (a b : α) :
    (l.set v.val a v.isLt).set v.val b v.isLt = l.set v.val b v.isLt :=
  Vector.set_set ..

theorem feedValve_weighed (v : Fin Config.valves) (p : Product) (net : Int) (j : Judged) (s : State) :
    s.Weighed (feedValve v p net j.record.number (countJudged v j s)) v
      (trimDecision p j.record.number (fedRecord p net (s.te.valves[v].judged j.rejected))).1
      (trimDecision p j.record.number (fedRecord p net (s.te.valves[v].judged j.rejected))).2 := by
  have hcounted : (countJudged v j s).te.valves[v] = s.te.valves[v].judged j.rejected := by
    refine (fin_set_get ..).trans ?_
    rw [if_pos rfl]
    rfl
  unfold feedValve
  rw [hcounted]
  generalize trimDecision p j.record.number (fedRecord p net (s.te.valves[v].judged j.rejected)) = d
  obtain ⟨x, clear⟩ := d
  have hset : ((countJudged v j s).setValve v x).te = { s.te with valves := s.te.valves.set v.val x v.isLt } := by
    unfold State.setValve
    dsimp only
    rw [show (countJudged v j s).te.valves = s.te.valves.set v.val _ v.isLt from rfl, set_set]
    rfl
  have hrw : ((countJudged v j s).setValve v x).rw = s.rw := rfl
  dsimp only
  generalize (countJudged v j s).setValve v x = u at hset hrw
  cases clear
  · rw [if_neg Bool.false_ne_true]
    exact ⟨hset, fun w => by rw [hrw, if_neg (by simp)], fun w => by rw [hrw, if_neg (by simp)], by rw [hrw], fun _ => hrw⟩
  · rw [if_pos rfl]
    refine ⟨by rw [clearRequests_te, hset], fun w => ?_, fun w => ?_, by rw [clearRequests_counters, hrw], nofun⟩
    · rw [clearRequests_expected, hrw]
      simp only [beq_iff_eq, and_true]
    · rw [clearRequests_epoch, hrw]
      simp only [beq_iff_eq, and_true]

/-- What a judged can leaves of its valve (R140, R141): it is counted, and fed and decided where every condition holds. -/
theorem weighValve_weighed {j : Judged} {v : Fin Config.valves} (hvalve : j.record.valve = some v) (s : State) :
    ∃ (x : ValveRecord) (clear : Bool), s.Weighed (weighValve j s) v x clear ∧
      (x.countdown = s.te.valves[v].countdown ∧ x.armed = s.te.valves[v].armed) ∧
      ((countJudged v j s).feeds v j = false → x = s.te.valves[v].judged j.rejected ∧ clear = false) ∧
      ∀ (p : Product) (g : Int), (countJudged v j s).feeds v j = true → s.activeProduct = some p → j.net = some g →
        (x, clear) = trimDecision p j.record.number (fedRecord p g (s.te.valves[v].judged j.rejected)) := by
  have hidle (h : weighValve j s = countJudged v j s) : s.Weighed (weighValve j s) v (s.te.valves[v].judged j.rejected) false := by
    rw [h]
    exact countJudged_weighed v j s
  have hactive : (countJudged v j s).activeProduct = s.activeProduct := rfl
  unfold weighValve at hidle ⊢
  rw [hvalve] at hidle ⊢
  dsimp only at hidle ⊢
  rw [hactive] at hidle ⊢
  cases hp : s.activeProduct with
  | none =>
    rw [hp] at hidle
    exact ⟨_, _, hidle rfl, ⟨rfl, rfl⟩, fun _ => ⟨rfl, rfl⟩, nofun⟩
  | some p =>
    rw [hp] at hidle
    cases hg : j.net with
    | none =>
      rw [hg] at hidle
      exact ⟨_, _, hidle rfl, ⟨rfl, rfl⟩, fun _ => ⟨rfl, rfl⟩, nofun⟩
    | some g =>
      rw [hg] at hidle
      dsimp only at hidle ⊢
      cases hfeeds : (countJudged v j s).feeds v j
      · rw [hfeeds, if_neg Bool.false_ne_true] at hidle
        rw [if_neg Bool.false_ne_true]
        exact ⟨_, _, hidle rfl, ⟨rfl, rfl⟩, fun _ => ⟨rfl, rfl⟩, nofun⟩
      · rw [if_pos rfl]
        obtain ⟨hcountdown, harmed⟩ := trimDecision_countdown p j.record.number (fedRecord p g (s.te.valves[v].judged j.rejected))
        refine ⟨_, _, feedValve_weighed v p g j s, ⟨hcountdown.trans rfl, harmed.trans rfl⟩, nofun, fun p' g' _ hp' hg' => ?_⟩
        obtain rfl := Option.some.inj hp'
        obtain rfl := Option.some.inj hg'
        rfl

/-! ### The can captured (R174, R175) -/

theorem emptySlot_of_first {rc : RingCapture} {i : Fin 4} (hempty : rc.slots[i] = .empty)
    (hfirst : ∀ j : Fin 4, j < i → rc.slots[j] ≠ .empty) : rc.emptySlot = some i :=
  find?_finRange_of_first (p := fun k : Fin 4 => rc.slots[k] == .empty) (beq_iff_eq.mpr hempty)
    fun j hj => beq_eq_false_iff_ne.mpr (hfirst j hj)

theorem emptySlot_of_none {rc : RingCapture} (h : ∀ j : Fin 4, rc.slots[j] ≠ .empty) : rc.emptySlot = none :=
  List.find?_eq_none.mpr fun j _ => by
    rw [beq_iff_eq]
    exact h j

theorem putCapture_rc (i : Fin 4) (j : Judged) (s : State) : ∃ ready, (putCapture i j s).rc = { s.rc with
    slots := s.rc.slots.set i.val (.stored (captureOf s.rc.captureNumber j)) i.isLt
    order := s.rc.order.filter (fun k => k != i) ++ [i]
    captureNumber := s.rc.captureNumber + 1
    captureReady := ready
    counters := { s.rc.counters with stored := tally s.rc.counters.stored 1 } } ∧
    ready = decide (s.ma.setup.captureThreshold ≤ ((putCapture i j s).rc.slots.toList.filter Slot.isStored).length) := by
  have hrc : (putCapture i j s).rc = _ := evalCaptureReady_rc _
  refine ⟨_, hrc, ?_⟩
  rw [hrc]

theorem putCapture_stores (i : Fin 4) (j : Judged) (s : State) :
    s.rc.storesAt (putCapture i j s).rc s.ma.setup.captureThreshold i (captureOf s.rc.captureNumber j) ∧
      (putCapture i j s).rc.counters = { s.rc.counters with stored := tally s.rc.counters.stored 1 } := by
  obtain ⟨ready, hrc, hready⟩ := putCapture_rc i j s
  refine ⟨⟨?_, fun k hk => ?_, ?_, ?_, ?_⟩, ?_⟩
  · rw [hrc]
    refine (fin_set_get ..).trans ?_
    rw [if_pos rfl]
  · rw [hrc]
    refine (fin_set_get ..).trans ?_
    rw [if_neg hk]
  · rw [hrc]
  · rw [hrc]
  · rw [← hready, hrc]
  · rw [hrc]

section Store

variable {j : Judged} {s : State}

theorem storeCapture_of_empty {i : Fin 4} (h : s.rc.emptySlot = some i) : storeCapture j s = (putCapture i j s, true) := by
  unfold storeCapture
  rw [h]

theorem storeCapture_of_wrap {i : Fin 4} (h : s.rc.emptySlot = none) (hwrap : s.ma.setup.captureWrap = true)
    (holdest : s.rc.oldestStored = some i) : storeCapture j s = (putCapture i j { s with rc := { s.rc with
      counters := { s.rc.counters with overwritten := tally s.rc.counters.overwritten 1 } } }, true) := by
  unfold storeCapture
  rw [h]
  dsimp only
  rw [if_pos hwrap, holdest]

theorem storeCapture_of_full (h : s.rc.emptySlot = none) (hwrap : s.ma.setup.captureWrap = false) :
    storeCapture j s = ({ s with rc := { s.rc with
      counters := { s.rc.counters with missed := tally s.rc.counters.missed 1 } } }, false) := by
  unfold storeCapture
  rw [h]
  dsimp only
  rw [hwrap, if_neg Bool.false_ne_true]

/-- A capture leaves the ring, its freeze and the upload engine alone. -/
theorem storeCapture_rc : ∃ slots order number ready counters, (storeCapture j s).1.rc = { s.rc with
    slots := slots, order := order, captureNumber := number, captureReady := ready, counters := counters } := by
  unfold storeCapture
  split
  · obtain ⟨ready, hrc, -⟩ := putCapture_rc ‹_› j s
    exact ⟨_, _, _, _, _, hrc⟩
  · dsimp only
    split
    · split
      · next i _ =>
        obtain ⟨ready, hrc, -⟩ := putCapture_rc i j { s with rc := { s.rc with
          counters := { s.rc.counters with overwritten := tally s.rc.counters.overwritten 1 } } }
        exact ⟨_, _, _, _, _, hrc⟩
      · exact ⟨_, _, _, _, _, rfl⟩
    · exact ⟨_, _, _, _, _, rfl⟩

end Store

theorem setValve_same (v : Fin Config.valves) (s : State) : s.setValve v s.te.valves[v] = s := by
  unfold State.setValve
  rw [show s.te.valves.set v.val s.te.valves[v] v.isLt = s.te.valves from Vector.set_getElem_self _]

/-- Whether the armed valve's can was stored, so that the valve is no longer armed (R174 step 1). -/
def State.staysArmed (s : State) (v : Fin Config.valves) (j : Judged) : Bool :=
  s.te.valves[v].armed && !(storeCapture j s).2

theorem captureArmed_rc (v : Fin Config.valves) (j : Judged) (s : State) : (captureArmed v j s).rc =
    if s.te.valves[v].armed then (storeCapture j s).1.rc else s.rc := by
  unfold captureArmed
  split
  · dsimp only
    split <;> rfl
  · rfl

theorem captureArmed_te (v : Fin Config.valves) (j : Judged) (s : State) : (captureArmed v j s).te =
    { s.te with valves := s.te.valves.set v.val { s.te.valves[v] with armed := s.staysArmed v j } v.isLt } := by
  have hte : (storeCapture j s).1.te = s.te := (storeCapture_only j s) .te (by decide)
  have hsame : s.te.valves.set v.val s.te.valves[v] v.isLt = s.te.valves := Vector.set_getElem_self _
  unfold captureArmed State.staysArmed
  generalize storeCapture j s = c at hte
  cases harmed : s.te.valves[v].armed
  · rw [if_neg Bool.false_ne_true, Bool.false_and, ← harmed, hsame]
  · rw [if_pos rfl, Bool.true_and]
    dsimp only
    cases c.2
    · rw [if_neg Bool.false_ne_true, Bool.not_false, ← harmed, hsame, hte]
    · rw [if_pos rfl, Bool.not_true]
      unfold State.setValve
      rw [hte]

/-- What a judged can leaves of a valve whose capture is on (R174): the countdown, which arms the valve where it reaches 0. -/
theorem captureJudged_te {j : Judged} {v : Fin Config.valves} {s : State} (hvalve : j.record.valve = some v)
    (hon : s.te.table[v].captureInterval ≠ 0) : (captureJudged j s).te = { s.te with
      valves := s.te.valves.set v.val { s.te.valves[v] with
        countdown := if s.te.valves[v].countdown - 1 = 0 then s.te.table[v].captureInterval else s.te.valves[v].countdown - 1
        armed := decide (s.te.valves[v].countdown - 1 = 0) || s.staysArmed v j } v.isLt } := by
  have harmed := captureArmed_te v j s
  unfold captureJudged
  rw [hvalve]
  dsimp only
  rw [if_neg hon]
  generalize captureArmed v j s = t at harmed
  have hget : t.te.valves[v] = { s.te.valves[v] with armed := s.staysArmed v j } := by
    rw [harmed]
    refine (fin_set_get ..).trans ?_
    rw [if_pos rfl]
  have hcounted : (t.setValve v { t.te.valves[v] with countdown := t.te.valves[v].countdown - 1 }).te = { s.te with
      valves := s.te.valves.set v.val
        { s.te.valves[v] with armed := s.staysArmed v j, countdown := s.te.valves[v].countdown - 1 } v.isLt } := by
    unfold State.setValve
    rw [hget]
    dsimp only
    rw [harmed]
    dsimp only
    rw [set_set]
  generalize t.setValve v { t.te.valves[v] with countdown := t.te.valves[v].countdown - 1 } = u at hcounted
  have hrecord : u.te.valves[v] = { s.te.valves[v] with armed := s.staysArmed v j, countdown := s.te.valves[v].countdown - 1 } := by
    rw [hcounted]
    refine (fin_set_get ..).trans ?_
    rw [if_pos rfl]
  have htable : u.te.table = s.te.table := by rw [hcounted]
  by_cases hzero : s.te.valves[v].countdown - 1 = 0
  · rw [armValve_of_reached (by rwa [htable]) (by rw [hrecord]; exact hzero), hrecord, if_pos hzero, decide_eq_true hzero,
      Bool.true_or, htable]
    unfold State.setValve
    rw [hcounted]
    dsimp only
    rw [set_set]
  · rw [armValve_of_stays (.inr (by rw [hrecord]; exact hzero)), hcounted, if_neg hzero, decide_eq_false hzero, Bool.false_or]

theorem captureJudged_rc {j : Judged} {v : Fin Config.valves} {s : State} (hvalve : j.record.valve = some v)
    (hon : s.te.table[v].captureInterval ≠ 0) : (captureJudged j s).rc =
      if s.te.valves[v].armed then (storeCapture j s).1.rc else s.rc := by
  have harm (t : State) : (armValve v t).rc = t.rc := (armValve_only v t) .rc (by decide)
  unfold captureJudged
  rw [hvalve]
  dsimp only
  rw [if_neg hon, harm]
  exact captureArmed_rc v j s

theorem captureJudged_off {j : Judged} {s : State}
    (h : ∀ v, j.record.valve = some v → s.te.table[v].captureInterval = 0) : captureJudged j s = s := by
  unfold captureJudged
  cases hvalve : j.record.valve with
  | none => rfl
  | some v =>
    dsimp only
    rw [if_pos (h v hvalve)]

/-! ### The JUDGED entry (R169 to R172) -/

theorem isBurst_iff (u : LineSetup) (history : List Bool) : isBurst u history = true ↔ u.burstIn history := by
  unfold isBurst LineSetup.burstIn
  rw [Bool.and_eq_true, bne_iff_ne, decide_eq_true_iff, List.count_eq_length_filter]
  simp only [beq_true]
  rfl

/-- A ring frozen by an alarm is a condition of Trim Hold where it was none before, and ends none (R133). -/
theorem holdsTrim_of_alarm {s t : State} (hte : t.te = s.te) (hrm : t.rm = s.rm) (hma : t.ma = s.ma) (hpu : t.pu = s.pu)
    (hfreeze : t.rc.freeze = .alarm) (h : s.holdsTrim = true) : t.holdsTrim = true := by
  unfold State.holdsTrim at h ⊢
  rw [hte, hrm, hma, hpu, hfreeze]
  simp only [Bool.and_eq_true, Bool.or_eq_true] at h ⊢
  obtain ⟨hmode, (hsync | ⟨-, hask⟩) | hnone⟩ := h
  · exact ⟨hmode, .inl (.inl hsync)⟩
  · exact ⟨hmode, .inl (.inr ⟨rfl, hask⟩)⟩
  · exact ⟨hmode, .inr hnone⟩

/-- A freeze of the alarm kind ends no Trim Hold: the valves stay (R133, R134). -/
theorem freezeRing_valves {cause : FreezeCause} {s : State} (h : s.trimShown) (halarm : cause.isAlarm = true) :
    (freezeRing cause s).te.valves = s.te.valves := by
  have heval (t : State) (hte : t.te = s.te) (hrm : t.rm = s.rm) (hma : t.ma = s.ma) (hpu : t.pu = s.pu)
      (hfreeze : t.rc.freeze = .alarm) : (evalTrimHold t).te.valves = s.te.valves := by
    rw [evalTrimHold_te_eq]
    dsimp only
    rw [if_neg, hte]
    rintro ⟨hstood, hfree, -⟩
    have hheld : s.holdsTrim = true := by
      rw [hte] at hstood
      exact h.symm.trans hstood
    exact Bool.false_ne_true (hfree.symm.trans (holdsTrim_of_alarm hte hrm hma hpu hfreeze hheld))
  unfold freezeRing
  split
  · dsimp only
    rw [if_pos halarm]
    exact heval _ (by rw [report_te]) (by rw [report_rm]) (by rw [report_ma]) (by rw [report_pu]) (by rw [report_rc])
  · rw [if_pos halarm]
    exact heval _ rfl rfl rfl rfl rfl
  · rfl

theorem freezeRing_te (cause : FreezeCause) (s : State) : (freezeRing cause s).te =
    { s.te with valves := (freezeRing cause s).te.valves, trimHold := (freezeRing cause s).te.trimHold } := by
  unfold freezeRing
  split
  · dsimp only
    rw [evalTrimHold_te_eq, report_te]
  · split
    · rw [evalTrimHold_te_eq]
    · rfl
  · rfl

/-- What a JUDGED entry leaves of the ring, its burst history and its freeze (R170 to R172). -/
structure State.Rings (s t : State) (e : RingEntry) (weightReject : Bool) : Prop where
  only : OnlyChanges [.fp, .te, .rc] s t
  rc : t.rc = { s.rc with ring := t.rc.ring, burst := t.rc.burst, freeze := t.rc.freeze, cause := t.rc.cause }
  ring : s.rc.ring.length ≤ 32 → t.rc.ring = s.rc.ringAfter [e]
  burst : s.rc.burst.length ≤ 32 → t.rc.burst = s.rc.burstAfter weightReject
  freezes : s.burstFreezes t.rc.burst t.rc
  te : t.te = { s.te with valves := t.te.valves, trimHold := t.te.trimHold }
  shown : s.trimShown → t.trimShown
  valves : s.trimShown → t.te.valves = s.te.valves

theorem writeRing_rc (e : RingEntry) (s : State) : (writeRing e s).rc = { s.rc with ring := (writeRing e s).rc.ring } := by
  unfold writeRing
  split <;> rfl

/-- A state whose ring and burst history hold the outcome, before the burst test (R170, R171). -/
def State.noted (s : State) (e : RingEntry) (weightReject : Bool) : State :=
  { writeRing e s with rc := { (writeRing e s).rc with
    burst := pushBounded Config.ringCapacity (writeRing e s).rc.burst weightReject } }

theorem noted_rc (s : State) (e : RingEntry) (b : Bool) : (s.noted e b).rc = { s.rc with
    ring := (writeRing e s).rc.ring, burst := pushBounded 32 s.rc.burst b } := by
  unfold State.noted
  dsimp only
  rw [writeRing_rc]
  rfl

theorem noted_only (s : State) (e : RingEntry) (b : Bool) : OnlyChanges [.rc] s (s.noted e b) :=
  (writeRing_only e s).put_rc _ (by decide)

theorem noted_shown {s : State} (h : s.trimShown) (e : RingEntry) (b : Bool) : (s.noted e b).trimShown := by
  have honly := noted_only s e b
  have hrc := noted_rc s e b
  generalize s.noted e b = t at honly hrc
  have hte : t.te = s.te := honly .te (by decide)
  have hrm : t.rm = s.rm := honly .rm (by decide)
  have hma : t.ma = s.ma := honly .ma (by decide)
  have hpu : t.pu = s.pu := honly .pu (by decide)
  unfold State.trimShown State.holdsTrim at h ⊢
  rw [hte, hrm, hma, hpu, hrc]
  exact h

theorem handJudged_rings (e : RingEntry) (cls : CanClass) (s : State) :
    s.Rings (handJudged e cls s) e cls.isWeightReject := by
  have hstate : handJudged e cls s = if isBurst (s.noted e cls.isWeightReject).ma.setup (s.noted e cls.isWeightReject).rc.burst
      then freezeRing .burst (s.noted e cls.isWeightReject) else s.noted e cls.isWeightReject := rfl
  have hshown := fun h : s.trimShown => noted_shown h e cls.isWeightReject
  have honly := noted_only s e cls.isWeightReject
  have hrc := noted_rc s e cls.isWeightReject
  have hte : (s.noted e cls.isWeightReject).te = s.te := honly .te (by decide)
  have hma : (s.noted e cls.isWeightReject).ma = s.ma := honly .ma (by decide)
  have hring (h : s.rc.ring.length ≤ 32) : (writeRing e s).rc.ring = s.rc.ringAfter [e] := by
    rw [writeRing_eq e h]
    rfl
  have hburst (h : s.rc.burst.length ≤ 32) : pushBounded 32 s.rc.burst cls.isWeightReject = s.rc.burstAfter cls.isWeightReject :=
    pushBounded_eq _ h
  have hfreezing := freezeRing_rc (cause := .burst) rfl (s.noted e cls.isWeightReject)
  rw [hstate]
  generalize s.noted e cls.isWeightReject = t at hshown honly hrc hte hma hfreezing
  by_cases hbursts : isBurst t.ma.setup t.rc.burst = true
  · rw [if_pos hbursts]
    have hin : s.ma.setup.burstIn t.rc.burst := by
      rw [← hma]
      exact (isBurst_iff _ _).mp hbursts
    have hfrozen : (freezeRing .burst t).rc = { s.rc with
        ring := (writeRing e s).rc.ring, burst := pushBounded 32 s.rc.burst cls.isWeightReject
        freeze := .alarm, cause := if s.rc.freeze = .alarm then s.rc.cause else some .burst } := by
      rw [hfreezing, hrc]
      by_cases halarm : s.rc.freeze = .alarm
      · rw [if_pos halarm, if_pos halarm, ← halarm]
      · rw [if_neg halarm, if_neg halarm]
    have htrims := freezeRing_te .burst t
    constructor
    case only => exact (honly.mono (by decide)).trans (freezeRing_only .burst t)
    case rc => rw [hfrozen]
    case ring => rw [hfrozen]; exact hring
    case burst => rw [hfrozen]; exact hburst
    case freezes =>
      rw [hfrozen]
      rw [hrc] at hin
      exact ⟨fun ⟨_, hne⟩ => ⟨rfl, if_neg hne⟩, fun hor => by
        have halarm := hor.resolve_left fun hno => hno hin
        exact ⟨halarm.symm, if_pos halarm⟩⟩
    case te => rw [← hte]; exact htrims
    case shown => exact fun h => freezeRing_trim .burst (hshown h)
    case valves => exact fun h => (freezeRing_valves (hshown h) rfl).trans (by rw [hte])
  · rw [if_neg hbursts]
    have hout : ¬ s.ma.setup.burstIn t.rc.burst := fun hin => hbursts ((isBurst_iff _ _).mpr (hma.symm ▸ hin))
    constructor
    case only => exact honly.mono (by decide)
    case rc => rw [hrc]
    case ring => rw [hrc]; exact hring
    case burst => rw [hrc]; exact hburst
    case freezes =>
      refine ⟨fun hin => absurd hin.1 hout, fun _ => ?_⟩
      rw [hrc]
      exact ⟨rfl, rfl⟩
    case te => rw [hte]
    case shown => exact hshown
    case valves => exact fun _ => by rw [hte]

end Sys2Proof.Machine
end

section
/-!
PROOFS, a Window Result judged with the oldest PASSED_READER record, or as an orphan (sections 4.5 and 6.1).
-/

namespace Sys2Proof.Machine

/-- A state that has taken its oldest Window Result, which stands with the record it was attached to. -/
def State.resulted (s : State) (more : List WindowResult) (queue : List CanRecord) : State :=
  { s with fe := { s.fe with results := more }, tq := { s.tq with queue := queue } }

/-- What Judgement hands on of a can judged with a record (R103 step 5). -/
def State.judgedOf (s : State) (r : CanRecord) (w : WindowResult) (cls : CanClass) (late scheduled : Bool) : Judged :=
  { record := { r with result := some w }, result := w, net := netWeight s.pu.table[r.product] w, cls := cls
    rejected := s.jr.policy[classIndex cls], scheduled := scheduled, late := late }

/-- The state after scheduling and step 5 of R103, the record still in the queue. -/
def handedOn (j : Judged) (o : Scheduled) : State :=
  handOn j o.state

theorem isPassed_eq_false {r : CanRecord} (h : r.stage ≠ .passed) : r.isPassed = false :=
  beq_eq_false_iff_ne.mpr h

theorem isPassed_eq_true {r : CanRecord} (h : r.stage = .passed) : r.isPassed = true :=
  beq_iff_eq.mpr h

section Record

variable {s : State} {w : WindowResult} {more : List WindowResult} {a b : List CanRecord} {r : CanRecord} {cls : CanClass}

theorem nextResult_of_record (hresults : s.fe.results = w :: more) (hqueue : s.tq.queue = a ++ r :: b)
    (ha : ∀ x ∈ a, x.stage ≠ .passed) (hr : r.stage = .passed)
    (hcls : cls = classOf s.pu.table[r.product] s.rm.tracking r.readResult w) {late scheduled : Bool} {o : Scheduled}
    (ho : o = rejectIfAsked (some r.number) cls w.entryPos
      (countClass cls (s.resulted more (a ++ { r with result := some w } :: b))))
    (hlate : o.late = late) (hjoined : o.joined = scheduled) :
    nextResult s = handJudged (judgedEntry (s.judgedOf r w cls late scheduled)
        (handOn (s.judgedOf r w cls late scheduled) o.state).pos.linePos) cls
      ((handOn (s.judgedOf r w cls late scheduled) o.state).withQueue (a ++ b)) := by
  have hbefore : ∀ x ∈ a, CanRecord.isPassed x = false := fun x hx => isPassed_eq_false (ha x hx)
  have hfound : (s.withFe { s.fe with results := more }).tq.queue.find? CanRecord.isPassed = some r :=
    find?_of_first hqueue hbefore (isPassed_eq_true hr)
  have hattached : updateFirst CanRecord.isPassed (fun x => { x with result := some w }) s.tq.queue =
      a ++ { r with result := some w } :: b :=
    updateFirst_of_first _ hqueue hbefore (isPassed_eq_true hr)
  have hstate : (s.withFe { s.fe with results := more }).withQueue
      (updateFirst CanRecord.isPassed (fun x => { x with result := some w })
        (s.withFe { s.fe with results := more }).tq.queue) = s.resulted more (a ++ { r with result := some w } :: b) := by
    rw [show (s.withFe { s.fe with results := more }).tq.queue = s.tq.queue from rfl, hattached]
    rfl
  have hclass : (s.resulted more (a ++ { r with result := some w } :: b)).classFor { r with result := some w } w = cls := by
    rw [hcls]
    rfl
  have hjudge : judgeRecord { r with result := some w } w (s.resulted more (a ++ { r with result := some w } :: b)) =
      (o.state, s.judgedOf r w cls late scheduled) := by
    unfold judgeRecord
    rw [hclass]
    dsimp only
    rw [← ho, hlate, hjoined]
    rfl
  have hkept : (handOn (s.judgedOf r w cls late scheduled) o.state).tq.queue = a ++ { r with result := some w } :: b := by
    rw [(handOn_only _ o.state) .tq (by decide), ho, (rejectIfAsked_only _ _ _ _) .tq (by decide)]
    rfl
  unfold nextResult
  rw [hresults]
  dsimp only
  unfold takeResult
  rw [hfound]
  dsimp only
  unfold assignWeigh
  dsimp only
  rw [hstate, hjudge]
  dsimp only
  rw [hkept, removeFirst_of_first rfl hbefore (isPassed_eq_true (by exact hr))]
  rfl

end Record

/-! ### The valve of the can -/

theorem fed_iff (cls : CanClass) : cls.fed = true ↔ cls = .ok ∨ cls = .low ∨ cls = .high := by
  cases cls <;> simp [CanClass.fed]

theorem feeds_iff (s : State) (v : Fin Config.valves) (j : Judged) : (countJudged v j s).feeds v j = true ↔
    (s.te.mode = .auto ∧ s.te.trimHold = false) ∧ s.te.valves[v].state = .collecting ∧ j.record.settled = true ∧
      j.record.epoch = s.rw.epoch[v] ∧ (j.cls = .ok ∨ j.cls = .low ∨ j.cls = .high) ∧ j.result.short = false ∧
      s.pu.active = some j.record.product := by
  have hstate : (countJudged v j s).te.valves[v].state = s.te.valves[v].state := by
    have hget : (countJudged v j s).te.valves[v] = s.te.valves[v].judged j.rejected := by
      refine (fin_set_get ..).trans ?_
      rw [if_pos rfl]
      rfl
    rw [hget]
    rfl
  unfold State.feeds
  rw [hstate]
  simp only [Bool.and_eq_true, beq_iff_eq, Bool.not_eq_true', fed_iff, and_assoc]
  exact Iff.rfl

section Handed

variable {s : State} {j : Judged} {v : Fin Config.valves}

/-- What step 5 of R103 leaves of the can's valve, of its record `x` apart from its countdown (R140 to R145, R154, R174). -/
theorem handOn_weighed (hvalve : j.record.valve = some v) : ∃ (x : ValveRecord) (clear : Bool),
    s.Weighed (handOn j s) v { x with
      countdown := (handOn j s).te.valves[v].countdown, armed := (handOn j s).te.valves[v].armed } clear ∧
    ((countJudged v j s).feeds v j = false → x = s.te.valves[v].judged j.rejected ∧ clear = false) ∧
    (∀ (p : Product) (g : Int), (countJudged v j s).feeds v j = true → s.activeProduct = some p → j.net = some g →
      (x, clear) = trimDecision p j.record.number (fedRecord p g (s.te.valves[v].judged j.rejected))) ∧
    (s.te.table[v].captureInterval = 0 → (handOn j s).rc = s.rc ∧
      (handOn j s).te.valves[v].countdown = s.te.valves[v].countdown ∧
      (handOn j s).te.valves[v].armed = s.te.valves[v].armed) ∧
    (s.te.table[v].captureInterval ≠ 0 → ∃ m : State, m.rc = s.rc ∧ m.ma = s.ma ∧
      (handOn j s).rc = (if s.te.valves[v].armed then (storeCapture j m).1.rc else s.rc) ∧
      (handOn j s).te.valves[v].countdown = (if s.te.valves[v].countdown - 1 = 0 then s.te.table[v].captureInterval
        else s.te.valves[v].countdown - 1) ∧
      (handOn j s).te.valves[v].armed = (decide (s.te.valves[v].countdown - 1 = 0) ||
        (s.te.valves[v].armed && !(storeCapture j m).2))) := by
  obtain ⟨x, clear, hweighed, ⟨hcountdown, harmed⟩, hidle, hfed⟩ := weighValve_weighed hvalve s
  have honly := weighValve_only j s
  have hrc : (weighValve j s).rc = s.rc := honly .rc (by decide)
  have hma : (weighValve j s).ma = s.ma := honly .ma (by decide)
  unfold handOn
  generalize weighValve j s = m at hweighed hrc hma
  have htable : m.te.table = s.te.table := by rw [hweighed.te]
  have hget : m.te.valves[v] = x := by
    rw [hweighed.te]
    refine (fin_set_get ..).trans ?_
    rw [if_pos rfl]
  by_cases hon : s.te.table[v].captureInterval = 0
  · rw [captureJudged_off fun u hu => by
      obtain rfl := Option.some.inj (hvalve.symm.trans hu)
      rw [htable]
      exact hon]
    rw [hget]
    exact ⟨x, clear, hweighed, hidle, hfed, fun _ => ⟨hrc, hcountdown, harmed⟩, fun hne => absurd hon hne⟩
  · have hon' : m.te.table[v].captureInterval ≠ 0 := by rwa [htable]
    have hte := captureJudged_te hvalve hon'
    have hcaptured := captureJudged_rc hvalve hon'
    have hrw : (captureJudged j m).rw = m.rw := (captureJudged_only j m) .rw (by decide)
    unfold State.staysArmed at hte
    rw [hget, hcountdown, harmed, htable] at hte
    rw [hget, harmed, hrc] at hcaptured
    generalize captureJudged j m = t at hte hcaptured hrw
    have hrecord : t.te.valves[v] = { x with
        countdown := if s.te.valves[v].countdown - 1 = 0 then s.te.table[v].captureInterval else s.te.valves[v].countdown - 1
        armed := decide (s.te.valves[v].countdown - 1 = 0) || (s.te.valves[v].armed && !(storeCapture j m).2) } := by
      rw [hte]
      refine (fin_set_get ..).trans ?_
      rw [if_pos rfl]
    refine ⟨x, clear, ⟨?_, fun u => ?_, fun u => ?_, ?_, fun hclear => ?_⟩, hidle, hfed, fun hoff => absurd hoff hon,
      fun _ => ⟨m, hrc, hma, hcaptured, by rw [hrecord], by rw [hrecord]⟩⟩
    · rw [hrecord, hte, hweighed.te]
      dsimp only
      rw [set_set]
    · rw [hrw]
      exact hweighed.expected u
    · rw [hrw]
      exact hweighed.epoch u
    · rw [hrw]
      exact hweighed.counters
    · rw [hrw]
      exact hweighed.stays hclear

theorem handOn_of_none (hvalve : j.record.valve = none) : handOn j s = s := by
  unfold handOn weighValve
  rw [hvalve]
  exact captureJudged_off fun v hv => by rw [hvalve] at hv; cases hv

/-- Step 5 of R103 leaves the ring, its freeze and the upload engine alone. -/
theorem handOn_rc : ∃ slots order number ready counters, (handOn j s).rc = { s.rc with
    slots := slots, order := order, captureNumber := number, captureReady := ready, counters := counters } := by
  cases hvalve : j.record.valve with
  | none =>
    rw [handOn_of_none hvalve]
    exact ⟨_, _, _, _, _, rfl⟩
  | some v =>
    obtain ⟨_, _, -, -, -, hoff, hon⟩ := handOn_weighed (s := s) hvalve
    by_cases hinterval : s.te.table[v].captureInterval = 0
    · rw [(hoff hinterval).1]
      exact ⟨_, _, _, _, _, rfl⟩
    · obtain ⟨m, hrc, -, hcaptured, -, -⟩ := hon hinterval
      rw [hcaptured]
      split
      · rw [← hrc]
        exact storeCapture_rc
      · exact ⟨_, _, _, _, _, rfl⟩

theorem handOn_te : (handOn j s).te = { s.te with valves := (handOn j s).te.valves } := by
  cases hvalve : j.record.valve with
  | none => rw [handOn_of_none hvalve]
  | some v =>
    obtain ⟨_, _, hweighed, -⟩ := handOn_weighed (s := s) hvalve
    rw [hweighed.te]

theorem handOn_shown (h : s.trimShown) : (handOn j s).trimShown := by
  have honly := handOn_only j s
  have hte := handOn_te (s := s) (j := j)
  obtain ⟨_, _, _, _, _, hrc⟩ := handOn_rc (s := s) (j := j)
  generalize handOn j s = t at honly hte hrc
  have hrm : t.rm = s.rm := honly .rm (by decide)
  have hma : t.ma = s.ma := honly .ma (by decide)
  have hpu : t.pu = s.pu := honly .pu (by decide)
  unfold State.trimShown State.holdsTrim at h ⊢
  rw [hte, hrm, hma, hpu, hrc]
  exact h

end Handed

/-! ### The captures of the can (R175) -/

section Captures

variable {m s : State} {j : Judged} {cap : Capture}

theorem stores_of_empty (hrc : m.rc = s.rc) (hma : m.ma = s.ma) (hcap : cap = captureOf s.rc.captureNumber j) {i : Fin 4}
    (hempty : s.rc.slots[i] = .empty) (hfirst : ∀ k : Fin 4, k < i → s.rc.slots[k] ≠ .empty) :
    s.rc.storesAt (storeCapture j m).1.rc s.ma.setup.captureThreshold i cap ∧
      (storeCapture j m).1.rc.counters = { s.rc.counters with stored := tally s.rc.counters.stored 1 } ∧
      (storeCapture j m).2 = true := by
  obtain ⟨hstores, hcounters⟩ := putCapture_stores i j m
  rw [hrc, hma] at hstores
  rw [hrc] at hcounters
  rw [storeCapture_of_empty (by rw [hrc]; exact emptySlot_of_first hempty hfirst), hcap]
  dsimp only
  exact ⟨hstores, hcounters, rfl⟩

theorem stores_of_wrap (hrc : m.rc = s.rc) (hma : m.ma = s.ma) (hcap : cap = captureOf s.rc.captureNumber j)
    {before after : List (Fin 4)} {i : Fin 4} (hfull : ∀ k : Fin 4, s.rc.slots[k] ≠ .empty)
    (hwrap : s.ma.setup.captureWrap = true) (horder : s.rc.order = before ++ i :: after)
    (hbefore : ∀ k ∈ before, s.rc.slots[k].isStored = false) (hi : s.rc.slots[i].isStored = true) :
    s.rc.storesAt (storeCapture j m).1.rc s.ma.setup.captureThreshold i cap ∧
      (storeCapture j m).1.rc.counters = { s.rc.counters with
        stored := tally s.rc.counters.stored 1, overwritten := tally s.rc.counters.overwritten 1 } ∧
      (storeCapture j m).2 = true := by
  have holdest : s.rc.oldestStored = some i := find?_of_first horder hbefore hi
  rw [storeCapture_of_wrap (i := i) (by rw [hrc]; exact emptySlot_of_none hfull) (by rw [hma]; exact hwrap)
    (by rw [hrc]; exact holdest)]
  have hnoted : ({ m with rc := { m.rc with counters := { m.rc.counters with
      overwritten := tally m.rc.counters.overwritten 1 } } } : State).rc = { s.rc with counters := { s.rc.counters with
      overwritten := tally s.rc.counters.overwritten 1 } } := by rw [hrc]
  have hsetup : ({ m with rc := { m.rc with counters := { m.rc.counters with
      overwritten := tally m.rc.counters.overwritten 1 } } } : State).ma = s.ma := hma
  generalize ({ m with rc := { m.rc with counters := { m.rc.counters with
    overwritten := tally m.rc.counters.overwritten 1 } } } : State) = n at hnoted hsetup
  obtain ⟨hstores, hcounters⟩ := putCapture_stores i j n
  rw [hnoted, hsetup] at hstores
  rw [hnoted] at hcounters
  rw [hcap]
  dsimp only
  exact ⟨hstores, hcounters, rfl⟩

theorem misses_of_full (hrc : m.rc = s.rc) (hma : m.ma = s.ma) (hfull : ∀ k : Fin 4, s.rc.slots[k] ≠ .empty)
    (hwrap : s.ma.setup.captureWrap = false) : (storeCapture j m).1.rc = { s.rc with
      counters := { s.rc.counters with missed := tally s.rc.counters.missed 1 } } ∧ (storeCapture j m).2 = false := by
  rw [storeCapture_of_full (by rw [hrc]; exact emptySlot_of_none hfull) (by rw [hma]; exact hwrap), ← hrc]
  exact ⟨rfl, rfl⟩

end Captures

end Sys2Proof.Machine
end

section
/-!
PROOFS, a Window Result taken: the whole of what its judgement leaves (sections 4.5, 6.1 to 6.4, 7.5, 7.6 and 10.1 to 10.4).
-/

namespace Sys2Proof.Machine

theorem State.Weighed.congr {s u t : State} {v : Fin Config.valves} {x : ValveRecord} {clear : Bool}
    (h : u.Weighed t v x clear) (hte : u.te = s.te) (hrw : u.rw = s.rw) : s.Weighed t v x clear := by
  obtain ⟨hvalves, hexpected, hepoch, hcounters, hstays⟩ := h
  rw [hte] at hvalves
  rw [hrw] at hexpected hepoch hcounters hstays
  exact ⟨hvalves, hexpected, hepoch, hcounters, hstays⟩

theorem State.Weighed.valve {s t : State} {v : Fin Config.valves} {x : ValveRecord} {clear : Bool}
    (h : s.Weighed t v x clear) : t.te.valves[v] = x := by
  rw [h.te]
  refine (fin_set_get ..).trans ?_
  rw [if_pos rfl]

theorem State.Weighed.other {s t : State} {v u : Fin Config.valves} {x : ValveRecord} {clear : Bool}
    (h : s.Weighed t v x clear) (hu : u ≠ v) : t.te.valves[u] = s.te.valves[u] ∧ t.rw.expected[u] = s.rw.expected[u] ∧
      t.rw.epoch[u] = s.rw.epoch[u] := by
  refine ⟨?_, by rw [h.expected, if_neg fun hall => hu hall.1], by rw [h.epoch, if_neg fun hall => hu hall.1]⟩
  rw [h.te]
  refine (fin_set_get ..).trans ?_
  rw [if_neg hu]

theorem trimShown_congr {s t : State} (h : s.trimShown) (hte : t.te = s.te) (hrm : t.rm = s.rm) (hrc : t.rc = s.rc)
    (hma : t.ma = s.ma) (hpu : t.pu = s.pu) : t.trimShown := by
  unfold State.trimShown State.holdsTrim at h ⊢
  rw [hte, hrm, hrc, hma, hpu]
  exact h

theorem isWeightReject_eq (cls : CanClass) : cls.isWeightReject = decide (cls = .rejLow ∨ cls = .rejHigh) := by
  cases cls <;> decide

theorem burstFreezes_congr {s u : State} {history : List Bool} {rc : RingCapture} (h : u.burstFreezes history rc)
    (hma : u.ma = s.ma) (hfreeze : u.rc.freeze = s.rc.freeze) (hcause : u.rc.cause = s.rc.cause) :
    s.burstFreezes history rc := by
  unfold State.burstFreezes at h ⊢
  rw [hma, hfreeze, hcause] at h
  exact h

/-- What the judgement of a can with a record leaves, from the state it was scheduled in to the end (R103, R169 to R172). -/
structure State.Judges (s t : State) (j : Judged) (more : List WindowResult) (queue : List CanRecord) (p : State) : Prop where
  only : OnlyChanges [.fp, .fe, .tq, .jr, .te, .rw, .rc] s t
  fe : t.fe = { s.fe with results := more }
  tq : t.tq = { s.tq with queue := queue }
  rw : t.rw = p.rw
  te : t.te = { s.te with valves := t.te.valves, trimHold := t.te.trimHold }
  shown : s.trimShown → t.trimShown
  valves : s.trimShown → t.te.valves = p.te.valves
  rc : t.rc = { p.rc with ring := t.rc.ring, burst := t.rc.burst, freeze := t.rc.freeze, cause := t.rc.cause }
  engine : t.rc.engine = s.rc.engine
  freezes : s.burstFreezes t.rc.burst t.rc
  burst : s.rc.burst.length ≤ 32 → t.rc.burst = s.rc.burstAfter (decide (j.cls = .rejLow ∨ j.cls = .rejHigh))
  ring : s.rc.ring.length ≤ 32 → t.rc.ring = s.rc.ringAfter [judgedEntry j s.pos.linePos]

/-- A state that a judged can was scheduled in differs from the one before by its Window Result and its record alone. -/
structure State.Schedules (s u : State) (more : List WindowResult) (queue : List CanRecord) : Prop where
  only : OnlyChanges [.fp, .fe, .tq, .jr] s u
  fe : u.fe = { s.fe with results := more }
  tq : u.tq = { s.tq with queue := queue }

theorem asked_schedules (s : State) (more : List WindowResult) (queue : List CanRecord) (number : Option Word32) (cls : CanClass)
    (x : Word32) : s.Schedules (rejectIfAsked number cls x (countClass cls (s.resulted more queue))).state more queue := by
  have honly := rejectIfAsked_only number cls x (countClass cls (s.resulted more queue))
  have hresulted : OnlyChanges [.fe, .tq, .jr] s (countClass cls (s.resulted more queue)) := fun b hb => by
    cases b <;> first | rfl | exact absurd (by simp) hb
  refine ⟨(hresulted.mono (by decide)).trans (honly.mono (by decide)), ?_, ?_⟩
  · rw [honly .fe (by decide)]
    rfl
  · rw [honly .tq (by decide)]
    rfl

theorem handOn_judges {s u t : State} {j : Judged} {more : List WindowResult} {queue attached : List CanRecord}
    (h : s.Schedules u more attached)
    (ht : t = handJudged (judgedEntry j (handOn j u).pos.linePos) j.cls ((handOn j u).withQueue queue)) :
    s.Judges t j more queue (handOn j u) := by
  have hpos : u.pos = s.pos := h.only .pos (by decide)
  have hma : u.ma = s.ma := h.only .ma (by decide)
  have hrc : u.rc = s.rc := h.only .rc (by decide)
  have hte : u.te = s.te := h.only .te (by decide)
  have hshown : s.trimShown → u.trimShown := fun hs =>
    trimShown_congr hs hte (h.only .rm (by decide)) hrc hma (h.only .pu (by decide))
  have hhanded := handOn_only j u
  have hvalves := handOn_te (s := u) (j := j)
  obtain ⟨slots, order, number, ready, counters, hcaptures⟩ := handOn_rc (s := u) (j := j)
  have hheld := handOn_shown (s := u) (j := j)
  generalize handOn j u = p at ht hhanded hvalves hcaptures hheld
  have hppos : p.pos = s.pos := (hhanded .pos (by decide)).trans hpos
  have hpma : p.ma = s.ma := (hhanded .ma (by decide)).trans hma
  have hpfe : p.fe = u.fe := hhanded .fe (by decide)
  have hptq : p.tq = u.tq := hhanded .tq (by decide)
  have hrings := handJudged_rings (judgedEntry j p.pos.linePos) j.cls (p.withQueue queue)
  rw [← ht] at hrings
  have hqueued : OnlyChanges [.tq] p (p.withQueue queue) := (OnlyChanges.refl [.tq] p).put_tq _ (by decide)
  have hqrc : (p.withQueue queue).rc = p.rc := rfl
  have hqte : (p.withQueue queue).te = p.te := rfl
  have hqtq : (p.withQueue queue).tq = { p.tq with queue := queue } := rfl
  have hqshown : p.trimShown → (p.withQueue queue).trimShown := fun hp => hp
  generalize p.withQueue queue = q at hrings hqueued hqrc hqte hqtq hqshown
  have hqma : q.ma = s.ma := (hqueued .ma (by decide)).trans hpma
  have hqshows : s.trimShown → q.trimShown := fun hs => hqshown (hheld (hshown hs))
  constructor
  case only =>
    exact (((h.only.mono (by decide)).trans (hhanded.mono (by decide))).trans (hqueued.mono (by decide))).trans
      (hrings.only.mono (by decide))
  case fe =>
    rw [hrings.only .fe (by decide), hqueued .fe (by decide), hpfe, h.fe]
  case tq => rw [hrings.only .tq (by decide), hqtq, hptq, h.tq]
  case rw => exact (hrings.only .rw (by decide)).trans (hqueued .rw (by decide))
  case te =>
    have htrim := hrings.te
    rw [hqte, hvalves, hte] at htrim
    exact htrim
  case shown => exact fun hs => hrings.shown (hqshows hs)
  case valves => exact fun hs => (hrings.valves (hqshows hs)).trans (by rw [hqte])
  case rc =>
    have hring := hrings.rc
    rw [hqrc] at hring
    exact hring
  case engine =>
    rw [hrings.rc, hqrc, hcaptures, hrc]
  case freezes =>
    refine burstFreezes_congr hrings.freezes hqma ?_ ?_
    · rw [hqrc, hcaptures, hrc]
    · rw [hqrc, hcaptures, hrc]
  case burst =>
    have hburst := hrings.burst
    rw [hqrc, hcaptures, hrc, isWeightReject_eq] at hburst
    exact hburst
  case ring =>
    have hring := hrings.ring
    rw [hqrc, hcaptures, hrc, hppos] at hring
    exact hring

end Sys2Proof.Machine
end

section
/-!
PROOFS, a Window Result taken: the obligation over both of its ways (section 4.5).
-/

namespace Sys2Proof.Machine

theorem judged_grows (e : RingEntry) (cls : CanClass) (j : Judged) (u : State) (queue : List CanRecord) :
    u.fp.Grows [] (handJudged e cls ((handOn j u).withQueue queue)).fp := by
  have hhanded := (handOn_tells (l := []) j (.refl u)).grows
  generalize handOn j u = p at hhanded
  exact hhanded.trans (handJudged_tells e cls (.refl (p.withQueue queue))).grows

theorem judged_jr (e : RingEntry) (cls : CanClass) (j : Judged) (u : State) (queue : List CanRecord) :
    (handJudged e cls ((handOn j u).withQueue queue)).jr = u.jr := by
  rw [(handJudged_only e cls _) .jr (by decide)]
  exact (handOn_only j u) .jr (by decide)

section Valve

variable {s u t : State} {j : Judged} {more : List WindowResult} {queue attached : List CanRecord} {v : Fin Config.valves}

theorem captures_kept {p : State} (hrc : t.rc = { p.rc with
      ring := t.rc.ring, burst := t.rc.burst, freeze := t.rc.freeze, cause := t.rc.cause }) (hp : p.rc = s.rc) :
    t.rc.slots = s.rc.slots ∧ t.rc.order = s.rc.order ∧ t.rc.captureNumber = s.rc.captureNumber ∧
      t.rc.captureReady = s.rc.captureReady ∧ t.rc.counters = s.rc.counters := by
  rw [hrc, hp]
  exact ⟨rfl, rfl, rfl, rfl, rfl⟩

theorem storesAt_kept {p : State} {rc : RingCapture} {threshold : Nat} {i : Fin 4} {cap : Capture} {counters : CaptureCounters}
    (hrc : t.rc = { p.rc with
      ring := t.rc.ring, burst := t.rc.burst, freeze := t.rc.freeze, cause := t.rc.cause })
    (h : rc.storesAt p.rc threshold i cap) (hcounters : p.rc.counters = counters) :
    rc.storesAt t.rc threshold i cap ∧ t.rc.counters = counters := by
  unfold RingCapture.storesAt at h ⊢
  rw [hrc]
  exact ⟨h, hcounters⟩

/-- The seven conditions, from the state a can was scheduled in (R141). -/
theorem feeds_iff_feedsCan (hte : u.te = s.te) (hrw : u.rw = s.rw) (hpu : u.pu = s.pu) {r : CanRecord} {w : WindowResult}
    {cls : CanClass} {late scheduled : Bool} :
    (countJudged v (s.judgedOf r w cls late scheduled) u).feeds v (s.judgedOf r w cls late scheduled) = true ↔
      s.feedsCan v r w cls := by
  rw [feeds_iff, hte, hrw, hpu]
  exact Iff.rfl

end Valve

/-- A Window Result that finds the oldest PASSED_READER record, but for its valve (R76, R103). -/
theorem judged_of_record {s : State} {w : WindowResult} {more : List WindowResult} (hresults : s.fe.results = w :: more)
    {a b : List CanRecord} {r : CanRecord} {cls : CanClass} {rejected late scheduled : Bool} (hqueue : s.tq.queue = a ++ r :: b)
    (ha : ∀ x ∈ a, x.stage ≠ .passed) (hr : r.stage = .passed)
    (hcls : cls = classOf s.pu.table[r.product] s.rm.tracking r.readResult w)
    (hrejected : rejected = s.jr.policy[classIndex cls])
    (hlate : late = decide (rejected = true ∧ s.jr.schedule.length < 32 ∧
      atOrAfter s.pos.linePos (firePosition s.pos s.ma.setup.rejectOffset w.entryPos) = true))
    (hscheduled : scheduled = decide (rejected = true ∧ s.jr.schedule.length < 32 ∧ (late = false ∨
      (s.ma.setup.rejector ≠ 255 ∧ (s.fp.port s.ma.setup.rejectorPort).linkUp = true ∧
        (s.fp.port s.ma.setup.rejectorPort).reject.length < 4)))) :
    ∃ u : State, s.Schedules u more (a ++ { r with result := some w } :: b) ∧
      s.schedulesInto (nextResult s) (some r.number) cls w.entryPos rejected late scheduled ∧
      s.Judges (nextResult s) (s.judgedOf r w cls late scheduled) more (a ++ b)
        (handOn (s.judgedOf r w cls late scheduled) u) := by
  have hasks : (s.resulted more (a ++ { r with result := some w } :: b)).Asks (some r.number) cls w.entryPos rejected late
      scheduled _ := asks_of hrejected hlate hscheduled
  have hschedules := asked_schedules s more (a ++ { r with result := some w } :: b) (some r.number) cls w.entryPos
  have hnext := nextResult_of_record hresults hqueue ha hr hcls rfl hasks.isLate hasks.isJoined
  generalize rejectIfAsked (some r.number) cls w.entryPos (countClass cls (s.resulted more (a ++ { r with result := some w } :: b)))
    = o at hasks hschedules hnext
  refine ⟨o.state, hschedules, ?_, handOn_judges hschedules hnext⟩
  have hinto := hasks.schedules.later (u := nextResult s) (by rw [hnext]; exact judged_jr ..) (by rw [hnext]; exact judged_grows ..)
  exact hinto.congr rfl rfl rfl rfl

/-- An orphan weigh, or what is left of it (R77, R106). -/
theorem nextResult_of_orphan {s : State} {w : WindowResult} {more : List WindowResult} (hresults : s.fe.results = w :: more)
    (hnone : ∀ x ∈ s.tq.queue, x.stage ≠ .passed) : nextResult s = judgeOrphan w ((s.withFe { s.fe with results := more
      }).withTrackingCounters { s.tq.counters with orphanWeighs := tally s.tq.counters.orphanWeighs 1 }) := by
  have hfound : (s.withFe { s.fe with results := more }).tq.queue.find? CanRecord.isPassed = none :=
    List.find?_eq_none.mpr fun x hx => by
      rw [isPassed_eq_false (hnone x hx)]
      exact Bool.false_ne_true
  unfold nextResult
  rw [hresults]
  dsimp only
  unfold takeResult
  rw [hfound]
  rfl

/-- The valve of a judged can once its record, its requests and its countdown are known (R140 to R145, R174). -/
structure State.ValveJudged (s t : State) (j : Judged) (v : Fin Config.valves) : Prop where
  other : ∀ x : Fin Config.valves, x ≠ v → t.te.valves[x] = s.te.valves[x] ∧ t.rw.expected[x] = s.rw.expected[x] ∧
    t.rw.epoch[x] = s.rw.epoch[x]
  counters : t.rw.counters = s.rw.counters
  idle : (countJudged v j s).feeds v j = false → t.te.valves[v] = { s.te.valves[v].judged j.rejected with
    countdown := t.te.valves[v].countdown, armed := t.te.valves[v].armed } ∧ t.rw = s.rw
  fed : ∀ (p : Product) (g : Int) (d : ValveRecord) (clear : Bool), (countJudged v j s).feeds v j = true →
    s.activeProduct = some p → j.net = some g →
    (d, clear) = trimDecision p j.record.number (fedRecord p g (s.te.valves[v].judged j.rejected)) →
    t.te.valves[v] = { d with countdown := t.te.valves[v].countdown, armed := t.te.valves[v].armed } ∧
      t.rw.expected[v] = (if clear then none else s.rw.expected[v]) ∧
      t.rw.epoch[v] = (if clear then s.rw.epoch[v] + 1 else s.rw.epoch[v])
  off : s.te.table[v].captureInterval = 0 → (handOn j s).rc = s.rc ∧
    t.te.valves[v].countdown = s.te.valves[v].countdown ∧ t.te.valves[v].armed = s.te.valves[v].armed
  on : s.te.table[v].captureInterval ≠ 0 → ∃ m : State, m.rc = s.rc ∧ m.ma = s.ma ∧
    (handOn j s).rc = (if s.te.valves[v].armed then (storeCapture j m).1.rc else s.rc) ∧
    t.te.valves[v].countdown = (if s.te.valves[v].countdown - 1 = 0 then s.te.table[v].captureInterval
      else s.te.valves[v].countdown - 1) ∧
    t.te.valves[v].armed = (decide (s.te.valves[v].countdown - 1 = 0) ||
      (s.te.valves[v].armed && !(storeCapture j m).2))

theorem valveJudged_of {s t : State} {j : Judged} {v : Fin Config.valves} (hvalve : j.record.valve = some v)
    (hvalves : t.te.valves = (handOn j s).te.valves) (hrw : t.rw = (handOn j s).rw) : s.ValveJudged t j v := by
  obtain ⟨x, clear, hweighed, hidle, hfed, hoff, hon⟩ := handOn_weighed (s := s) hvalve
  have hget : (handOn j s).te.valves[v] = { x with
      countdown := (handOn j s).te.valves[v].countdown, armed := (handOn j s).te.valves[v].armed } := hweighed.valve
  constructor
  case other =>
    intro y hy
    rw [hvalves, hrw]
    exact hweighed.other hy
  case counters => rw [hrw, hweighed.counters]
  case idle =>
    intro hfeeds
    obtain ⟨hx, hclear⟩ := hidle hfeeds
    rw [hvalves, hrw, hweighed.stays hclear, ← hx]
    exact ⟨hget, rfl⟩
  case fed =>
    intro p g d clear' hfeeds hp hg hd
    obtain ⟨rfl, rfl⟩ := Prod.mk.inj (hd.trans (hfed p g hfeeds hp hg).symm)
    rw [hvalves, hrw, hweighed.expected, hweighed.epoch]
    exact ⟨hget, by simp only [true_and], by simp only [true_and]⟩
  case off => rw [hvalves]; exact hoff
  case on => rw [hvalves]; exact hon

end Sys2Proof.Machine
end

section
/-!
PROOFS, a Window Result taken: the obligation over both of its ways (section 4.5).
-/

namespace Sys2Proof.Machine

theorem judgeOrphan_rings {s t : State} {w : WindowResult} {late scheduled : Bool}
    (hasks : s.Asks none .orphan w.entryPos s.jr.policy[0] late scheduled
      (rejectIfAsked none .orphan w.entryPos (countClass .orphan s))) (ht : t = judgeOrphan w s) :
    s.schedulesInto t none .orphan w.entryPos s.jr.policy[0] late scheduled ∧
      ∃ u : State, OnlyChanges [.fp, .jr] s u ∧ u.Rings t (orphanEntry w scheduled late s.pos.linePos) false := by
  have honly : OnlyChanges [.fp, .jr] s (rejectIfAsked none .orphan w.entryPos (countClass .orphan s)).state :=
    ((OnlyChanges.refl [.jr] s).put_jr _ (by decide)).mono (by decide) |>.trans (rejectIfAsked_only none .orphan w.entryPos _)
  unfold judgeOrphan at ht
  generalize rejectIfAsked none .orphan w.entryPos (countClass .orphan s) = o at hasks honly ht
  dsimp only at ht
  rw [hasks.isJoined, hasks.isLate, honly .pos (by decide)] at ht
  have hrings := handJudged_rings (orphanEntry w scheduled late s.pos.linePos) .orphan o.state
  have htells := (handJudged_tells (l := []) (orphanEntry w scheduled late s.pos.linePos) .orphan (.refl o.state)).grows
  rw [← ht] at hrings htells
  exact ⟨hasks.schedules.later (hrings.only .jr (by decide)) htells, o.state, honly, hrings⟩

/-- Settles O29: the can scheduled, handed on and written to the ring, each by what its operations leave. -/
theorem windowResultJudged : Obligations.WindowResultJudged := by
  intro s w more hresults
  refine ⟨fun a b r cls net rejected late scheduled hqueue ha hr hcls hnet hrejected hlate hscheduled => ?_,
    fun late scheduled hnone hlate hscheduled => ?_⟩
  · obtain ⟨u, hschedules, hinto, hjudges⟩ := judged_of_record hresults hqueue ha hr hcls hrejected hlate hscheduled
    have hute : u.te = s.te := hschedules.only .te (by decide)
    have hurw : u.rw = s.rw := hschedules.only .rw (by decide)
    have hurc : u.rc = s.rc := hschedules.only .rc (by decide)
    have huma : u.ma = s.ma := hschedules.only .ma (by decide)
    have hupu : u.pu = s.pu := hschedules.only .pu (by decide)
    refine ⟨nextResult s, rfl, hjudges.only, hjudges.fe, hjudges.tq, hinto, hjudges.te, hjudges.shown, ?_, ?_, hjudges.engine,
      hjudges.freezes, hjudges.burst, ?_⟩
    · intro hvalve hshown
      have hidle : handOn (s.judgedOf r w cls late scheduled) u = u := handOn_of_none hvalve
      have hvalves := hjudges.valves hshown
      have hrw := hjudges.rw
      have hrc := hjudges.rc
      rw [hidle] at hvalves hrw hrc
      exact ⟨by rw [hvalves, hute], by rw [hrw, hurw], captures_kept hrc hurc⟩
    · intro v counted cap interval hvalve hshown hcounted hcap hinterval
      subst hinterval
      have hv := valveJudged_of (j := s.judgedOf r w cls late scheduled) hvalve (hjudges.valves hshown) hjudges.rw
      have hrc := hjudges.rc
      have hfeeds := feeds_iff_feedsCan (v := v) (late := late) (scheduled := scheduled) (r := r) (w := w) (cls := cls) hute hurw hupu
      obtain ⟨hother, hcounters, hidle, hfed, hoff, hon⟩ := hv
      have hjudged : s.te.valves[v].judged (s.judgedOf r w cls late scheduled).rejected = counted := by
        rw [hcounted, hrejected]
        rfl
      have hcapture : cap = captureOf s.rc.captureNumber (s.judgedOf r w cls late scheduled) := by
        rw [hcap, hnet]
        rfl
      have hactive : s.feedsCan v r w cls → u.activeProduct = s.pu.table[r.product] := fun hf => by
        obtain ⟨-, -, -, -, -, -, hproduct⟩ := hf
        unfold State.activeProduct
        rw [hupu, hproduct]
      rw [hute, hurw] at hother
      rw [hurw] at hcounters
      rw [hute, hurw, hjudged] at hidle hfed
      rw [hute, hurc] at hoff
      rw [hute, hurc, huma] at hon
      refine ⟨hother, hcounters, ?_, ?_, ?_, ?_, ?_, ?_, ?_⟩
      · exact fun hnot => hidle (Bool.eq_false_iff.mpr (mt hfeeds.mp hnot))
      · intro p g d clear hf hp hg hd
        exact hfed p g d clear (hfeeds.mpr hf) ((hactive hf).trans hp) (hnet.symm.trans hg) hd
      · exact fun hzero => (hoff hzero).2
      · intro hne hone
        obtain ⟨m, -, -, -, hcountdown, harmed⟩ := hon hne
        rw [hcountdown, harmed, hone]
        exact ⟨rfl, rfl⟩
      · intro hne htwo
        obtain ⟨m, -, -, -, hcountdown, harmed⟩ := hon hne
        have hpast : ¬ s.te.valves[v].countdown - 1 = 0 := by omega
        rw [hcountdown, harmed, if_neg hpast, decide_eq_false hpast]
        exact ⟨rfl, fun hfree => by rw [hfree]; rfl⟩
      · intro hor
        refine captures_kept hrc ?_
        by_cases hzero : s.te.table[v].captureInterval = 0
        · exact (hoff hzero).1
        · obtain ⟨m, -, -, hcaptured, -, -⟩ := hon hzero
          rw [hcaptured, hor.resolve_left hzero, if_neg Bool.false_ne_true]
      · intro hne harm
        obtain ⟨m, hmrc, hmma, hcaptured, -, harmed⟩ := hon hne
        rw [harm, if_pos rfl] at hcaptured
        rw [harm, Bool.true_and] at harmed
        have hdisarmed (hstored : (storeCapture (s.judgedOf r w cls late scheduled) m).2 = true) (htwo : 2 ≤ s.te.valves[v].countdown) :
            (nextResult s).te.valves[v].armed = false := by
          have hpast : ¬ s.te.valves[v].countdown - 1 = 0 := by omega
          rw [harmed, hstored, decide_eq_false hpast]
          rfl
        refine ⟨fun i hempty hfirst => ?_, fun before after i hfull hwrap horder hbefore hi => ?_, fun hfull hwrap => ?_⟩
        · obtain ⟨hstores, hstored, hyes⟩ := stores_of_empty hmrc hmma hcapture hempty hfirst
          rw [← hcaptured] at hstores hstored
          obtain ⟨hstores, hstored⟩ := storesAt_kept hrc hstores hstored
          exact ⟨hstores, hstored, hdisarmed hyes⟩
        · obtain ⟨hstores, hstored, hyes⟩ := stores_of_wrap hmrc hmma hcapture hfull hwrap horder hbefore hi
          rw [← hcaptured] at hstores hstored
          obtain ⟨hstores, hstored⟩ := storesAt_kept hrc hstores hstored
          exact ⟨hstores, hstored, hdisarmed hyes⟩
        · obtain ⟨hmissed, hno⟩ := misses_of_full (j := s.judgedOf r w cls late scheduled) hmrc hmma hfull hwrap
          rw [hmissed] at hcaptured
          rw [harmed, hno, hrc, hcaptured, Bool.not_false, Bool.or_true]
          exact ⟨rfl, rfl, rfl, rfl, rfl, rfl⟩
    · intro hring
      rw [hjudges.ring hring, hnet]
      rfl
  · have hnext := nextResult_of_orphan hresults hnone
    have hfe : ((s.withFe { s.fe with results := more }).withTrackingCounters { s.tq.counters with
        orphanWeighs := tally s.tq.counters.orphanWeighs 1 }).fe = { s.fe with results := more } := rfl
    have htq : ((s.withFe { s.fe with results := more }).withTrackingCounters { s.tq.counters with
        orphanWeighs := tally s.tq.counters.orphanWeighs 1 }).tq = { s.tq with counters := { s.tq.counters with
          orphanWeighs := tally s.tq.counters.orphanWeighs 1 } } := rfl
    have honly : OnlyChanges [.fe, .tq] s ((s.withFe { s.fe with results := more }).withTrackingCounters { s.tq.counters with
        orphanWeighs := tally s.tq.counters.orphanWeighs 1 }) :=
      ((OnlyChanges.refl [.fe, .tq] s).put_fe _ (by decide)).put_tq _ (by decide)
    generalize (s.withFe { s.fe with results := more }).withTrackingCounters { s.tq.counters with
      orphanWeighs := tally s.tq.counters.orphanWeighs 1 } = x at hnext hfe htq honly
    have hxjr : x.jr = s.jr := honly .jr (by decide)
    have hxma : x.ma = s.ma := honly .ma (by decide)
    have hxpos : x.pos = s.pos := honly .pos (by decide)
    have hxfp : x.fp = s.fp := honly .fp (by decide)
    have hxrc : x.rc = s.rc := honly .rc (by decide)
    have hxte : x.te = s.te := honly .te (by decide)
    have hasks : x.Asks none .orphan w.entryPos x.jr.policy[0] late scheduled _ :=
      asks_of (cls := .orphan) rfl (by rw [hxjr, hxpos, hxma]; exact hlate) (by rw [hxjr, hxma, hxfp]; exact hscheduled)
    obtain ⟨hinto, u, huonly, hrings⟩ := judgeOrphan_rings hasks hnext
    have hinto' := hinto.congr hxjr hxfp hxpos hxma
    have hurc : u.rc = s.rc := (huonly .rc (by decide)).trans hxrc
    have hute : u.te = s.te := (huonly .te (by decide)).trans hxte
    have huma : u.ma = s.ma := (huonly .ma (by decide)).trans hxma
    have hall : OnlyChanges [.fp, .fe, .tq, .jr] s u := (honly.mono (by decide)).trans (huonly.mono (by decide))
    rw [hxjr] at hinto'
    rw [hxpos] at hrings
    have hshows (hs : s.te.trimHold = s.holdsTrim) : u.trimShown :=
      trimShown_congr hs hute (hall .rm (by decide)) hurc huma (hall .pu (by decide))
    refine ⟨nextResult s, rfl, (hall.mono (by decide)).trans (hrings.only.mono (by decide)), ?_, ?_, hinto', ?_, ?_, ?_, ?_, ?_⟩
    · rw [hrings.only .fe (by decide), huonly .fe (by decide), hfe]
    · rw [hrings.only .tq (by decide), huonly .tq (by decide), htq]
    · intro hs
      have hte := hrings.te
      rw [hrings.valves (hshows hs), hute] at hte
      exact ⟨hte, hrings.shown (hshows hs)⟩
    · have hrc := hrings.rc
      rw [hurc] at hrc
      exact hrc
    · exact burstFreezes_congr hrings.freezes huma (by rw [hurc]) (by rw [hurc])
    · rw [← hurc]
      exact hrings.burst
    · rw [← hurc]
      exact hrings.ring

end Sys2Proof.Machine
end

section
/-!
PROOFS, the Reader Matcher: unread marks, exact and lookahead matches, lost reads and restarts (sections 5.3 to 5.6).
-/

namespace Sys2Proof.Machine

theorem isCoded_eq_false {r : CanRecord} (h : r.stage ≠ .coded) : r.isCoded = false :=
  beq_eq_false_iff_ne.mpr h

theorem isCoded_eq_true {r : CanRecord} (h : r.stage = .coded) : r.isCoded = true :=
  beq_iff_eq.mpr h

theorem all_not_coded {a : List CanRecord} (h : ∀ x ∈ a, x.stage ≠ .coded) : ∀ x ∈ a, CanRecord.isCoded x = false :=
  fun x hx => isCoded_eq_false (h x hx)

theorem filter_coded_of_first {a b : List CanRecord} {r : CanRecord} (ha : ∀ x ∈ a, x.stage ≠ .coded) (hr : r.stage = .coded) :
    (a ++ r :: b).filter CanRecord.isCoded = r :: b.filter CanRecord.isCoded := by
  rw [List.filter_append, filter_isCoded_eq_nil ha, List.filter_cons, if_pos (isCoded_eq_true hr), List.nil_append]

/-! ### Unread marks (R91, R97, R98) -/

/-- A record that was not read (R91). -/
def CanRecord.unread (r : CanRecord) : CanRecord :=
  { r with readResult := some .unread, lotOk := false, stage := .passed }

/-- The Reader Matcher after `n` unread marks (R91, R97, R98). -/
def State.unreadBy (s : State) (n : Nat) : Reader :=
  { s.rm with
    cleanRun := if n = 0 then s.rm.cleanRun else 0
    unreadRun := if n = 0 then s.rm.unreadRun else min (s.rm.unreadRun + n) 255
    risen := if n = 0 then s.rm.risen else none
    tracking := if s.rm.tracking = .synced ∧ n ≠ 0 ∧ s.ma.setup.unreadLimit ≤ min (s.rm.unreadRun + n) 255 then .lost
      else s.rm.tracking
    counters := { s.rm.counters with unread := tally s.rm.counters.unread n } }

/-- `n` unread marks and nothing else, which leave the queue as given. -/
structure State.Unread (s u : State) (queue : List CanRecord) (n : Nat) : Prop where
  only : OnlyChanges [.fp, .tq, .rm, .te, .rc] s u
  handed : u.fp.handed = s.fp.handed
  tq : u.tq = { s.tq with queue := queue }
  rm : u.rm = s.unreadBy n
  calm : u.rm.tracking = s.rm.tracking → u.fp = s.fp ∧ u.te = s.te ∧ u.rc = s.rc

theorem setTracking_handed (st : TrackingState) (s : State) : (setTracking st s).fp.handed = s.fp.handed :=
  (setTracking_tells (l := []) st (.refl s)).grows.handed

/-- The state an unread run is compared in (R91, R98). -/
def State.unreadMarked (s : State) (queue : List CanRecord) : State :=
  { s with
    tq := { s.tq with queue := queue }
    rm := { s.rm with
      cleanRun := 0, unreadRun := runUp s.rm.unreadRun, risen := some .unread
      counters := { s.rm.counters with unread := tally s.rm.counters.unread 1 } } }

theorem marked_only (s : State) (tq : Tracking) (rm : Reader) : OnlyChanges [.tq, .rm] s { s with tq := tq, rm := rm } :=
  ((OnlyChanges.refl [.tq, .rm] s).put_tq tq (by decide)).put_rm rm (by decide)

theorem unreadMark_eq {s : State} {a b : List CanRecord} {r : CanRecord} (hqueue : s.tq.queue = a ++ r :: b)
    (ha : ∀ x ∈ a, x.stage ≠ .coded) (hr : r.stage = .coded) :
    unreadMark s = becomeLost (s.unreadMarked (a ++ r.unread :: b)) := by
  unfold unreadMark
  rw [updateFirst_of_first _ hqueue (all_not_coded ha) (isCoded_eq_true hr)]
  rfl

theorem unreadMark_unread {s : State} {a b : List CanRecord} {r : CanRecord} (hqueue : s.tq.queue = a ++ r :: b)
    (ha : ∀ x ∈ a, x.stage ≠ .coded) (hr : r.stage = .coded) : s.Unread (unreadMark s) (a ++ r.unread :: b) 1 := by
  rw [unreadMark_eq hqueue ha hr]
  have hmarked : OnlyChanges [.tq, .rm] s (s.unreadMarked (a ++ r.unread :: b)) :=
    (marked_only s _ _)
  have hrm := becomeLost_rm (s := s.unreadMarked (a ++ r.unread :: b)) rfl
  have honly := becomeLost_only (s.unreadMarked (a ++ r.unread :: b))
  have hvain := becomeLost_in_vain (s := s.unreadMarked (a ++ r.unread :: b)) rfl
  have htells := (becomeLost_tells (l := []) (.refl (s.unreadMarked (a ++ r.unread :: b)))).grows
  constructor
  case only => exact (hmarked.mono (by decide)).trans (honly.mono (by decide))
  case handed => exact htells.handed
  case tq => exact honly .tq (by decide)
  case rm =>
    rw [hrm]
    unfold State.unreadBy
    rw [if_neg Nat.one_ne_zero, if_neg Nat.one_ne_zero, if_neg Nat.one_ne_zero]
    simp only [ne_eq, Nat.one_ne_zero, not_false_eq_true, true_and]
    rfl
  case calm =>
    intro hcalm
    by_cases hreached : s.rm.tracking = .synced ∧ s.ma.setup.unreadLimit ≤ runUp s.rm.unreadRun
    · have hlost : (becomeLost (s.unreadMarked (a ++ r.unread :: b))).rm.tracking = .lost := by
        rw [hrm]
        exact if_pos hreached
      rw [hlost, hreached.1] at hcalm
      cases hcalm
    · rw [hvain]
      · exact ⟨rfl, rfl, rfl⟩
      · by_cases hstate : s.rm.tracking = .synced
        · exact .inr (not_le.mp fun hlow => hreached ⟨hstate, hlow⟩)
        · exact .inl hstate

theorem State.Unread.none (s : State) : s.Unread s s.tq.queue 0 where
  only := OnlyChanges.refl _ s
  handed := rfl
  tq := rfl
  rm := by
    unfold State.unreadBy
    rw [if_pos rfl, if_pos rfl, if_pos rfl, if_neg fun hall => hall.2.1 rfl, tally_zero]
  calm _ := ⟨rfl, rfl, rfl⟩

/-- Once LOST, further unread marks leave the Tracking State; before, they act with the run they reach (R98). -/
theorem unreadBy_unreadBy {s t : State} {m n : Nat} (h : t.rm = s.unreadBy m) (hma : t.ma = s.ma) :
    t.unreadBy n = s.unreadBy (m + n) := by
  rcases Nat.eq_zero_or_pos n with rfl | hn
  · have hnone : t.unreadBy 0 = t.rm := (State.Unread.none t).rm.symm
    rw [hnone, h, Nat.add_zero]
  · rcases Nat.eq_zero_or_pos m with rfl | hm
    · have hnone : s.unreadBy 0 = s.rm := (State.Unread.none s).rm.symm
      rw [hnone] at h
      unfold State.unreadBy
      rw [h, hma, Nat.zero_add]
    · have hrun : min (min (s.rm.unreadRun + m) 255 + n) 255 = min (s.rm.unreadRun + (m + n)) 255 := by omega
      have hcompared : (if (if s.rm.tracking = .synced ∧ s.ma.setup.unreadLimit ≤ min (s.rm.unreadRun + m) 255 then
            TrackingState.lost else s.rm.tracking) = .synced ∧ s.ma.setup.unreadLimit ≤ min (s.rm.unreadRun + (m + n)) 255 then
          TrackingState.lost
          else (if s.rm.tracking = .synced ∧ s.ma.setup.unreadLimit ≤ min (s.rm.unreadRun + m) 255 then .lost
            else s.rm.tracking)) =
          if s.rm.tracking = .synced ∧ s.ma.setup.unreadLimit ≤ min (s.rm.unreadRun + (m + n)) 255 then .lost
          else s.rm.tracking := by
        by_cases hearly : s.rm.tracking = .synced ∧ s.ma.setup.unreadLimit ≤ min (s.rm.unreadRun + m) 255
        · obtain ⟨hstate, hlimit⟩ := hearly
          have hlater : s.rm.tracking = .synced ∧ s.ma.setup.unreadLimit ≤ min (s.rm.unreadRun + (m + n)) 255 :=
            ⟨hstate, by omega⟩
          rw [if_pos (⟨hstate, hlimit⟩ : _ ∧ _), if_pos hlater, if_neg fun hall => nomatch hall.1]
        · rw [if_neg hearly]
      have hmn : m + n ≠ 0 := by omega
      unfold State.unreadBy at h ⊢
      rw [h, hma]
      simp only [hn.ne', hm.ne', hmn, if_false, ne_eq, not_false_eq_true, true_and, hrun, tally_tally, hcompared]

theorem State.Unread.trans {s t u : State} {q q' : List CanRecord} {m n : Nat} (h : s.Unread t q m) (k : t.Unread u q' n) :
    s.Unread u q' (m + n) := by
  have hma : t.ma = s.ma := h.only .ma (by decide)
  constructor
  case only => exact h.only.trans k.only
  case handed => exact k.handed.trans h.handed
  case tq => rw [k.tq, h.tq]
  case rm => rw [k.rm, unreadBy_unreadBy h.rm hma]
  case calm =>
    intro hcalm
    have hkept : t.rm.tracking = s.rm.tracking := by
      have hu := congrArg Reader.tracking k.rm
      have ht := congrArg Reader.tracking h.rm
      unfold State.unreadBy at hu ht
      dsimp only at hu ht
      by_cases hlost : s.rm.tracking = .synced ∧ m ≠ 0 ∧ s.ma.setup.unreadLimit ≤ min (s.rm.unreadRun + m) 255
      · rw [if_pos hlost] at ht
        rw [ht, if_neg fun hall => nomatch hall.1] at hu
        rw [hcalm, hlost.1] at hu
        cases hu
      · rw [ht, if_neg hlost]
    obtain ⟨hfp, hte, hrc⟩ := h.calm hkept
    obtain ⟨hfp', hte', hrc'⟩ := k.calm (hcalm.trans hkept.symm)
    exact ⟨hfp'.trans hfp, hte'.trans hte, hrc'.trans hrc⟩

/-! ### Lost reads (R87, R88) -/

theorem matchLost_add (m n : Nat) : ∀ s : State, matchLost (m + n) s = matchLost n (matchLost m s) := by
  induction m with
  | zero => intro s; rw [Nat.zero_add]; rfl
  | succ m ih => intro s; rw [Nat.succ_add]; exact ih _

theorem matchRead_noRead {s : State} {a b : List CanRecord} {r : CanRecord} (hqueue : s.tq.queue = a ++ r :: b)
    (ha : ∀ x ∈ a, x.stage ≠ .coded) (hr : r.stage = .coded) : matchRead .noRead s = unreadMark s := by
  unfold matchRead
  rw [hqueue, filter_coded_of_first ha hr]

theorem not_coded_unread (r : CanRecord) : r.unread.stage ≠ .coded := nofun

theorem matchLost_marks (lost : List CanRecord) : ∀ {s : State} {a b : List CanRecord}, s.tq.queue = a ++ lost ++ b →
    (∀ x ∈ a, x.stage ≠ .coded) → (∀ x ∈ lost, x.stage = .coded) →
    s.Unread (matchLost lost.length s) (a ++ lost.map CanRecord.unread ++ b) lost.length := by
  induction lost with
  | nil =>
    intro s a b hqueue _ _
    have hnone := State.Unread.none s
    rw [hqueue] at hnone
    exact hnone
  | cons r rest ih =>
    intro s a b hqueue ha hlost
    have hr := hlost r List.mem_cons_self
    have hfirst : s.tq.queue = a ++ r :: (rest ++ b) := by
      rw [hqueue, List.append_assoc]
      rfl
    have hmark := unreadMark_unread hfirst ha hr
    have hnext := ih (s := unreadMark s) (a := a ++ [r.unread]) (b := b) (by rw [hmark.tq]; simp) (fun x hx => by
      rcases List.mem_append.mp hx with hx | hx
      · exact ha x hx
      · rw [List.mem_singleton.mp hx]
        exact not_coded_unread r) fun x hx => hlost x (List.mem_cons_of_mem r hx)
    have hall := hmark.trans hnext
    rw [List.append_assoc a, Nat.add_comm 1] at hall
    rw [List.length_cons, matchLost, matchRead_noRead hfirst ha hr]
    exact hall

theorem matchLost_orphans (n : Nat) : ∀ {s : State}, (∀ x ∈ s.tq.queue, x.stage ≠ .coded) →
    matchLost n s = s.withReaderCounters { s.rm.counters with orphan := tally s.rm.counters.orphan n } := by
  induction n with
  | zero =>
    intro s _
    rw [tally_zero]
    rfl
  | succ n ih =>
    intro s hnone
    rw [matchLost, matchRead_of_none_coded .noRead hnone]
    have hqueue : (orphanRead .noRead s).tq.queue = s.tq.queue := rfl
    rw [ih (by rw [hqueue]; exact hnone), Nat.add_comm n 1, ← tally_tally]
    rfl

/-- Lost reads: each marks the oldest CODED record UNREAD, or is an orphan read (R87). -/
theorem matchLost_eq {s : State} {a lost b : List CanRecord} {m : Nat} (hqueue : s.tq.queue = a ++ lost ++ b)
    (ha : ∀ x ∈ a, x.stage ≠ .coded) (hlost : ∀ x ∈ lost, x.stage = .coded)
    (hm : lost.length = m ∨ (lost.length < m ∧ ∀ x ∈ b, x.stage ≠ .coded)) : ∃ t : State,
      s.Unread t (a ++ lost.map CanRecord.unread ++ b) lost.length ∧ matchLost m s =
        t.withReaderCounters { t.rm.counters with orphan := tally t.rm.counters.orphan (m - lost.length) } := by
  have hmarks := matchLost_marks lost hqueue ha hlost
  refine ⟨_, hmarks, ?_⟩
  rcases hm with rfl | ⟨hlt, hb⟩
  · rw [Nat.sub_self, tally_zero]
    rfl
  · have hsplit : m = lost.length + (m - lost.length) := by omega
    conv_lhs => rw [hsplit, matchLost_add]
    refine matchLost_orphans _ fun x hx => ?_
    rw [hmarks.tq] at hx
    rcases List.mem_append.mp hx with hx | hx
    · rcases List.mem_append.mp hx with hx | hx
      · exact ha x hx
      · obtain ⟨y, -, rfl⟩ := List.mem_map.mp hx
        exact not_coded_unread y
    · exact hb x hx

/-! ### The gap handled before the frame (R87, R88) -/

/-- A state in which the gap of a read frame has been handled, its copy still waiting. -/
def State.regapped (g s : State) (seq : Byte) : State :=
  { g with fp := { g.fp with handed := s.fp.handed }, rm := { g.rm with expectation := some seq } }

theorem exec_readFrame_of_gap {s g : State} {c : Copy} {rest : List (Role × Copy)} (hands : s.hands .read c rest)
    (hgap : readGap c.sequence (s.taken rest) = g) (hhanded : g.fp.handed = rest) :
    exec .readFrame s = exec .readFrame (g.regapped s c.sequence) := by
  have hwaits : (g.regapped s c.sequence).hands .read c rest := hands
  have htaken : (g.regapped s c.sequence).taken rest = { g with rm := { g.rm with expectation := some c.sequence } } := by
    rw [← hhanded]
    rfl
  have hsame : readGap c.sequence ((g.regapped s c.sequence).taken rest) = (g.regapped s c.sequence).taken rest :=
    readGap_of_in_sequence (.inr rfl)
  rw [exec_readFrame, exec_readFrame, execReadFrame, execReadFrame, onHanded_of_hands _ hands, onHanded_of_hands _ hwaits,
    takeRead, takeRead, hgap, hsame, htaken]

theorem readGap_of_lost {s : State} {e seq : Byte} {m : Nat} (he : s.rm.expectation = some e) (hm : m = (seq - e).toNat)
    (hlow : 1 ≤ m) (hhigh : m ≤ 16) : readGap seq s = (matchLost m s).withReaderCounters
      { (matchLost m s).rm.counters with lostReads := tally (matchLost m s).rm.counters.lostReads m } := by
  unfold readGap seqGap
  rw [he]
  dsimp only
  rw [← hm, if_neg (by omega), if_pos (show m ≤ Config.largestGap from hhigh)]

theorem readGap_of_restart {s : State} {e seq : Byte} {m : Nat} (he : s.rm.expectation = some e) (hm : m = (seq - e).toNat)
    (hhigh : 17 ≤ m) : readGap seq s =
      breakTracking (s.withReaderCounters { s.rm.counters with restarts := tally s.rm.counters.restarts 1 }) := by
  unfold readGap seqGap
  rw [he]
  dsimp only
  rw [← hm, if_neg (by omega), if_neg (show ¬ m ≤ Config.largestGap from not_le.mpr hhigh)]

end Sys2Proof.Machine
end

section
/-!
PROOFS, a read matched: the exact match, the unread mark and the lookahead match of a read frame without a gap (sections 5.4 and 5.5).
-/

namespace Sys2Proof.Machine

/-! ### The lot check (R95) -/

theorem isBefore_iff (a b : Word32) : isBefore a b = true ↔ 1 ≤ (b - a).toNat ∧ (b - a).toNat < 2147483648 := by
  unfold isBefore atOrAfter
  rw [Bool.and_eq_true, decide_eq_true_iff, bne_iff_ne]
  constructor
  · rintro ⟨hlow, hne⟩
    refine ⟨Nat.one_le_iff_ne_zero.mpr fun hzero => hne ?_, hlow⟩
    bv_omega
  · rintro ⟨hpos, hlow⟩
    refine ⟨hlow, fun heq => ?_⟩
    subst heq
    rw [BitVec.sub_self] at hpos
    exact absurd hpos (by decide)

/-- A lot text agrees with a record: the current lot, or the previous one before lot boundary plus lot grace (R95). -/
def State.lotAgrees (s : State) (x : CanRecord) (lot : List Byte) : Prop :=
  ∃ p : Product, s.pu.table[x.product] = some p ∧
    (lot = p.currentLot.take s.ma.setup.lotLength ∨
      ∃ (prev : List Byte) (ahead : Nat), p.previousLot = some prev ∧ lot = prev.take s.ma.setup.lotLength ∧
        ahead = (s.rm.lotBoundary[x.product] + BitVec.ofNat 32 s.ma.setup.lotGrace - x.number).toNat ∧
        1 ≤ ahead ∧ ahead < 2147483648)

theorem lotAccepted_iff (s : State) (x : CanRecord) (lot : List Byte) :
    lotAccepted s.ma.setup s.pu.table[x.product] s.rm.lotBoundary[x.product] x.number lot = true ↔ s.lotAgrees x lot := by
  unfold lotAccepted State.lotAgrees
  cases s.pu.table[x.product] with
  | none => exact ⟨nofun, fun ⟨p, hp, _⟩ => nomatch hp⟩
  | some p =>
    dsimp only
    rw [Bool.or_eq_true, beq_iff_eq]
    constructor
    · rintro (hcurrent | hprevious)
      · exact ⟨p, rfl, .inl hcurrent.symm⟩
      · cases hprev : p.previousLot with
        | none =>
          rw [hprev] at hprevious
          cases hprevious
        | some prev =>
          rw [hprev] at hprevious
          rw [Bool.and_eq_true, beq_iff_eq, isBefore_iff] at hprevious
          obtain ⟨hlot, hlow, hhigh⟩ := hprevious
          exact ⟨p, rfl, .inr ⟨prev, _, hprev, hlot.symm, rfl, hlow, hhigh⟩⟩
    · rintro ⟨q, hq, hlot⟩
      obtain rfl := Option.some.inj hq
      rcases hlot with hlot | ⟨prev, _, hprev, hlot, rfl, hlow, hhigh⟩
      · exact .inl hlot.symm
      · rw [hprev]
        exact .inr (by rw [Bool.and_eq_true, beq_iff_eq, isBefore_iff]; exact ⟨hlot.symm, hlow, hhigh⟩)

/-- A state whose oldest CODED record was matched (R92). -/
def State.matched (s : State) (queue : List CanRecord) (good : Bool) : State :=
  { s with
    tq := { s.tq with queue := queue }
    rm := { s.rm with counters := { s.rm.counters with
      mismatches := if good then s.rm.counters.mismatches else tally s.rm.counters.mismatches 1 } } }

theorem markFirst_eq {s : State} {a b : List CanRecord} {r : CanRecord} {lot : List Byte} {good : Bool}
    (hqueue : s.tq.queue = a ++ r :: b) (ha : ∀ x ∈ a, x.stage ≠ .coded) (hr : r.stage = .coded)
    (hgood : good = true ↔ s.lotAgrees r lot) : markFirst lot s = s.matched (a ++ markMatched good r :: b) good := by
  have haccepted : s.lotOf lot = good := by
    unfold State.lotOf
    rw [find?_of_first hqueue (all_not_coded ha) (isCoded_eq_true hr)]
    dsimp only
    rw [Bool.eq_iff_iff, hgood]
    exact lotAccepted_iff s r lot
  unfold markFirst
  dsimp only
  rw [haccepted, updateFirst_of_first _ hqueue (all_not_coded ha) (isCoded_eq_true hr)]
  cases good
  · rw [if_neg Bool.false_ne_true]
    rfl
  · rw [if_pos rfl]
    rfl

/-! ### The tests of R89 -/

section Tests

variable {s : State} {a b : List CanRecord} {r : CanRecord} {tag : Tag} {lot : List Byte}

theorem matchRead_exact (hqueue : s.tq.queue = a ++ r :: b) (ha : ∀ x ∈ a, x.stage ≠ .coded) (hr : r.stage = .coded)
    (htag : r.tag = some tag) : matchRead (.tag tag lot) s = exactMatch lot s := by
  unfold matchRead
  rw [hqueue, filter_coded_of_first ha hr]
  dsimp only
  rw [if_pos htag]

theorem matchRead_unread (hqueue : s.tq.queue = a ++ r :: b) (ha : ∀ x ∈ a, x.stage ≠ .coded) (hr : r.stage = .coded)
    (htag : r.tag ≠ some tag)
    (hahead : ∀ y ∈ (b.filter fun y => y.stage == .coded).take s.ma.setup.lookahead, y.tag ≠ some tag)
    (hpassed : ∀ x ∈ s.tq.queue, x.stage = .passed → x.tag ≠ some tag) :
    matchRead (.tag tag lot) s = unreadMark s := by
  have hnone : s.tq.queue.any (fun x => x.isPassed && x.tag == some tag) = false := List.any_eq_false.mpr fun x hx hboth => by
    rw [Bool.and_eq_true, beq_iff_eq] at hboth
    exact hpassed x hx (beq_iff_eq.mp hboth.1) hboth.2
  have hfilter : s.tq.queue.filter CanRecord.isCoded = r :: b.filter CanRecord.isCoded := by
    rw [hqueue, filter_coded_of_first ha hr]
  unfold matchRead
  rw [hfilter]
  dsimp only
  rw [if_neg htag, lookahead_eq_none (by exact hahead)]
  dsimp only
  rw [hnone, if_neg Bool.false_ne_true]

/-- The lookahead finds the first record within it that carries the tag (R93). -/
theorem lookahead_finds {mid later : List CanRecord} {x : CanRecord} {n : Nat} (hmid : ∀ y ∈ mid, y.tag ≠ some tag)
    (hx : x.tag = some tag) (hn : mid.length + 1 ≤ n) :
    ((mid ++ x :: later).take n).findIdx? (fun y => y.tag == some tag) = some mid.length := by
  refine List.findIdx?_eq_some_iff_getElem.mpr ⟨?_, ?_, fun j hj => ?_⟩
  · simp only [List.length_take, List.length_append, List.length_cons]
    omega
  · simp only [List.getElem_take, List.getElem_append_right (Nat.le_refl _), Nat.sub_self, List.getElem_cons_zero, hx, beq_self_eq_true]
  · rw [List.getElem_take, List.getElem_append_left hj]
    simpa using hmid _ (List.getElem_mem hj)

theorem matchRead_ahead {mid later : List CanRecord} {x : CanRecord} (hqueue : s.tq.queue = a ++ r :: (mid ++ x :: later))
    (ha : ∀ x ∈ a, x.stage ≠ .coded) (hr : r.stage = .coded) (hcoded : ∀ y ∈ mid, y.stage = .coded) (hx : x.stage = .coded)
    (htag : x.tag = some tag) (hexpected : r.tag ≠ some tag) (hmid : ∀ y ∈ mid, y.tag ≠ some tag)
    (hlook : mid.length + 1 ≤ s.ma.setup.lookahead) :
    matchRead (.tag tag lot) s = lookaheadMatch (mid.length + 1) lot s := by
  have hfollowing : (mid ++ x :: later).filter CanRecord.isCoded = mid ++ x :: later.filter CanRecord.isCoded := by
    rw [List.filter_append, List.filter_eq_self.mpr fun y hy => isCoded_eq_true (hcoded y hy), List.filter_cons,
      if_pos (isCoded_eq_true hx)]
  unfold matchRead
  rw [hqueue, filter_coded_of_first ha hr, hfollowing]
  dsimp only
  rw [if_neg hexpected, lookahead_finds hmid htag hlook]

end Tests

/-! ### The exact match (R92, R98) -/

/-- The state a clean run is compared in (R92, R98). -/
def State.exactMarked (s : State) (queue : List CanRecord) (good : Bool) : State :=
  { s with
    tq := { s.tq with queue := queue }
    rm := { s.rm with
      cleanRun := runUp s.rm.cleanRun, unreadRun := 0, risen := some .clean
      counters := { s.rm.counters with
        mismatches := if good then s.rm.counters.mismatches else tally s.rm.counters.mismatches 1
        exact := tally s.rm.counters.exact 1 } } }

theorem exactMatch_eq {s : State} {a b : List CanRecord} {r : CanRecord} {lot : List Byte} {good : Bool}
    (hqueue : s.tq.queue = a ++ r :: b) (ha : ∀ x ∈ a, x.stage ≠ .coded) (hr : r.stage = .coded)
    (hgood : good = true ↔ s.lotAgrees r lot) :
    exactMatch lot s = becomeSynced (s.exactMarked (a ++ markMatched good r :: b) good) := by
  unfold exactMatch
  rw [markFirst_eq hqueue ha hr hgood]
  rfl

theorem becomeSynced_only_narrow (s : State) : OnlyChanges [.fp, .rm, .te] s (becomeSynced s) := by
  have hwith : OnlyChanges [.rm] s (s.withRisen none) := (OnlyChanges.refl [.rm] s).put_rm _ (by decide)
  unfold becomeSynced
  split
  · dsimp only
    split
    · exact (hwith.mono (by decide)).trans (setTracking_only_of_not_lost (st := .synced) nofun _)
    · exact hwith.mono (by decide)
  · exact OnlyChanges.refl _ s

theorem exactMatch_matches {s : State} {a b : List CanRecord} {r : CanRecord} {lot : List Byte} {good : Bool}
    (hqueue : s.tq.queue = a ++ r :: b) (ha : ∀ x ∈ a, x.stage ≠ .coded) (hr : r.stage = .coded)
    (hgood : good = true ↔ s.lotAgrees r lot) : OnlyChanges [.fp, .tq, .rm, .te] s (exactMatch lot s) ∧
      (exactMatch lot s).tq = { s.tq with queue := a ++ markMatched good r :: b } ∧
      (exactMatch lot s).rm = { s.rm with
        cleanRun := runUp s.rm.cleanRun, unreadRun := 0, risen := none
        tracking := if s.ma.setup.syncReads ≤ runUp s.rm.cleanRun then .synced else s.rm.tracking
        counters := { s.rm.counters with
          mismatches := if good then s.rm.counters.mismatches else tally s.rm.counters.mismatches 1
          exact := tally s.rm.counters.exact 1 } } := by
  rw [exactMatch_eq hqueue ha hr hgood]
  have hmarked : OnlyChanges [.tq, .rm] s (s.exactMarked (a ++ markMatched good r :: b) good) := marked_only s _ _
  have honly := becomeSynced_only_narrow (s.exactMarked (a ++ markMatched good r :: b) good)
  exact ⟨(hmarked.mono (by decide)).trans (honly.mono (by decide)), honly .tq (by decide), becomeSynced_rm rfl⟩

/-! ### The lookahead match (R93) -/

theorem removeFirstN_coded (l : List CanRecord) : ∀ {a b : List CanRecord}, (∀ x ∈ a, x.stage ≠ .coded) →
    (∀ x ∈ l, x.stage = .coded) → removeFirstN CanRecord.isCoded l.length (a ++ l ++ b) = a ++ b := by
  induction l with
  | nil => intro a b _ _; rw [List.append_nil]; rfl
  | cons r rest ih =>
    intro a b ha hl
    have hsplit : a ++ r :: rest ++ b = a ++ r :: (rest ++ b) := by rw [List.append_assoc]; rfl
    rw [List.length_cons, removeFirstN,
      removeFirst_of_first hsplit (all_not_coded ha) (isCoded_eq_true (hl r List.mem_cons_self)), ← List.append_assoc]
    exact ih ha fun x hx => hl x (List.mem_cons_of_mem r hx)

/-- The state a lookahead match leaves (R93). -/
def State.slipped (s : State) (queue : List CanRecord) (removed : List CanRecord) (good : Bool) : State :=
  { s with
    tq := { s.tq with
      queue := queue
      counters := { s.tq.counters with missing := tally s.tq.counters.missing removed.length } }
    rm := { s.rm with
      cleanRun := 0, unreadRun := 0
      counters := { s.rm.counters with
        slips := tally s.rm.counters.slips 1
        mismatches := if good then s.rm.counters.mismatches else tally s.rm.counters.mismatches 1 } }
    rc := { s.rc with ring := s.rc.ringAfter (removed.map fun y => removalEntry y .missing s.pos.linePos) } }

theorem lookaheadMatch_eq {s : State} {a removed later : List CanRecord} {x : CanRecord} {lot : List Byte} {good : Bool}
    (hqueue : s.tq.queue = a ++ removed ++ x :: later) (ha : ∀ x ∈ a, x.stage ≠ .coded)
    (hremoved : ∀ y ∈ removed, y.stage = .coded) (hx : x.stage = .coded) (hring : s.rc.ring.length ≤ 32)
    (hgood : good = true ↔ s.lotAgrees x lot) :
    lookaheadMatch removed.length lot s = s.slipped (a ++ markMatched good x :: later) removed good := by
  have hfilter : (s.tq.queue.filter CanRecord.isCoded).take removed.length = removed := by
    rw [hqueue, List.append_assoc, List.filter_append, filter_isCoded_eq_nil ha, List.nil_append, List.filter_append,
      List.filter_eq_self.mpr fun y hy => isCoded_eq_true (hremoved y hy)]
    exact List.take_left ..
  have hhanded := handMissing_eq s.pos.linePos removed (s := s.withQueue (a ++ x :: later)) hring
  have hmarked := markFirst_eq (s := handMissing s.pos.linePos removed (s.withQueue (a ++ x :: later))) (a := a) (b := later)
    (r := x) (lot := lot) (good := good) (by rw [hhanded]; rfl) ha hx (by rw [hhanded]; exact hgood)
  unfold lookaheadMatch
  dsimp only
  rw [hfilter, hqueue, removeFirstN_coded removed ha hremoved, hmarked, hhanded]
  rfl

end Sys2Proof.Machine
end

section
/-!
PROOFS, read frames: the gap handled first, then the frame's own match (sections 5.3 to 5.6).
-/

namespace Sys2Proof.Machine

section Gap

variable {s : State} {c : Copy} {rest : List (Role × Copy)} {e : Byte} {m : Nat}

/-- The reads lost before a frame, handled before it (R87). -/
theorem lostReads_first {a lost b : List CanRecord} (hands : s.hands .read c rest) (he : s.rm.expectation = some e)
    (hm : m = (c.sequence - e).toNat) (hqueue : s.tq.queue = a ++ lost ++ b) (ha : ∀ x ∈ a, x.stage ≠ .coded)
    (hlost : ∀ x ∈ lost, x.stage = .coded) (hlow : 1 ≤ m) (hhigh : m ≤ 16)
    (hmany : lost.length = m ∨ (lost.length < m ∧ ∀ x ∈ b, x.stage ≠ .coded)) :
    ∃ u : State, exec .readFrame s = exec .readFrame u ∧ OnlyChanges [.fp, .tq, .rm, .te, .rc] s u ∧
      u.fp.handed = s.fp.handed ∧ u.tq = { s.tq with queue := a ++ lost.map CanRecord.unread ++ b } ∧
      u.rm = { s.unreadBy lost.length with
        expectation := some c.sequence
        counters := { s.rm.counters with
          lostReads := tally s.rm.counters.lostReads m, unread := tally s.rm.counters.unread lost.length
          orphan := tally s.rm.counters.orphan (m - lost.length) } } ∧
      (u.rm.tracking = s.rm.tracking → u.fp = s.fp ∧ u.te = s.te ∧ u.rc = s.rc) := by
  obtain ⟨t, hmarks, hmatched⟩ := matchLost_eq (s := s.taken rest) hqueue ha hlost hmany
  have hgap := readGap_of_lost (s := s.taken rest) he hm hlow hhigh
  have htaken : OnlyChanges [.fp] s (s.taken rest) := withFp_only s _
  rw [hmatched] at hgap
  have hexec := exec_readFrame_of_gap hands hgap hmarks.handed
  obtain ⟨honly, hhanded, htq, hrm, hcalm⟩ := hmarks
  refine ⟨_, hexec, ?_, rfl, htq, ?_, fun hkept => ?_⟩
  · have hmarked : OnlyChanges [.fp, .tq, .rm, .te, .rc] s t := (htaken.mono (by decide)).trans honly
    exact (hmarked.put_fp _ (by decide)).put_rm _ (by decide)
  · change ({ t.rm with
      expectation := some c.sequence
      counters := { t.rm.counters with
        orphan := tally t.rm.counters.orphan (m - lost.length), lostReads := tally t.rm.counters.lostReads m } } : Reader) = _
    rw [hrm]
    rfl
  · obtain ⟨hfp, hte, hrc⟩ := hcalm hkept
    refine ⟨?_, hte, hrc⟩
    change ({ t.fp with handed := s.fp.handed } : FramePath) = s.fp
    rw [hfp]
    rfl

/-- A restart handled before the frame (R87, R97, R98). -/
theorem restart_first (hands : s.hands .read c rest) (he : s.rm.expectation = some e) (hm : m = (c.sequence - e).toNat)
    (hhigh : 17 ≤ m) : ∃ u : State, exec .readFrame s = exec .readFrame u ∧ OnlyChanges [.fp, .rm, .te, .rc] s u ∧
      u.fp.handed = s.fp.handed ∧
      u.rm = { s.rm with
        expectation := some c.sequence, cleanRun := 0
        tracking := if s.rm.tracking = .synced then .lost else s.rm.tracking
        counters := { s.rm.counters with restarts := tally s.rm.counters.restarts 1 } } ∧
      (u.rm.tracking = s.rm.tracking → u.fp = s.fp ∧ u.te = s.te ∧ u.rc = s.rc) := by
  have hgap := readGap_of_restart (s := s.taken rest) he hm hhigh
  have hcounted : OnlyChanges [.fp, .rm] s ((s.taken rest).withReaderCounters { (s.taken rest).rm.counters with
      restarts := tally (s.taken rest).rm.counters.restarts 1 }) :=
    ((OnlyChanges.refl [.fp, .rm] s).put_fp _ (by decide)).put_rm _ (by decide)
  have hfp : ((s.taken rest).withReaderCounters { (s.taken rest).rm.counters with
      restarts := tally (s.taken rest).rm.counters.restarts 1 }).fp = { s.fp with handed := rest } := rfl
  have hrm : ((s.taken rest).withReaderCounters { (s.taken rest).rm.counters with
      restarts := tally (s.taken rest).rm.counters.restarts 1 }).rm = { s.rm with counters := { s.rm.counters with
      restarts := tally s.rm.counters.restarts 1 } } := rfl
  generalize (s.taken rest).withReaderCounters { (s.taken rest).rm.counters with
    restarts := tally (s.taken rest).rm.counters.restarts 1 } = t at hgap hcounted hfp hrm
  have hbroken := breakTracking_only t
  have hbrokenRm := breakTracking_rm t
  have hgrows := (breakTracking_tells (l := []) (.refl t)).grows
  have hstays (h : t.rm.tracking ≠ .synced) : (breakTracking t).fp = t.fp ∧ (breakTracking t).te = t.te ∧
      (breakTracking t).rc = t.rc := by
    rw [breakTracking_of_not_synced h]
    exact ⟨rfl, rfl, rfl⟩
  generalize breakTracking t = g at hgap hbroken hbrokenRm hgrows hstays
  have hhanded : g.fp.handed = rest := by
    rw [hgrows.handed, hfp]
  refine ⟨_, exec_readFrame_of_gap hands hgap hhanded, ?_, rfl, ?_, fun hkept => ?_⟩
  · have hall : OnlyChanges [.fp, .rm, .te, .rc] s g := (hcounted.mono (by decide)).trans (hbroken.mono (by decide))
    exact (hall.put_fp _ (by decide)).put_rm _ (by decide)
  · change ({ g.rm with expectation := some c.sequence } : Reader) = _
    rw [hbrokenRm, hrm]
  · have hnot : t.rm.tracking ≠ .synced := fun hsynced => by
      have htracking : g.rm.tracking = s.rm.tracking := hkept
      rw [hrm] at hsynced
      rw [hbrokenRm, hrm] at htracking
      dsimp only at htracking hsynced
      rw [if_pos hsynced, hsynced] at htracking
      cases htracking
    obtain ⟨hgfp, hgte, hgrc⟩ := hstays hnot
    refine ⟨?_, hgte.trans (hcounted .te (by decide)), hgrc.trans (hcounted .rc (by decide))⟩
    change ({ g.fp with handed := s.fp.handed } : FramePath) = s.fp
    rw [hgfp, hfp]

end Gap

theorem runUp_eq (n : Nat) : runUp n = min (n + 1) 255 := rfl

/-- Settles O32: the gap as lost reads or a restart, then the frame's own read as an exact match, an unread mark or a lookahead
match. -/
theorem readsMatched : Obligations.ReadsMatched := by
  refine ⟨fun s c rest e m hands he hm => ⟨fun a lost b hqueue ha hlost hlow hhigh hmany => ?_, fun hhigh => ?_⟩,
    fun s c rest rd invalid a b r base agrees hands hseq hparse hbase hqueue ha hr hagrees => ?_⟩
  · obtain ⟨u, hexec, honly, hhanded, htq, hrm, hcalm⟩ :=
      lostReads_first hands he hm hqueue ha hlost hlow hhigh hmany
    refine ⟨u, hexec, honly, hhanded, htq, ?_, hcalm⟩
    rw [hrm]
    unfold State.unreadBy
    simp only [List.length_eq_zero_iff, ne_eq]
  · exact restart_first hands he hm hhigh
  · have hexec := exec_readFrame_of_in_sequence hands hseq hparse
    have hnoted : OnlyChanges [.fp, .rm] s ((s.taken rest).notedRead c.sequence invalid) :=
      ((OnlyChanges.refl [.fp, .rm] s).put_fp _ (by decide)).put_rm _ (by decide)
    have hagreed : agrees = ((s.taken rest).notedRead c.sequence invalid).lotAgrees := hagrees
    have hqueued : ((s.taken rest).notedRead c.sequence invalid).tq.queue = a ++ r :: b := hqueue
    refine ⟨fun tag lot good hrd htag hgood => ?_, fun hrd => ?_,
      fun tag lot mid later x good hrd hb hmid hx htag hexpected hcarry hlook hring hgood => ?_⟩
    · rw [hrd, matchRead_exact hqueued ha hr htag] at hexec
      rw [hagreed] at hgood
      obtain ⟨honly, htq, hrm⟩ := exactMatch_matches hqueued ha hr hgood
      refine ⟨_, hexec, (hnoted.mono (by decide)).trans honly, htq, ?_⟩
      rw [hrm, hbase]
      rfl
    · have hmark : matchRead rd ((s.taken rest).notedRead c.sequence invalid) =
          unreadMark ((s.taken rest).notedRead c.sequence invalid) := by
        rcases hrd with rfl | rfl | ⟨tag, lot, rfl, htag, hahead, hpassed⟩
        · exact matchRead_noRead hqueued ha hr
        · unfold matchRead
          rw [hqueued, filter_coded_of_first ha hr]
        · exact matchRead_unread hqueued ha hr htag hahead hpassed
      rw [hmark] at hexec
      have hunread := unreadMark_unread hqueued ha hr
      refine ⟨_, hexec, (hnoted.mono (by decide)).trans hunread.only, hunread.tq, ?_⟩
      rw [hunread.rm, hbase]
      unfold State.unreadBy
      simp only [Nat.one_ne_zero, if_false, ne_eq, not_false_eq_true, true_and]
      rfl
    · subst hb
      rw [hrd, matchRead_ahead hqueued ha hr hmid hx htag hexpected hcarry hlook] at hexec
      rw [hagreed] at hgood
      rw [hexec]
      have hremoved : ∀ y ∈ r :: mid, y.stage = .coded := fun y hy => by
        rcases List.mem_cons.mp hy with rfl | hy
        · exact hr
        · exact hmid y hy
      have hslip := lookaheadMatch_eq (s := (s.taken rest).notedRead c.sequence invalid) (a := a) (removed := r :: mid)
        (later := later) (by rw [hqueued, List.append_assoc]; rfl) ha hremoved hx hring hgood
      rw [List.length_cons] at hslip
      rw [hslip, hbase]
      rfl

end Sys2Proof.Machine
end

section
/-!
PROOFS, the advance event: the due entries act in their order until none is left, and the order of the Reject Schedule stands (sections
6.4 to 6.6).
-/

namespace Sys2Proof.Machine

/-! ### One due entry acts -/

/-- An entry that fired with a deadline (R114). -/
def RejectEntry.firedAt (e : RejectEntry) (x : Word32) : RejectEntry :=
  { e with fired := true, deadline := some x }

theorem find?_splits {α : Type} {p : α → Bool} {l : List α} {e : α} (h : l.find? p = some e) :
    ∃ a b, l = a ++ e :: b ∧ (∀ x ∈ a, p x = false) ∧ p e = true := by
  obtain ⟨he, a, b, hl, ha⟩ := List.find?_eq_some_iff_append.mp h
  exact ⟨a, b, hl, fun x hx => by simpa using ha x hx, he⟩

/-- What firing makes of the schedule: the first entry of a kind is FIRED or gone (R114, R115). -/
theorem fireFirst_schedule (p : RejectEntry → Bool) (s : State) :
    (∀ e ∈ s.jr.schedule, p e = false) ∧ fireFirst p s = s ∨
      ∃ a e b, s.jr.schedule = a ++ e :: b ∧ (∀ x ∈ a, p x = false) ∧ p e = true ∧
        ((fireFirst p s).jr.schedule = a ++ e.firedAt (s.deadline e.firePos) :: b ∨ (fireFirst p s).jr.schedule = a ++ b) := by
  cases hfind : s.jr.schedule.find? p with
  | none =>
    refine .inl ⟨fun e he => Bool.eq_false_iff.mpr (List.find?_eq_none.mp hfind e he), ?_⟩
    unfold fireFirst
    rw [hfind]
  | some e =>
    obtain ⟨a, b, hl, ha, he⟩ := find?_splits hfind
    refine .inr ⟨a, e, b, hl, ha, he, ?_⟩
    by_cases htaken : s.rejectTaken
    · rw [fireFirst_of_taken hl ha he htaken]
      exact .inl rfl
    · obtain ⟨fp, hfire, -⟩ := fireFirst_of_refused hl ha he (rejectTaken_or.resolve_left htaken)
      rw [hfire, loseReject_jr]
      exact .inr rfl

theorem timeoutFirst_schedule (p : RejectEntry → Bool) (s : State) :
    (∀ e ∈ s.jr.schedule, p e = false) ∧ timeoutFirst p s = s ∨
      ∃ a e b, s.jr.schedule = a ++ e :: b ∧ (∀ x ∈ a, p x = false) ∧ p e = true ∧
        (timeoutFirst p s).jr.schedule = a ++ b := by
  cases hfind : s.jr.schedule.find? p with
  | none =>
    refine .inl ⟨fun e he => Bool.eq_false_iff.mpr (List.find?_eq_none.mp hfind e he), ?_⟩
    unfold timeoutFirst
    rw [hfind]
  | some e =>
    obtain ⟨a, b, hl, ha, he⟩ := find?_splits hfind
    refine .inr ⟨a, e, b, hl, ha, he, ?_⟩
    rw [timeoutFirst_jr hl ha he]

section Advance

variable {l : Word32} {d : Nat}

theorem dueKey_even {e : RejectEntry} {key : Nat} (h : dueKey l d e = some key) (heven : key % 2 = 0) :
    e.fired = false := by
  unfold dueKey at h
  split at h
  · split at h
    · cases h
    · split at h
      · have hkey := Option.some.inj h
        omega
      · cases h
  · next hpending => exact Bool.eq_false_iff.mpr hpending

/-- A PENDING entry that is due is reached, at the key of its fire position. -/
theorem dueKey_pending {e : RejectEntry} {key : Nat} (h : dueKey l d e = some key) (hpending : e.fired = false) :
    reachedBy l d e.firePos = true ∧ key = 2 * (e.firePos - l).toNat := by
  unfold dueKey at h
  rw [hpending, if_neg Bool.false_ne_true] at h
  split at h
  · next hreached => exact ⟨hreached, (Option.some.inj h).symm⟩
  · cases h

theorem dueKey_of_pending {e : RejectEntry} (hpending : e.fired = false) (hreached : reachedBy l d e.firePos = true) :
    dueKey l d e = some (2 * (e.firePos - l).toNat) := by
  unfold dueKey
  rw [hpending, if_neg Bool.false_ne_true, if_pos hreached]

theorem earliestDue_eq_none_iff {schedule : List RejectEntry} :
    earliestDue l d schedule = none ↔ ∀ e ∈ schedule, dueKey l d e = none := by
  unfold earliestDue
  rw [List.min?_eq_none_iff, List.filterMap_eq_nil_iff]

theorem earliestDue_spec {schedule : List RejectEntry} {key : Nat} (h : earliestDue l d schedule = some key) :
    (∃ e ∈ schedule, dueKey l d e = some key) ∧ ∀ e ∈ schedule, ∀ k, dueKey l d e = some k → key ≤ k := by
  obtain ⟨hmem, hmin⟩ := List.min?_eq_some_iff.mp h
  refine ⟨List.mem_filterMap.mp hmem, fun e he k hk => hmin k (List.mem_filterMap.mpr ⟨e, he, hk⟩)⟩

/-- What the earliest due entry makes of the schedule (R113): a PENDING one is FIRED or gone, a FIRED one is gone. -/
theorem advanceOnce_schedule {s : State} {key : Nat} (h : earliestDue l d s.jr.schedule = some key) :
    ∃ a e b, s.jr.schedule = a ++ e :: b ∧ (∀ x ∈ a, dueKey l d x ≠ some key) ∧ dueKey l d e = some key ∧
      (e.fired = false ∧ (advanceOnce l d key s).jr.schedule = a ++ e.firedAt (s.deadline e.firePos) :: b ∨
        (advanceOnce l d key s).jr.schedule = a ++ b) := by
  obtain ⟨⟨x, hx, hdue⟩, -⟩ := earliestDue_spec h
  have hsome : ¬ ∀ e ∈ s.jr.schedule, (dueKey l d e == some key) = false := fun hnone => by
    have hno := hnone x hx
    rw [hdue, beq_self_eq_true] at hno
    cases hno
  have hbefore {a : List RejectEntry} (ha : ∀ y ∈ a, (dueKey l d y == some key) = false) : ∀ y ∈ a, dueKey l d y ≠ some key :=
    fun y hy => beq_eq_false_iff_ne.mp (ha y hy)
  unfold advanceOnce
  by_cases heven : key % 2 = 0
  · rw [if_pos heven]
    obtain ⟨hno, -⟩ | ⟨a, e, b, hl, ha, he, hout⟩ := fireFirst_schedule (fun e => dueKey l d e == some key) s
    · exact absurd hno hsome
    · have hkey := beq_iff_eq.mp he
      exact ⟨a, e, b, hl, hbefore ha, hkey, hout.imp (fun hfired => ⟨dueKey_even hkey heven, hfired⟩) id⟩
  · rw [if_neg heven]
    obtain ⟨hno, -⟩ | ⟨a, e, b, hl, ha, he, hout⟩ := timeoutFirst_schedule (fun e => dueKey l d e == some key) s
    · exact absurd hno hsome
    · exact ⟨a, e, b, hl, hbefore ha, beq_iff_eq.mp he, .inr hout⟩

/-! ### Nothing due is left (R113, R118) -/

/-- How many times the entries of a schedule may still act: twice while PENDING, once while FIRED. -/
def actsLeft (schedule : List RejectEntry) : Nat :=
  (schedule.map fun e => if e.fired then 1 else 2).sum

theorem actsLeft_split (a b : List RejectEntry) (e : RejectEntry) :
    actsLeft (a ++ e :: b) = actsLeft (a ++ b) + if e.fired then 1 else 2 := by
  simp only [actsLeft, List.map_append, List.map_cons, List.sum_append, List.sum_cons]
  omega

theorem actsLeft_le (schedule : List RejectEntry) : actsLeft schedule ≤ 2 * schedule.length := by
  induction schedule with
  | nil => exact Nat.zero_le _
  | cons e rest ih =>
    have hcons := actsLeft_split [] rest e
    rw [List.nil_append, List.nil_append] at hcons
    rw [hcons, List.length_cons]
    split <;> omega

theorem schedule_eq_nil_of_no_acts {schedule : List RejectEntry} (h : actsLeft schedule = 0) : schedule = [] := by
  cases schedule with
  | nil => rfl
  | cons e rest =>
    have hcons := actsLeft_split [] rest e
    rw [List.nil_append, List.nil_append, h] at hcons
    split at hcons <;> omega

theorem advanceOnce_acts {s : State} {key : Nat} (h : earliestDue l d s.jr.schedule = some key) :
    actsLeft (advanceOnce l d key s).jr.schedule + 1 ≤ actsLeft s.jr.schedule := by
  obtain ⟨a, e, b, hl, -, -, hout⟩ := advanceOnce_schedule h
  rw [hl, actsLeft_split]
  rcases hout with ⟨hpending, hout⟩ | hout
  · rw [hout, actsLeft_split, hpending]
    exact le_refl _
  · rw [hout]
    split <;> omega

/-- Whatever the due entries keep of the state, a run of them keeps. -/
theorem advanceRun_keeps {P : State → Prop}
    (hact : ∀ (s : State) (key : Nat), P s → earliestDue l d s.jr.schedule = some key → P (advanceOnce l d key s)) (fuel : Nat) :
    ∀ {s : State}, P s → P (advanceRun l d fuel s) := by
  induction fuel with
  | zero => exact fun h => h
  | succ n ih =>
    intro s h
    unfold advanceRun
    split
    · exact h
    · next key hdue => exact ih (hact s key h hdue)

theorem advanceRun_nothing_due (fuel : Nat) : ∀ {s : State}, actsLeft s.jr.schedule ≤ fuel →
    earliestDue l d (advanceRun l d fuel s).jr.schedule = none := by
  induction fuel with
  | zero =>
    intro s h
    rw [advanceRun, schedule_eq_nil_of_no_acts (Nat.le_zero.mp h)]
    rfl
  | succ n ih =>
    intro s h
    unfold advanceRun
    split
    · assumption
    · next key hdue =>
      have hacts := advanceOnce_acts hdue
      exact ih (by omega)

theorem advance_nothing_due (s : State) : ∀ e ∈ (advance l d s).jr.schedule, dueKey l d e = none :=
  earliestDue_eq_none_iff.mp (advanceRun_nothing_due _ (actsLeft_le _))

/-- What an advance leaves of a schedule: its entries, FIRED since or not, each with its can number in its place (R113). -/
structure State.Advances (l : Word32) (d : Nat) (s t : State) : Prop where
  ma : t.ma = s.ma
  entries : ∀ e ∈ t.jr.schedule, e ∈ s.jr.schedule ∨
    ∃ f ∈ s.jr.schedule, f.fired = false ∧ reachedBy l d f.firePos = true ∧ e = f.firedAt (s.deadline f.firePos)
  numbers : (t.jr.schedule.filterMap RejectEntry.number).Sublist (s.jr.schedule.filterMap RejectEntry.number)

theorem State.Advances.refl (s : State) : s.Advances l d s :=
  ⟨rfl, fun _ he => .inl he, .refl _⟩

theorem State.Advances.once {s t : State} {key : Nat} (h : s.Advances l d t) (hdue : earliestDue l d t.jr.schedule = some key) :
    s.Advances l d (advanceOnce l d key t) := by
  obtain ⟨hma, hentries, hnumbers⟩ := h
  have hsame : (advanceOnce l d key t).ma = t.ma := (advanceOnce_only l d key t) .ma (by decide)
  obtain ⟨a, e, b, hl, -, hkey, hout⟩ := advanceOnce_schedule hdue
  have hdeadline : t.deadline e.firePos = s.deadline e.firePos := by rw [State.deadline, State.deadline, hma]
  have hkept : ∀ x ∈ a ++ b, x ∈ s.jr.schedule ∨ ∃ f ∈ s.jr.schedule,
      f.fired = false ∧ reachedBy l d f.firePos = true ∧ x = f.firedAt (s.deadline f.firePos) :=
    fun x hx => hentries x (by
      rw [hl]
      rcases List.mem_append.mp hx with hx | hx
      · exact List.mem_append_left _ hx
      · exact List.mem_append_right _ (List.mem_cons_of_mem _ hx))
  have hgone : ((a ++ b).filterMap RejectEntry.number).Sublist (t.jr.schedule.filterMap RejectEntry.number) := by
    rw [hl]
    exact ((List.sublist_cons_self e b).append_left a).filterMap _
  refine ⟨hsame.trans hma, fun x hx => ?_, ?_⟩
  · rcases hout with ⟨hpending, hout⟩ | hout
    · rw [hout] at hx
      rcases List.mem_append.mp hx with hx | hx
      · exact hkept x (List.mem_append_left b hx)
      · rcases List.mem_cons.mp hx with rfl | hx
        · rw [hdeadline]
          have he : e ∈ t.jr.schedule := by rw [hl]; exact List.mem_append_right _ List.mem_cons_self
          rcases hentries e he with he | ⟨f, -, -, -, rfl⟩
          · exact .inr ⟨e, he, hpending, (dueKey_pending hkey hpending).1, rfl⟩
          · cases hpending
        · exact hkept x (List.mem_append_right a hx)
    · rw [hout] at hx
      exact hkept x hx
  · refine List.Sublist.trans ?_ hnumbers
    rcases hout with ⟨-, hout⟩ | hout
    · rw [hout, hl]
      simp only [List.filterMap_append, List.filterMap_cons]
      exact List.Sublist.refl _
    · rw [hout]
      exact hgone

theorem advance_advances (s : State) : s.Advances l d (advance l d s) :=
  advanceRun_keeps (P := fun t => s.Advances l d t) (fun _ _ h hdue => h.once hdue) _ (.refl s)

end Advance

/-! ### The order of the schedule through an advance (R110) -/

/-- The fire positions of a schedule never decrease in modular order, and the FIRED entries stand first (R110). -/
def InTurn (schedule : List RejectEntry) : Prop :=
  schedule.Pairwise fun x y => atOrAfter y.firePos x.firePos = true ∧ (x.fired = false → y.fired = false)

/-- The PENDING entries lie ahead of a position, at most a reject offset and a pitch (R110). -/
def Ahead (l : Word32) (schedule : List RejectEntry) : Prop :=
  ∀ e ∈ schedule, e.fired = false → 1 ≤ (e.firePos - l).toNat ∧ (e.firePos - l).toNat ≤ 33554432

theorem InTurn.sublist {k schedule : List RejectEntry} (h : InTurn schedule) (hk : k.Sublist schedule) : InTurn k :=
  List.Pairwise.sublist hk h

/-- Of two positions ahead of a third the later one is further from it. -/
theorem ahead_le {l x y : Word32} (hx : (x - l).toNat ≤ 33554432) (hy : (y - l).toNat ≤ 33554432)
    (h : atOrAfter y x = true) : (x - l).toNat ≤ (y - l).toNat := by
  unfold atOrAfter at h
  have hlate := of_decide_eq_true h
  bv_omega

theorem advanceOnce_inTurn {l : Word32} {d key : Nat} {s : State} (hturn : InTurn s.jr.schedule) (hahead : Ahead l s.jr.schedule)
    (hdue : earliestDue l d s.jr.schedule = some key) :
    InTurn (advanceOnce l d key s).jr.schedule ∧ Ahead l (advanceOnce l d key s).jr.schedule := by
  obtain ⟨-, hmin⟩ := earliestDue_spec hdue
  obtain ⟨a, e, b, hl, ha, he, hout⟩ := advanceOnce_schedule hdue
  rw [hl] at hturn hahead hmin
  have hsub : (a ++ b).Sublist (a ++ e :: b) := (List.sublist_cons_self e b).append_left a
  rcases hout with ⟨hpending, hout⟩ | hout
  · obtain ⟨hreached, hkey⟩ := dueKey_pending he hpending
    obtain ⟨hlow, hhigh⟩ := of_decide_eq_true hreached
    obtain ⟨ha', htail, hcross⟩ := List.pairwise_append.mp hturn
    obtain ⟨hafter, hb⟩ := List.pairwise_cons.mp htail
    have hfirst : ∀ x ∈ a, x.fired = true := fun x hx => by
      by_contra hno
      have hwaits : x.fired = false := Bool.eq_false_iff.mpr hno
      obtain ⟨horder, -⟩ := hcross x hx e List.mem_cons_self
      obtain ⟨hxlow, hxhigh⟩ := hahead x (List.mem_append_left _ hx) hwaits
      obtain ⟨-, hehigh⟩ := hahead e (List.mem_append_right _ List.mem_cons_self) hpending
      have hle := ahead_le hxhigh hehigh horder
      have hxdue := dueKey_of_pending (l := l) (d := d) hwaits (decide_eq_true ⟨hxlow, hle.trans hhigh⟩)
      have hleast := hmin x (List.mem_append_left _ hx) _ hxdue
      exact ha x hx (by rw [hxdue, hkey]; congr 1; omega)
    rw [hout]
    refine ⟨List.pairwise_append.mpr ⟨ha', List.pairwise_cons.mpr ⟨fun y hy => ⟨(hafter y hy).1, nofun⟩, hb⟩,
      fun x hx y hy => ?_⟩, fun x hx hwaits => ?_⟩
    · rcases List.mem_cons.mp hy with rfl | hy
      · exact ⟨(hcross x hx e List.mem_cons_self).1, fun hno => absurd (hno.symm.trans (hfirst x hx)) Bool.false_ne_true⟩
      · exact hcross x hx y (List.mem_cons_of_mem _ hy)
    · rcases List.mem_append.mp hx with hx | hx
      · exact hahead x (List.mem_append_left _ hx) hwaits
      · rcases List.mem_cons.mp hx with rfl | hx
        · cases hwaits
        · exact hahead x (List.mem_append_right _ (List.mem_cons_of_mem _ hx)) hwaits
  · rw [hout]
    exact ⟨hturn.sublist hsub, fun x hx => hahead x (hsub.subset hx)⟩

theorem advance_inTurn {l : Word32} {d : Nat} {s : State} (hturn : InTurn s.jr.schedule) (hahead : Ahead l s.jr.schedule) :
    InTurn (advance l d s).jr.schedule :=
  (advanceRun_keeps (P := fun t => InTurn t.jr.schedule ∧ Ahead l t.jr.schedule)
    (fun _ _ h hdue => advanceOnce_inTurn h.1 h.2 hdue) _ (⟨hturn, hahead⟩ : _ ∧ _)).1

end Sys2Proof.Machine
end

section
/-!
PROOFS, the can numbers of the Tracking Queue through every row: those that stood before it, and the ones a discharge frame gives out
(R64, R67).
-/

namespace Sys2Proof.Machine

/-! ### Rows that make no record -/

/-- Without new records the can numbers of the queue are numbers that stood in it. -/
theorem Tracking.Moves.numbers {lookahead : Nat} {q t : Tracking} (h : q.Moves none lookahead t) :
    ∀ r ∈ t.queue, ∃ x ∈ q.queue, x.number = r.number := by
  induction h with
  | refl => exact fun r hr => ⟨r, hr, rfl⟩
  | same _ hqueue _ _ ih => exact hqueue ▸ ih
  | clear _ _ => exact fun r hr => absurd hr List.not_mem_nil
  | join _ r _ _ hactive _ => cases hactive
  | code _ _ _ _ hg ih =>
    intro r hr
    rcases mem_updateFirst hr with hr | ⟨y, hy, -, rfl⟩
    · exact ih r hr
    · obtain ⟨x, hx, hnumber⟩ := ih y hy
      exact ⟨x, hx, hnumber.trans (hg.number y).symm⟩
  | tick _ ih =>
    intro r hr
    obtain ⟨y, hy, rfl⟩ := List.mem_map.mp hr
    exact ih y hy
  | removeAged _ _ ih => exact fun r hr => ih r (List.mem_filter.mp hr).1
  | slip _ _ _ hg ih =>
    intro r hr
    rcases mem_updateFirst hr with hr | ⟨y, hy, -, rfl⟩
    · exact ih r ((removeFirstN_sublist _ _ _).subset hr)
    · obtain ⟨x, hx, hnumber⟩ := ih y ((removeFirstN_sublist _ _ _).subset hy)
      exact ⟨x, hx, hnumber.trans (hg.number y).symm⟩
  | pop _ ih => exact fun r hr => ih r ((removeFirst_sublist _ _).subset hr)

/-! ### Discharges -/

/-- `t` has given out `k` can numbers since `q`: the numbers of its queue stood in that of `q`, or are among them. -/
structure Tracking.Numbers (q : Tracking) (k : Nat) (t : Tracking) : Prop where
  counter : t.canCounter = q.canCounter + BitVec.ofNat 32 k
  numbers : ∀ r ∈ t.queue, (∃ x ∈ q.queue, x.number = r.number) ∨ ∃ j < k, r.number = q.canCounter + BitVec.ofNat 32 j

section Discharge

variable {q : Tracking} {k : Nat}

theorem Tracking.Numbers.refl (q : Tracking) : q.Numbers 0 q :=
  ⟨by simp, fun r hr => .inl ⟨r, hr, rfl⟩⟩

theorem Tracking.Numbers.same {t u : Tracking} (h : q.Numbers k t) (hcans : u.canCounter = t.canCounter)
    (hqueue : ∀ r ∈ u.queue, r ∈ t.queue) : q.Numbers k u :=
  ⟨hcans.trans h.counter, fun r hr => h.numbers r (hqueue r hr)⟩

theorem Tracking.Numbers.only {l : List Block} {s t : State} (h : q.Numbers k s.tq) (hs : OnlyChanges l s t) (hl : Block.tq ∉ l) :
    q.Numbers k t.tq := by
  have htq : t.tq = s.tq := hs .tq hl
  rw [htq]
  exact h

theorem makeRoom_numbers {s : State} (h : q.Numbers k s.tq) : q.Numbers k (makeRoom s).tq := by
  have hcans : (flushRecords s).tq.canCounter = s.tq.canCounter := by
    unfold flushRecords
    rw [(handRemoved_only _ _ _ _).keep .tq (by decide)]
    rfl
  have hqueue := flushRecords_queue s
  unfold makeRoom
  split
  · exact h
  · unfold overflowFlush
    generalize flushRecords s = t at hcans hqueue ⊢
    dsimp only
    rw [(loseQueue_only _).keep .tq (by decide)]
    exact h.same hcans fun r hr => absurd (hqueue ▸ hr) List.not_mem_nil

theorem createRecord_numbers (product : Fin 16) (seed : RecordSeed) {s : State} (h : q.Numbers k s.tq) :
    q.Numbers (k + 1) (createRecord product seed s).tq := by
  obtain ⟨hcounter, hnumbers⟩ := makeRoom_numbers h
  unfold createRecord
  generalize makeRoom s = t at hcounter hnumbers ⊢
  refine ⟨?_, fun r hr => ?_⟩
  · dsimp only
    rw [hcounter]
    bv_omega
  · rcases List.mem_append.mp hr with hr | hr
    · exact (hnumbers r hr).imp id fun ⟨j, hj, hnumber⟩ => ⟨j, hj.trans (Nat.lt_succ_self k), hnumber⟩
    · obtain rfl := List.mem_singleton.mp hr
      exact .inr ⟨k, Nat.lt_succ_self k, hcounter⟩

theorem createPlaceholders_numbers (product : Fin 16) (m : Nat) {s : State} (h : q.Numbers k s.tq) :
    q.Numbers (k + m) (createPlaceholders product m s).tq := by
  induction m generalizing s k with
  | zero => exact h
  | succ n ih =>
    have hcreated := createRecord_numbers product placeholderSeed h
    unfold createPlaceholders
    dsimp only
    generalize createRecord product placeholderSeed s = t at hcreated ⊢
    rw [← Nat.add_assoc, Nat.add_right_comm]
    exact ih (hcreated.same rfl fun _ hr => hr)

/-- A gap gives out at most 16 can numbers (R64, R65). -/
theorem dischargeGap_numbers (seq : Byte) (s : State) : ∃ m ≤ 16, s.tq.Numbers m (dischargeGap seq s).tq := by
  have hsame := Tracking.Numbers.refl s.tq
  unfold dischargeGap
  dsimp only
  split
  · exact ⟨0, by decide, hsame⟩
  · split
    · exact ⟨0, by decide, hsame⟩
    · split
      · next hm =>
        split
        · exact ⟨0, by decide, hsame⟩
        · exact ⟨_, (Nat.zero_add _).trans_le hm, createPlaceholders_numbers _ _ hsame⟩
      · exact ⟨0, by decide, hsame.only (breakTracking_only s) (by decide)⟩

/-- A discharge frame gives out at most 17 can numbers (R64, R67). -/
theorem takeDischarge_numbers (c : Copy) (s : State) : ∃ m ≤ 17, s.tq.Numbers m (takeDischarge c s).tq := by
  obtain ⟨m, hm, hgap⟩ := dischargeGap_numbers c.sequence s
  unfold takeDischarge
  generalize dischargeGap c.sequence s = t at hgap ⊢
  have hexpected : s.tq.Numbers m { t.tq with dischargeExp := some (c.sequence + 1) } := hgap.same rfl fun _ hr => hr
  dsimp only
  split
  · exact ⟨m, by omega, hexpected.same rfl fun _ hr => hr⟩
  · refine ⟨m + 1, by omega, ?_⟩
    unfold admitDischarge
    split
    · exact createRecord_numbers _ _ hexpected
    · exact (createRecord_numbers _ _ hexpected).only (followDischarge_only _ _ _ _) (by decide)

end Discharge

/-! ### Every row -/

/-- A row of a handed copy leaves the state, or takes the oldest copy of its role. -/
theorem onHanded_cases (role : Role) (f : Copy → State → State) (s : State) :
    onHanded role f s = s ∨ ∃ c rest, onHanded role f s = f c (s.taken rest) := by
  unfold onHanded State.takeHanded
  split
  · exact .inl rfl
  · next h hh =>
    split at hh
    · cases hh
    · obtain rfl := Option.some.inj hh
      exact .inr ⟨_, _, rfl⟩

/-- The can numbers of the queue after a row stood in it before, or are among the next 17; power-on values hold none. -/
theorem effect_numbers (c : Instr) (s : State) : ∃ m ≤ 17, ∀ r ∈ (effect c s).tq.queue,
    (∃ x ∈ s.tq.queue, x.number = r.number) ∨ ∃ j < m, r.number = s.tq.canCounter + BitVec.ofNat 32 j := by
  cases hc : clearsQueue c with
  | true =>
    have hold (t : State) (ht : t.tq = s.tq) : ∃ m ≤ 17, ∀ r ∈ t.tq.queue,
        (∃ x ∈ s.tq.queue, x.number = r.number) ∨ ∃ j < m, r.number = s.tq.canCounter + BitVec.ofNat 32 j :=
      ⟨0, by decide, fun r hr => .inl ⟨r, ht ▸ hr, rfl⟩⟩
    rcases effect_reset_tq hc s with h | h | ⟨d, status, h⟩
    · refine ⟨0, by decide, fun r hr => ?_⟩
      rw [h] at hr
      exact absurd hr List.not_mem_nil
    · rw [h]
      exact hold s rfl
    · rw [h]
      exact hold _ rfl
  | false =>
    by_cases hdischarge : c = .dischargeFrame
    · subst hdischarge
      rcases onHanded_cases .discharge takeDischarge s with h | ⟨f, rest, h⟩
      · rw [effect_dischargeFrame, h]
        exact ⟨0, by decide, fun r hr => .inl ⟨r, hr, rfl⟩⟩
      · obtain ⟨m, hm, -, hnumbers⟩ := takeDischarge_numbers f (s.taken rest)
        rw [effect_dischargeFrame, h]
        exact ⟨m, hm, hnumbers⟩
    · exact ⟨0, by decide, fun r hr => .inl ((effect_moves_of hc s fun h => absurd h hdischarge).numbers r hr)⟩

end Sys2Proof.Machine
end

section
/-!
PROOFS, the Reject Schedule at an encoder frame: after its advance nothing is left due, and the schedule is in order at the new Line
Position (sections 6.4 to 6.6).
-/

namespace Sys2Proof.Machine

/-! ### The count of an encoder frame, as the Reject Unit sees it -/

theorem State.readied_line (s : State) : s.readied.pos.linePos = s.pos.linePos ∧ s.readied.pos.lastCount = s.pos.lastCount := by
  have hpos := clearEncoderFault_pos (s.withPos { s.pos with timer := some s.ma.setup.encoderSilence })
  unfold State.readied applyGrid
  generalize clearEncoderFault _ = t at hpos ⊢
  split
  · rw [hpos]
    exact ⟨rfl, rfl⟩
  · rw [State.withPos_pos, hpos]
    exact ⟨rfl, rfl⟩

/-- Pitch and pending pitch are 16-bit values (Table 11-4). -/
structure Position.Narrow (pos : Position) : Prop where
  pitch : pos.pitch ≤ 65535
  pending : ∀ g, pos.pendingGrid = some g → g.1 ≤ 65535

theorem Position.Narrow.same {pos after : Position} (h : pos.Narrow) (hpitch : after.pitch = pos.pitch)
    (hpending : after.pendingGrid = pos.pendingGrid) : after.Narrow :=
  ⟨hpitch ▸ h.pitch, hpending ▸ h.pending⟩

theorem State.readied_narrow {s : State} (h : s.pos.Narrow) : s.readied.pos.Narrow := by
  have hpos := clearEncoderFault_pos (s.withPos { s.pos with timer := some s.ma.setup.encoderSilence })
  unfold State.readied applyGrid
  generalize clearEncoderFault _ = t at hpos ⊢
  have ht : t.pos.Narrow := hpos ▸ h.same rfl rfl
  split
  · exact ht
  · next g hg => exact ⟨ht.pending g hg, nofun⟩

theorem takeCount_narrow (c : Word16) {s : State} (h : s.pos.Narrow) : (takeCount c s).pos.Narrow := by
  have hready := State.readied_narrow h
  rw [takeCount_eq]
  generalize s.readied = t at hready ⊢
  obtain ⟨d, hd⟩ : ∃ d, d = countStep t.pos.lastCount c := ⟨_, rfl⟩
  by_cases hmoves : 1 ≤ d ∧ d ≤ 32767
  · rw [handleCount_forward hd hmoves.1 hmoves.2, forwardStep_pos]
    exact hready.same rfl rfl
  · rw [handleCount_still hd hmoves]
    exact hready.same rfl rfl

/-- A forward step is an advance of the schedule as it stands (R24, R113). -/
theorem takeCount_advance {c : Word16} {s : State} {d : Nat} (hd : d = countStep s.pos.lastCount c) (hlow : 1 ≤ d)
    (hhigh : d ≤ 32767) : ∃ u : State, takeCount c s = advance s.pos.linePos d u ∧ u.jr = s.jr ∧ u.ma = s.ma ∧
      u.pos.linePos = s.pos.linePos + BitVec.ofNat 32 d := by
  obtain ⟨hline, hlast⟩ := s.readied_line
  have hjr : s.readied.jr = s.jr := (State.readied_only s) .jr (by decide)
  have hma : s.readied.ma = s.ma := (State.readied_only s) .ma (by decide)
  rw [takeCount_eq]
  generalize s.readied = t at hline hlast hjr hma ⊢
  have honly := afterTicks_only d (t.withPos { t.pos with lastCount := some c })
  have hjrTicks : (afterTicks d (t.withPos { t.pos with lastCount := some c })).jr = t.jr := honly .jr (by decide)
  have hmaTicks : (afterTicks d (t.withPos { t.pos with lastCount := some c })).ma = t.ma := honly .ma (by decide)
  have hpos : (afterTicks d (t.withPos { t.pos with lastCount := some c })).pos = Position.step { t.pos with lastCount := some c } d :=
    honly .pos (by decide)
  refine ⟨_, ?_, hjrTicks.trans hjr, hmaTicks.trans hma, ?_⟩
  · rw [handleCount_forward (hlast ▸ hd) hlow hhigh, forwardStep_eq, ← hline]
    rfl
  · rw [hpos, ← hline]
    rfl

/-- A count that makes no forward step leaves Line Position and schedule (R22). -/
theorem takeCount_stands {c : Word16} {s : State} {d : Nat} (hd : d = countStep s.pos.lastCount c)
    (hstill : ¬ (1 ≤ d ∧ d ≤ 32767)) :
    (takeCount c s).jr = s.jr ∧ (takeCount c s).pos.linePos = s.pos.linePos := by
  obtain ⟨hline, hlast⟩ := s.readied_line
  have hjr : s.readied.jr = s.jr := (State.readied_only s) .jr (by decide)
  rw [takeCount_eq]
  generalize s.readied = t at hline hlast hjr ⊢
  rw [← hlast] at hd
  rw [handleCount_still hd hstill]
  exact ⟨hjr, hline⟩

/-! ### Nothing due is left -/

theorem not_due_iff {l : Word32} {d : Nat} {e : RejectEntry} : dueKey l d e = none ↔
    (e.fired = false → reachedBy l d e.firePos = false) ∧ (e.fired = true → ∀ x, e.deadline = some x → reachedBy l d x = false) := by
  unfold dueKey
  cases e.fired with
  | false => cases reachedBy l d e.firePos <;> simp
  | true =>
    cases e.deadline with
    | none => simp
    | some x => cases hx : reachedBy l d x <;> simp [hx]

theorem advance_leaves_nothing_due {s t : State} {c : Copy} {rest : List (Role × Copy)} {last : Word16} {d : Nat}
    (h : s.hands .encoder c rest) (hlast : s.pos.lastCount = some last) (hd : d = (encoderCount c.payload - last).toNat)
    (hlow : 1 ≤ d) (hhigh : d ≤ 32767) (hnext : exec .encoderFrame s = .next t) :
    ∀ e ∈ t.jr.schedule,
      (e.fired = false → ¬ (1 ≤ (e.firePos - s.pos.linePos).toNat ∧ (e.firePos - s.pos.linePos).toNat ≤ d)) ∧
      (e.fired = true → ∀ x, e.deadline = some x →
        ¬ (1 ≤ (x - s.pos.linePos).toNat ∧ (x - s.pos.linePos).toNat ≤ d)) ∧
      (e ∈ s.jr.schedule ∨ ∃ f ∈ s.jr.schedule, f.fired = false ∧ e = { f with
        fired := true, deadline := some (f.firePos + BitVec.ofNat 32 s.ma.setup.confirmWindow) }) := by
  rw [exec_encoderFrame_of_hands h] at hnext
  obtain rfl := Host.Outcome.next.inj hnext
  have hstep : d = countStep (s.taken rest).pos.lastCount (encoderCount c.payload) := by
    rw [hd, show (s.taken rest).pos.lastCount = some last from hlast]
    rfl
  obtain ⟨u, hadvance, hjr, hma, -⟩ := takeCount_advance hstep hlow hhigh
  rw [hadvance]
  intro e he
  obtain ⟨hpending, hfired⟩ := not_due_iff.mp (advance_nothing_due u e he)
  refine ⟨fun hwaits => of_decide_eq_false (hpending hwaits), fun hwaits x hx => of_decide_eq_false (hfired hwaits x hx), ?_⟩
  have hdeadline (x : Word32) : u.deadline x = x + BitVec.ofNat 32 s.ma.setup.confirmWindow := by
    rw [State.deadline, hma]
    rfl
  have hschedule : u.jr.schedule = s.jr.schedule := congrArg Judge.schedule hjr
  rcases (advance_advances u).entries e he with hold | ⟨f, hf, hwaits, -, hnew⟩
  · exact .inl (hschedule ▸ hold)
  · exact .inr ⟨f, hschedule ▸ hf, hwaits, hdeadline f.firePos ▸ hnew⟩

/-! ### The schedule in order at a Line Position -/

/-- A schedule in order at a Line Position: every entry near it, in turn, no can twice (R110). -/
structure PlacedAt (l : Word32) (schedule : List RejectEntry) : Prop where
  near : ∀ e ∈ schedule, e.nearLine l
  turn : InTurn schedule
  once : (schedule.filterMap RejectEntry.number).Nodup

theorem PlacedAt.sublist {l : Word32} {schedule after : List RejectEntry} (h : PlacedAt l schedule) (hsub : after.Sublist schedule) :
    PlacedAt l after :=
  ⟨fun e he => h.near e (hsub.subset he), h.turn.sublist hsub, h.once.sublist (hsub.filterMap _)⟩

/-- An entry that stays is near the Line Position the advance comes to. -/
theorem nearLine_of_not_due {l : Word32} {d : Nat} (hd : d ≤ 32767) {e : RejectEntry} (h : e.nearLine l)
    (hdue : dueKey l d e = none) : e.nearLine (l + BitVec.ofNat 32 d) := by
  obtain ⟨hwaits, hstands⟩ := not_due_iff.mp hdue
  obtain ⟨hpending, hfired⟩ := h
  refine ⟨fun hno => ?_, fun hyes => ?_⟩
  · obtain ⟨hlow, hhigh⟩ := hpending hno
    have hfar := of_decide_eq_false (hwaits hno)
    generalize e.firePos = f at hlow hhigh hfar ⊢
    bv_omega
  · obtain ⟨x, hx, hlow, hhigh⟩ := hfired hyes
    have hfar := of_decide_eq_false (hstands hyes x hx)
    refine ⟨x, hx, ?_⟩
    generalize e.firePos = f at hhigh ⊢
    bv_omega

/-- An entry that fired in the advance is near the Line Position it comes to. -/
theorem nearLine_of_fired {l : Word32} {d w : Nat} (hd : d ≤ 32767) (hlow : 1 ≤ w) (hhigh : w ≤ 65535) {e : RejectEntry}
    (hreached : reachedBy l d e.firePos = true)
    (hdue : dueKey l d (e.firedAt (e.firePos + BitVec.ofNat 32 w)) = none) :
    (e.firedAt (e.firePos + BitVec.ofNat 32 w)).nearLine (l + BitVec.ofNat 32 d) := by
  obtain ⟨-, hstands⟩ := not_due_iff.mp hdue
  have hfar := of_decide_eq_false (hstands rfl _ rfl)
  obtain ⟨hfrom, hto⟩ := of_decide_eq_true hreached
  refine ⟨nofun, fun _ => ⟨_, rfl, ?_⟩⟩
  dsimp only [RejectEntry.firedAt]
  generalize e.firePos = f at hfar hfrom hto ⊢
  bv_omega

theorem advance_placed {l : Word32} {d : Nat} (hd : d ≤ 32767) {s : State} (hlow : 1 ≤ s.ma.setup.confirmWindow)
    (hhigh : s.ma.setup.confirmWindow ≤ 65535) (h : PlacedAt l s.jr.schedule) :
    PlacedAt (l + BitVec.ofNat 32 d) (advance l d s).jr.schedule := by
  obtain ⟨-, hentries, hnumbers⟩ := advance_advances (l := l) (d := d) s
  refine ⟨fun e he => ?_, advance_inTurn h.turn fun e he => (h.near e he).1, h.once.sublist hnumbers⟩
  have hdue := advance_nothing_due s e he
  rcases hentries e he with hold | ⟨f, -, -, hreached, rfl⟩
  · exact nearLine_of_not_due hd (h.near e hold) hdue
  · exact nearLine_of_fired hd hlow hhigh hreached hdue

theorem takeCount_placed (c : Word16) {s : State} (hlow : 1 ≤ s.ma.setup.confirmWindow) (hhigh : s.ma.setup.confirmWindow ≤ 65535)
    (h : PlacedAt s.pos.linePos s.jr.schedule) : PlacedAt (takeCount c s).pos.linePos (takeCount c s).jr.schedule := by
  obtain ⟨d, hd⟩ : ∃ d, d = countStep s.pos.lastCount c := ⟨_, rfl⟩
  by_cases hmoves : 1 ≤ d ∧ d ≤ 32767
  · obtain ⟨u, hadvance, hjr, hma, hline⟩ := takeCount_advance hd hmoves.1 hmoves.2
    have hpos : (advance s.pos.linePos d u).pos = u.pos := (advance_only _ _ u) .pos (by decide)
    rw [hadvance, hpos, hline]
    exact advance_placed hmoves.2 (hma ▸ hlow) (hma ▸ hhigh) (hjr ▸ h)
  · obtain ⟨hjr, hline⟩ := takeCount_stands hd hmoves
    rw [hjr, hline]
    exact h

/-- The cans of a schedule after an encoder frame stood in it before. -/
theorem takeCount_scheduled (c : Word16) (s : State) : ∀ e ∈ (takeCount c s).jr.schedule, ∃ f ∈ s.jr.schedule, e.number = f.number := by
  intro e he
  obtain ⟨d, hd⟩ : ∃ d, d = countStep s.pos.lastCount c := ⟨_, rfl⟩
  by_cases hmoves : 1 ≤ d ∧ d ≤ 32767
  · obtain ⟨u, hadvance, hjr, -, -⟩ := takeCount_advance hd hmoves.1 hmoves.2
    rw [hadvance] at he
    rcases (advance_advances u).entries e he with hold | ⟨f, hf, -, -, rfl⟩
    · exact ⟨e, hjr ▸ hold, rfl⟩
    · exact ⟨f, hjr ▸ hf, rfl⟩
  · rw [(takeCount_stands hd hmoves).1] at he
    exact ⟨e, he, rfl⟩

end Sys2Proof.Machine
end

section
/-!
PROOFS, the Reject Schedule when a can joins it: the new entry stands in its place near Line Position (R110 to R112).
-/

namespace Sys2Proof.Machine

/-! ### The order near a Line Position -/

/-- How far a fire position lies ahead of a Line Position, counted from a confirm window behind it. -/
def RejectEntry.lead (l : Word32) (e : RejectEntry) : Nat :=
  (e.firePos - l + 65535).toNat

section Lead

variable {l : Word32} {x y : RejectEntry}

theorem lead_of_pending (h : x.nearLine l) (hpending : x.fired = false) : 65536 ≤ x.lead l ∧ x.lead l ≤ 33619967 := by
  obtain ⟨hlow, hhigh⟩ := h.1 hpending
  unfold RejectEntry.lead
  generalize x.firePos = f at hlow hhigh ⊢
  bv_omega

theorem lead_of_fired (h : x.nearLine l) (hfired : x.fired = true) : x.lead l ≤ 65535 := by
  obtain ⟨d, -, -, hhigh⟩ := h.2 hfired
  unfold RejectEntry.lead
  generalize x.firePos = f at hhigh ⊢
  bv_omega

theorem lead_le (h : x.nearLine l) : x.lead l ≤ 33619967 := by
  cases hfired : x.fired with
  | false => exact (lead_of_pending h hfired).2
  | true => exact (lead_of_fired h hfired).trans (by decide)

theorem atOrAfter_iff_lead (hx : x.nearLine l) (hy : y.nearLine l) : atOrAfter y.firePos x.firePos = true ↔ x.lead l ≤ y.lead l := by
  have hxlead := lead_le hx
  have hylead := lead_le hy
  unfold RejectEntry.lead at *
  rw [atOrAfter, decide_eq_true_iff]
  generalize x.firePos = f at *
  generalize y.firePos = g at *
  constructor <;> intro h <;> bv_omega

theorem isBefore_iff_lead (hx : x.nearLine l) (hy : y.nearLine l) : isBefore x.firePos y.firePos = true ↔ x.lead l < y.lead l := by
  have hsame : x.firePos = y.firePos ↔ x.lead l = y.lead l := by
    unfold RejectEntry.lead
    generalize x.firePos = f
    generalize y.firePos = g
    constructor <;> intro h <;> bv_omega
  rw [isBefore, Bool.and_eq_true, atOrAfter_iff_lead hx hy, bne_iff_ne, ne_eq, hsame]
  omega

/-- Near a Line Position the FIRED entries stand before the PENDING ones of themselves. -/
theorem inTurn_iff {schedule : List RejectEntry} (h : ∀ e ∈ schedule, e.nearLine l) :
    InTurn schedule ↔ schedule.Pairwise fun x y => x.lead l ≤ y.lead l := by
  refine List.Pairwise.iff_of_mem fun {x y} hx hy => ?_
  rw [atOrAfter_iff_lead (h x hx) (h y hy)]
  refine ⟨fun hturn => hturn.1, fun hle => ⟨hle, fun hpending => ?_⟩⟩
  obtain ⟨hahead, -⟩ := lead_of_pending (h x hx) hpending
  by_contra hfired
  have hbehind := lead_of_fired (h y hy) (Bool.not_eq_false _ ▸ hfired)
  omega

end Lead

/-! ### Joining -/

/-- A near entry of another can, put in its place, leaves the schedule in order. -/
theorem PlacedAt.insert {l : Word32} {before after : List RejectEntry} {e : RejectEntry} (h : PlacedAt l (before ++ after))
    (he : e.nearLine l) (hbefore : ∀ x ∈ before, isBefore e.firePos x.firePos = false)
    (hafter : ∀ x, after.head? = some x → isBefore e.firePos x.firePos = true)
    (hnew : ∀ x ∈ before ++ after, ∀ n, e.number = some n → x.number ≠ some n) : PlacedAt l (before ++ e :: after) := by
  obtain ⟨hnear, hturn, honce⟩ := h
  have hall : ∀ x ∈ before ++ e :: after, x.nearLine l := fun x hx => by
    rcases List.mem_append.mp hx with hx | hx
    · exact hnear x (List.mem_append_left _ hx)
    · rcases List.mem_cons.mp hx with rfl | hx
      · exact he
      · exact hnear x (List.mem_append_right _ hx)
  refine ⟨hall, (inTurn_iff hall).mpr ?_, ?_⟩
  · obtain ⟨hfirst, hrest, hcross⟩ := List.pairwise_append.mp ((inTurn_iff hnear).mp hturn)
    refine List.pairwise_append.mpr ⟨hfirst, List.pairwise_cons.mpr ⟨fun y hy => ?_, hrest⟩, fun x hx y hy => ?_⟩
    · cases after with
      | nil => cases hy
      | cons z rest =>
        have hz := hnear z (List.mem_append_right _ List.mem_cons_self)
        have hlt := (isBefore_iff_lead he hz).mp (hafter z rfl)
        rcases List.mem_cons.mp hy with rfl | hy
        · exact hlt.le
        · exact hlt.le.trans ((List.pairwise_cons.mp hrest).1 y hy)
    · rcases List.mem_cons.mp hy with rfl | hy
      · have hno := hbefore x hx
        have hx' := hnear x (List.mem_append_left _ hx)
        exact not_lt.mp fun hlt => Bool.false_ne_true (hno.symm.trans ((isBefore_iff_lead he hx').mpr hlt))
      · exact hcross x hx y hy
  · rw [List.filterMap_append] at honce ⊢
    rw [List.filterMap_cons]
    split
    · exact honce
    · next n hn =>
      refine List.nodup_middle.mpr (List.nodup_cons.mpr ⟨fun hmem => ?_, honce⟩)
      rw [← List.filterMap_append] at hmem
      obtain ⟨x, hx, hxn⟩ := List.mem_filterMap.mp hmem
      exact hnew x hx n hn hxn

/-- The fire position lies within an offset, a pitch and a phase of the entry position (R111). -/
theorem firePosition_near {pos : Position} {offset : Nat} (entryPos : Word32) (hphase : pos.phase < pos.pitch)
    (hpitch : pos.pitch ≤ 65535) (hoffset : offset ≤ 16777215) :
    (firePosition pos offset entryPos - entryPos).toNat ≤ 16908285 := by
  have hsum : (entryPos + BitVec.ofNat 32 offset - entryPos).toNat ≤ 16777215 := by bv_omega
  unfold firePosition
  dsimp only
  generalize entryPos + BitVec.ofNat 32 offset = sum at hsum ⊢
  generalize (((sum.toNat : Int) - pos.phase) % pos.pitch).toNat = residue
  have hback : pos.pitch - residue ≤ 65535 := (Nat.sub_le _ _).trans hpitch
  generalize pos.pitch - residue = back at hback ⊢
  generalize pos.phase = phase at hphase ⊢
  split
  · omega
  · split
    · next hroom => bv_omega
    · next hwrap => bv_omega

/-- A fire position that Line Position has not reached lies ahead of it, at most a reject offset and a pitch. -/
theorem pending_near {l fire entryPos : Word32} (hfire : (fire - entryPos).toNat ≤ 16908285)
    (hentry : (l - entryPos).toNat < 1073741824) (hwaits : atOrAfter l fire = false) :
    1 ≤ (fire - l).toNat ∧ (fire - l).toNat ≤ 33554432 := by
  have hfar := of_decide_eq_false hwaits
  bv_omega

/-- What a judged can makes of the schedule (R112): it stands as it was, or the can's entry is in its place; in order either way. -/
theorem State.schedulesInto.placed {s t : State} {number : Option Word32} {cls : CanClass} {entryPos : Word32}
    {rejected late scheduled : Bool} (h : s.schedulesInto t number cls entryPos rejected late scheduled)
    (hlate : late = decide (rejected = true ∧ s.jr.schedule.length < 32 ∧
      atOrAfter s.pos.linePos (firePosition s.pos s.ma.setup.rejectOffset entryPos) = true))
    (hscheduled : scheduled = true → rejected = true ∧ s.jr.schedule.length < 32)
    (hphase : s.pos.phase < s.pos.pitch) (hpitch : s.pos.pitch ≤ 65535) (hoffset : s.ma.setup.rejectOffset ≤ 16777215)
    (hlow : 1 ≤ s.ma.setup.confirmWindow) (hhigh : s.ma.setup.confirmWindow ≤ 65535)
    (hentry : (s.pos.linePos - entryPos).toNat < 1073741824) (hplaced : PlacedAt s.pos.linePos s.jr.schedule)
    (hnew : ∀ x ∈ s.jr.schedule, ∀ n, number = some n → x.number ≠ some n) :
    PlacedAt s.pos.linePos t.jr.schedule ∧ ∀ e ∈ t.jr.schedule, e ∈ s.jr.schedule ∨ e.number = number := by
  obtain ⟨-, -, hkept, hjoined, -⟩ := h
  cases hsched : scheduled with
  | false =>
    rw [hkept hsched]
    exact ⟨hplaced, fun e he => .inl he⟩
  | true =>
    obtain ⟨before, after, e, hold, hschedule, he, hbefore, hafter⟩ := hjoined hsched
    have hnear : e.nearLine s.pos.linePos := by
      cases hl : late with
      | false =>
        have hno := of_decide_eq_false (hlate.symm.trans hl)
        obtain ⟨hrejected, hroom⟩ := hscheduled hsched
        have hwaits : atOrAfter s.pos.linePos (firePosition s.pos s.ma.setup.rejectOffset entryPos) = false :=
          Bool.eq_false_iff.mpr fun hreached => hno ⟨hrejected, hroom, hreached⟩
        rw [hl] at he
        rw [he]
        exact ⟨fun _ => pending_near (firePosition_near entryPos hphase hpitch hoffset) hentry hwaits, nofun⟩
      | true =>
        rw [hl] at he
        rw [he]
        refine ⟨nofun, fun _ => ⟨_, rfl, ?_⟩⟩
        dsimp only
        rw [if_pos rfl]
        bv_omega
    have hnumber : e.number = number := by rw [he]
    rw [hold] at hplaced hnew
    rw [hschedule]
    refine ⟨hplaced.insert hnear hbefore hafter fun x hx n hn => hnew x hx n (hnumber ▸ hn), fun x hx => ?_⟩
    rw [hold]
    rcases List.mem_append.mp hx with hx | hx
    · exact .inl (List.mem_append_left _ hx)
    · rcases List.mem_cons.mp hx with rfl | hx
      · exact .inr hnumber
      · exact .inl (List.mem_append_right _ hx)

end Sys2Proof.Machine
end

section
/-!
PROOFS, the Reject Schedule through every row: its order at Line Position is kept by every step (R110).
-/

namespace Sys2Proof.Machine

/-! ### Rows that schedule nothing -/

/-- Line Position stands, and the schedule loses entries at most. -/
structure State.Fades (s t : State) : Prop where
  line : t.pos.linePos = s.pos.linePos
  schedule : t.jr.schedule.Sublist s.jr.schedule

theorem State.Fades.refl (s : State) : s.Fades s :=
  ⟨rfl, .refl _⟩

theorem State.Fades.only {l : List Block} {s t u : State} (h : s.Fades t) (k : OnlyChanges l t u) (hpos : Block.pos ∉ l)
    (hjr : Block.jr ∉ l) : s.Fades u := by
  have hposSame : u.pos = t.pos := k .pos hpos
  have hjrSame : u.jr = t.jr := k .jr hjr
  exact ⟨hposSame ▸ h.line, hjrSame ▸ h.schedule⟩

theorem State.Fades.of_eq {s t : State} (hline : t.pos.linePos = s.pos.linePos) (hschedule : t.jr.schedule = s.jr.schedule) :
    s.Fades t :=
  ⟨hline, hschedule ▸ .refl _⟩

theorem commitTable_fades (table : TableId) (first : Nat) (entries : List (List Byte)) (s : State) :
    s.Fades (commitTable table first entries s).1 := by
  refine .of_eq ?_ ?_
  · rcases commitTable_pos table first entries s with hpos | ⟨-, u, -, hpos⟩
    · rw [hpos]
    · rw [hpos]
  · have hother {l : List Block} {t : State} (k : OnlyChanges l s t) (hl : Block.jr ∉ l) : t.jr.schedule = s.jr.schedule :=
      congrArg Judge.schedule (k .jr hl)
    unfold commitTable
    cases table <;> dsimp only
    case channel => exact hother (commitChannel_only first entries s) (by decide)
    case lineSetup => exact hother (commitLineSetup_only entries s) (by decide)
    case calibration => exact hother (commitCalibration_only entries s) (by decide)
    case product => exact hother (commitProduct_only first entries s) (by decide)
    case valve => exact hother (commitValve_only first entries s) (by decide)
    case policy =>
      unfold commitPolicy refuseAt
      split <;> rfl

theorem confirmLost_fades (m : Nat) {s t : State} (h : s.Fades t) : s.Fades (confirmLost m t) := by
  induction m generalizing t with
  | zero => exact h
  | succ n ih =>
    unfold confirmLost
    split
    · exact ih ⟨h.line, (removeFirst_sublist _ _).trans h.schedule⟩
    · exact h

theorem takeConfirm_fades (c : Copy) {s t : State} (h : s.Fades t) : s.Fades (takeConfirm c t) := by
  have hgap : s.Fades (confirmGap c.sequence t) := by
    unfold confirmGap
    dsimp only
    split
    · exact ⟨h.line, h.schedule⟩
    · split
      · exact ⟨h.line, h.schedule⟩
      · split
        · exact ⟨(confirmLost_fades _ h).line, (confirmLost_fades _ h).schedule⟩
        · exact ⟨h.line, h.schedule⟩
  unfold takeConfirm confirmOwn
  generalize confirmGap c.sequence t = u at hgap ⊢
  dsimp only
  split
  · exact ⟨hgap.line, (removeFirst_sublist _ _).trans hgap.schedule⟩
  · refine State.Fades.only ?_ (report_only _ _) (by decide) (by decide)
    exact ⟨hgap.line, hgap.schedule⟩

theorem encoderSilence_fades (s : State) : s.Fades (encoderSilence s) := by
  refine .of_eq (by rw [encoderSilence_pos]) ?_
  have hraised (t : State) : (raiseForFault t).jr.schedule = t.jr.schedule := by
    unfold raiseForFault
    split
    · rw [raiseLineStop_jr]
    · rfl
  unfold encoderSilence
  rw [hraised, report_jr]
  rfl

/-- In a schedule in order nothing is due at Line Position itself: fires and timeouts came with the advance (R113). -/
theorem fireFirst_stands {s : State} (h : ∀ e ∈ s.jr.schedule, e.nearLine s.pos.linePos) :
    fireFirst (RejectEntry.isDue s.pos.linePos) s = s := by
  rcases fireFirst_schedule (RejectEntry.isDue s.pos.linePos) s with ⟨-, hsame⟩ | ⟨a, e, b, hl, -, hdue, -⟩
  · exact hsame
  · have hnear := h e (hl ▸ List.mem_append_right a List.mem_cons_self)
    rw [RejectEntry.isDue, Bool.and_eq_true, Bool.not_eq_true'] at hdue
    obtain ⟨hlow, hhigh⟩ := hnear.1 hdue.1
    have hreached : (s.pos.linePos - e.firePos).toNat < 2 ^ 31 := of_decide_eq_true hdue.2
    generalize e.firePos = f at hlow hhigh hreached
    generalize s.pos.linePos = l at hlow hhigh hreached
    bv_omega

theorem timeoutFirst_fades (p : RejectEntry → Bool) (s : State) : s.Fades (timeoutFirst p s) := by
  have hpos : (timeoutFirst p s).pos = s.pos := (timeoutFirst_only p s) .pos (by decide)
  refine ⟨congrArg Position.linePos hpos, ?_⟩
  rcases timeoutFirst_schedule p s with ⟨-, hsame⟩ | ⟨a, e, b, hl, -, -, hout⟩
  · rw [hsame]
  · rw [hout, hl]
    exact (List.sublist_cons_self e b).append_left a

theorem clearAlarms_fades (s : State) : s.Fades (clearAlarms s) := by
  have hpos : (clearAlarms s).pos = s.pos := (clearAlarms_only s) .pos (by decide)
  obtain ⟨stop, unexpected, hjr⟩ := clearAlarms_jr s
  exact .of_eq (congrArg Position.linePos hpos) (by rw [hjr])

/-- The rows that neither schedule a can nor move Line Position nor give the power-on values. -/
def fadesOnly : Instr → Bool
  | .powerOn _ | .resetFull | .encoderFrame | .windowResult => false
  | _ => true

theorem CommandKind.body_fades (k : CommandKind) (hfull : k ≠ .resetFull) (args : List Byte) (s : State) :
    s.Fades (k.body args s).1 := by
  by_cases hk : Block.pos ∈ k.touches ∨ Block.jr ∈ k.touches
  · cases k <;> dsimp only [CommandKind.body] <;> try exact absurd hk (by decide)
    case loadSegment =>
      exact segmentBody_of (P := fun t => s.Fades t) (fun hk _ h => h.only hk (by decide) (by decide)) args
        (fun table first entries => commitTable_fades table first entries s) (.refl s)
    case clearCounters => exact .of_eq rfl rfl
    case clearAlarms => exact clearAlarms_fades s
    case resetFull => exact absurd rfl hfull
    case resetStatistics => exact .of_eq rfl rfl
  · obtain ⟨hpos, hjr⟩ := not_or.mp hk
    exact (State.Fades.refl s).only (k.body_only args s) hpos hjr

theorem effect_fades {c : Instr} (hc : fadesOnly c = true) {s : State} (hnear : ∀ e ∈ s.jr.schedule, e.nearLine s.pos.linePos) :
    s.Fades (effect c s) := by
  cases hkind : kindOf c with
  | some k =>
    obtain rfl := eq_row_of_kindOf hkind
    refine effect_row_keeps (P := fun t => s.Fades t) k (.refl s) (fun args => ?_)
      fun c r t ht => ht.only (finish_only c r t) (by decide) (by decide)
    exact k.body_fades (fun hfull => by rw [hfull] at hc; cases hc) args s
  | none =>
    by_cases htouches : Block.pos ∈ eventTouches c ∨ Block.jr ∈ eventTouches c
    · cases c
      case rejectFire =>
        rw [effect_rejectFire, fireFirst_stands hnear]
        exact .refl s
      case confirmTimeout => exact timeoutFirst_fades _ s
      case encoderSilenceExpiry =>
        rw [effect_encoderSilenceExpiry]
        split
        · exact encoderSilence_fades s
        · exact .refl s
      case confirmFrame =>
        exact onHanded_of (P := fun t => s.Fades t) (.refl s) (fun rest => .of_eq rfl rfl) fun c _ h => takeConfirm_fades c h
      case powerOn | encoderFrame | windowResult => cases hc
      all_goals exact absurd htouches (by simp [eventTouches])
    · obtain ⟨hpos, hjr⟩ := not_or.mp htouches
      exact (State.Fades.refl s).only (effect_event_only hkind s) hpos hjr

end Sys2Proof.Machine
end

section
/-!
PROOFS, the order of the Reject Schedule through every step, and what an advance leaves due (R110, R113, R118).
-/

namespace Sys2Proof.Machine

/-! ### Pitch and pending pitch -/

theorem reset_narrow : State.reset.pos.Narrow :=
  ⟨by decide, nofun⟩

theorem CommandKind.body_narrow (k : CommandKind) (args : List Byte) {s : State} (h : s.pos.Narrow) : (k.body args s).1.pos.Narrow := by
  have hkeep {l : List Block} {t u : State} (hk : OnlyChanges l t u) (hl : Block.pos ∉ l) (ht : t.pos.Narrow) : u.pos.Narrow := by
    have hpos : u.pos = t.pos := hk .pos hl
    exact hpos ▸ ht
  by_cases hk : Block.pos ∈ k.touches
  · cases k <;> dsimp only [CommandKind.body] <;> try exact absurd hk (by decide)
    case loadSegment =>
      refine segmentBody_of (P := fun t => t.pos.Narrow) (fun hk _ ht => hkeep hk (by decide) ht) args
        (fun table first entries => ?_) h
      rcases commitTable_pos table first entries s with hpos | ⟨b, u, hu, hpos⟩
      · exact hpos ▸ h
      · obtain ⟨hpitch, -⟩ := setupOf_fits hu
        rw [hpos]
        exact ⟨h.pitch, fun g hg => Option.some.inj hg ▸ hpitch⟩
    case clearCounters => exact h.same rfl rfl
    case resetFull => exact reset_narrow
  · exact hkeep (k.body_only args s) hk h

theorem effect_narrow (c : Instr) {s : State} (h : s.pos.Narrow) : (effect c s).pos.Narrow := by
  cases hkind : kindOf c with
  | some k =>
    obtain rfl := eq_row_of_kindOf hkind
    refine effect_row_keeps (P := fun t => t.pos.Narrow) k h (fun args => k.body_narrow args h) fun c r t ht => ?_
    have hpos : (finish c r t).pos = t.pos := (finish_only c r t) .pos (by decide)
    exact hpos ▸ ht
  | none =>
    by_cases htouches : Block.pos ∈ eventTouches c
    · cases c
      case powerOn => exact reset_narrow
      case encoderFrame =>
        exact onHanded_of (P := fun t => t.pos.Narrow) h (fun _ => h) (f := fun c => takeCount (encoderCount c.payload))
          fun c t ht => takeCount_narrow _ ht
      case encoderSilenceExpiry =>
        rw [effect_encoderSilenceExpiry]
        split
        · rw [encoderSilence_pos]
          exact h.same rfl rfl
        · exact h
      all_goals exact absurd htouches (by simp [eventTouches])
    · have hpos : (effect c s).pos = s.pos := (effect_event_only hkind s) .pos htouches
      exact hpos ▸ h

/-! ### The can numbers of schedule and queue -/

/-- No can of the schedule stands in the queue still (R110). -/
def ApartFrom (schedule : List RejectEntry) (queue : List CanRecord) : Prop :=
  ∀ e ∈ schedule, ∀ r ∈ queue, e.number ≠ some r.number

/-- What the order of the schedule says beside the Line Setup record's widths. -/
structure State.Ordered (s : State) : Prop where
  narrow : s.pos.Narrow
  placed : PlacedAt s.pos.linePos s.jr.schedule
  apart : ApartFrom s.jr.schedule s.tq.queue

theorem scheduleInv_iff (s : State) : s.scheduleInv ↔ s.ma.setup.fits ∧ s.Ordered :=
  ⟨fun ⟨hfits, hpitch, hpending, hnear, hturn, honce, hapart⟩ => ⟨hfits, ⟨hpitch, hpending⟩, ⟨hnear, hturn, honce⟩, hapart⟩,
    fun ⟨hfits, ⟨hpitch, hpending⟩, ⟨hnear, hturn, honce⟩, hapart⟩ => ⟨hfits, hpitch, hpending, hnear, hturn, honce, hapart⟩⟩

/-- The scheduled cans are at most half the number range old. -/
def State.RecentCans (s : State) : Prop :=
  ∀ e ∈ s.jr.schedule, ∀ n, e.number = some n → 1 ≤ s.tq.cansSince n ∧ s.tq.cansSince n ≤ 2147483648

/-- A row gives out no can number that is scheduled still. -/
theorem effect_apart (c : Instr) {s : State} (hrecent : s.RecentCans) (h : ApartFrom s.jr.schedule s.tq.queue) :
    ApartFrom s.jr.schedule (effect c s).tq.queue := by
  obtain ⟨m, hm, hnumbers⟩ := effect_numbers c s
  intro e he r hr hnumber
  rcases hnumbers r hr with ⟨x, hx, hold⟩ | ⟨j, hj, hnew⟩
  · exact h e he x hx (hold ▸ hnumber)
  · obtain ⟨hlow, hhigh⟩ := hrecent e he r.number hnumber
    rw [Tracking.cansSince, hnew] at hlow hhigh
    have hj17 := hj.trans_le hm
    bv_omega

/-- A schedule that only lost entries is in order still. -/
theorem State.Ordered.fades {s t : State} (h : s.Ordered) (hfades : s.Fades t) (hnarrow : t.pos.Narrow)
    (hapart : ApartFrom s.jr.schedule t.tq.queue) : t.Ordered :=
  ⟨hnarrow, hfades.line ▸ h.placed.sublist hfades.schedule, fun e he => hapart e (hfades.schedule.subset he)⟩

theorem ordered_of_cleared {s : State} (hnarrow : s.pos.Narrow) (hschedule : s.jr.schedule = []) : s.Ordered := by
  refine ⟨hnarrow, ?_, ?_⟩
  · rw [hschedule]
    exact ⟨nofun, .nil, .nil⟩
  · rw [hschedule]
    exact nofun

/-! ### The rows that schedule, move Line Position or clear -/

theorem confirmWindow_low {u : LineSetup} (h : u.inRange = true) : 1 ≤ u.confirmWindow := by
  simp only [LineSetup.inRange, Bool.and_eq_true, decide_eq_true_eq] at h
  obtain ⟨⟨-, hfields⟩, -⟩ := h
  omega

theorem encoderFrame_ordered {s : State} (hrange : s.ma.setup.inRange = true) (hfits : s.ma.setup.fits) (hrecent : s.RecentCans)
    (h : s.Ordered) : (effect .encoderFrame s).Ordered := by
  have hnarrow := effect_narrow .encoderFrame h.narrow
  have hapart := effect_apart .encoderFrame hrecent h.apart
  obtain ⟨-, -, -, -, -, -, -, -, hhigh⟩ := hfits
  rw [effect_encoderFrame] at hnarrow hapart ⊢
  rcases onHanded_cases .encoder (fun c => takeCount (encoderCount c.payload)) s with hsame | ⟨c, rest, htaken⟩
  · rw [hsame]
    exact h
  · have hplaced := takeCount_placed (encoderCount c.payload) (s := s.taken rest) (confirmWindow_low hrange) hhigh h.placed
    have hcans := takeCount_scheduled (encoderCount c.payload) (s.taken rest)
    rw [htaken] at hnarrow hapart ⊢
    refine ⟨hnarrow, hplaced, fun e he r hr => ?_⟩
    obtain ⟨f, hf, hnumber⟩ := hcans e he
    exact hnumber ▸ hapart f hf r hr

/-- A Window Result that finds a record (R76, R112): the can leaves the queue and its entry joins the schedule in its place. -/
theorem windowResult_ordered {s : State} (hposition : s.positionInv) (hrange : s.ma.setup.inRange = true) (hfits : s.ma.setup.fits)
    (horder : s.orderInv) (hresults : ∀ w ∈ s.fe.results, (s.pos.linePos - w.entryPos).toNat < 1073741824) (h : s.Ordered) :
    (effect .windowResult s).Ordered := by
  obtain ⟨hphase, -⟩ := hposition
  obtain ⟨-, -, -, -, -, -, hoffset, -, hhigh⟩ := hfits
  have hlow := confirmWindow_low hrange
  cases hfe : s.fe.results with
  | nil =>
    have hsame : effect .windowResult s = s := by
      rw [effect_windowResult, nextResult, hfe]
    rw [hsame]
    exact h
  | cons w more =>
    have hentry := hresults w (hfe ▸ List.mem_cons_self)
    obtain ⟨hrecord, horphan⟩ := windowResultJudged s w more hfe
    have hends {t : State} {l : List Block} (hnext : exec .windowResult s = .next t) (honly : OnlyChanges l s t) (hl : Block.pos ∉ l)
        (hplaced : PlacedAt s.pos.linePos t.jr.schedule) (hapart : ApartFrom t.jr.schedule t.tq.queue) :
        (effect .windowResult s).Ordered := by
      have hpos : t.pos = s.pos := honly .pos hl
      obtain rfl := exec_eq_next hnext
      exact ⟨hpos ▸ h.narrow, hpos ▸ hplaced, hapart⟩
    cases hfind : s.tq.queue.find? CanRecord.isPassed with
    | none =>
      have hnone : ∀ x ∈ s.tq.queue, x.stage ≠ .passed := fun x hx hstage =>
        List.find?_eq_none.mp hfind x hx (beq_iff_eq.mpr hstage)
      obtain ⟨t, hnext, honly, -, htq, hinto, -⟩ := horphan _ _ hnone rfl rfl
      obtain ⟨hplaced, hcans⟩ := hinto.placed rfl (fun hs => (of_decide_eq_true hs).imp id And.left) hphase h.narrow.pitch hoffset
        hlow hhigh hentry h.placed nofun
      refine hends hnext honly (by decide) hplaced fun e he r hr => ?_
      rw [htq] at hr
      rcases hcans e he with hold | hnew
      · exact h.apart e hold r hr
      · rw [hnew]
        exact nofun
    | some r =>
      obtain ⟨a, b, hqueue, ha, hr⟩ := find?_splits hfind
      obtain ⟨t, hnext, honly, -, htq, hinto, -⟩ := hrecord a b r _ _ _ _ _ hqueue
        (fun x hx hstage => Bool.false_ne_true ((ha x hx).symm.trans (beq_iff_eq.mpr hstage))) (beq_iff_eq.mp hr) rfl rfl rfl rfl rfl
      have hmem : r ∈ s.tq.queue := hqueue ▸ List.mem_append_right a List.mem_cons_self
      obtain ⟨hplaced, hcans⟩ := hinto.placed rfl (fun hs => (of_decide_eq_true hs).imp id And.left) hphase h.narrow.pitch hoffset
        hlow hhigh hentry h.placed fun x hx n hn => Option.some.inj hn ▸ h.apart x hx r hmem
      refine hends hnext honly (by decide) hplaced fun e he x hx => ?_
      rw [htq] at hx
      have hstood : x ∈ s.tq.queue := hqueue ▸ (List.sublist_cons_self r b).append_left a |>.subset hx
      rcases hcans e he with hold | hnew
      · exact h.apart e hold x hstood
      · rw [hnew]
        intro hsame
        have hnumber : r.number = x.number := Option.some.inj hsame
        obtain ⟨hpairs, -⟩ := horder
        rw [hqueue] at hpairs
        obtain ⟨-, hrest, hcross⟩ := List.pairwise_append.mp hpairs
        rcases List.mem_append.mp hx with hx | hx
        · obtain ⟨-, -, hlt, -⟩ := hcross x hx r List.mem_cons_self
          exact absurd hnumber fun heq => by rw [heq] at hlt; exact lt_irrefl _ hlt
        · obtain ⟨-, -, hlt, -⟩ := (List.pairwise_cons.mp hrest).1 x hx
          exact absurd hnumber fun heq => by rw [heq] at hlt; exact lt_irrefl _ hlt

/-! ### Every step -/

theorem effect_scheduleInv (c : Instr) {s : State} (hsetup : s.setupInv) (hposition : s.positionInv) (horder : s.orderInv)
    (hresults : ∀ w ∈ s.fe.results, (s.pos.linePos - w.entryPos).toNat < 1073741824) (hrecent : s.RecentCans)
    (h : s.scheduleInv) : (effect c s).scheduleInv := by
  obtain ⟨hrange, -⟩ := hsetup
  obtain ⟨hfits, hordered⟩ := (scheduleInv_iff s).mp h
  have hnarrow := effect_narrow c hordered.narrow
  refine (scheduleInv_iff _).mpr ⟨(effect_ma c s).fits hfits, ?_⟩
  cases hc : fadesOnly c with
  | true => exact hordered.fades (effect_fades hc hordered.placed.near) hnarrow (effect_apart c hrecent hordered.apart)
  | false =>
    cases c
    case powerOn => exact ordered_of_cleared hnarrow rfl
    case resetFull =>
      rcases effect_row_cases .resetFull s with hsame | ⟨d, -, ⟨status, hreplied⟩ | hreset⟩
      · rw [show effect .resetFull s = s from hsame]
        exact hordered
      · rw [show effect .resetFull s = _ from hreplied]
        exact ⟨hordered.narrow, hordered.placed, hordered.apart⟩
      · refine ordered_of_cleared hnarrow ?_
        rw [show effect .resetFull s = _ from hreset]
        rfl
    case encoderFrame => exact encoderFrame_ordered hrange hfits hrecent hordered
    case windowResult => exact windowResult_ordered hposition hrange hfits horder hresults hordered
    all_goals cases hc

theorem expiry_touches {c : Instr} (h : isExpiry c = true) :
    fadesOnly c = true ∧ kindOf c = none ∧ Block.tq ∉ eventTouches c := by
  cases c <;> cases h <;> decide

/-- An expiry schedules nothing and leaves the queue. -/
theorem expiry_scheduleInv {c : Instr} (hc : isExpiry c = true) {s : State} (h : s.scheduleInv) : (effect c s).scheduleInv := by
  obtain ⟨hfits, hordered⟩ := (scheduleInv_iff s).mp h
  obtain ⟨hfades, hkind, htouches⟩ := expiry_touches hc
  have htq : (effect c s).tq = s.tq := (effect_event_only hkind s) .tq htouches
  exact (scheduleInv_iff _).mpr ⟨(effect_ma c s).fits hfits,
    hordered.fades (effect_fades hfades hordered.placed.near) (effect_narrow c hordered.narrow) (htq ▸ hordered.apart)⟩

theorem scheduleInv_keptByTimers : KeptByTimers State.scheduleInv where
  pending _ _ h := h
  pos _ _ _ _ h := h
  fe _ _ _ _ h := h
  hold _ _ _ _ h := h
  load _ _ _ _ h := h
  status _ _ _ _ h := h

/-- Settles O38: row by row, with the advance of `advance_leaves_nothing_due`. -/
theorem advanceLeavesNothingDue : Obligations.AdvanceLeavesNothingDue := by
  refine ⟨fun s t hsetup hposition _ horder _ h hresults hrecent hstep => ?_,
    fun s t c rest last d hhands hlast hd hlow hhigh hnext => advance_leaves_nothing_due hhands hlast hd hlow hhigh hnext⟩
  obtain ⟨-, rfl⟩ | ⟨c, rest, -, rfl⟩ := step_cases hstep
  · exact millisecond_keeps h (fun c t hc ht => expiry_scheduleInv hc ht) scheduleInv_keptByTimers.pos scheduleInv_keptByTimers.fe
      scheduleInv_keptByTimers.hold scheduleInv_keptByTimers.load scheduleInv_keptByTimers.status
  · exact effect_scheduleInv c (s := { s with pending := rest }) hsetup hposition horder hresults hrecent h

end Sys2Proof.Machine
end
